-- ==== Sys2Proof/Word.lean ====
section
/-!
DEFINITION. The word types of the model and the type of its sparse maps.
Bytes, 16-, 32- and 64-bit words are what the manual numbers as bits (R10, R11); a sparse map lists only the keys
whose value differs from a default, keys strictly rising, so that equal contents are equal data.
-/

namespace Sys2Proof

/-- Eight bits (R10). -/
abbrev Byte := BitVec 8
/-- Sixteen bits. -/
abbrev H16 := BitVec 16
/-- Thirty-two bits. -/
abbrev W32 := BitVec 32
/-- Sixty-four bits. -/
abbrev W64 := BitVec 64

/-- A sparse map from numbers: the listed keys differ from a default that the reader of the map names. -/
abbrev SMap (V : Type) := List (Nat × V)

end Sys2Proof
end

