-- ==== Sys2Proof/Syntax.lean ====
section
/-! DEFINITION. The commands of the block: one constructor per row of the opcode table, with the row's operands. An
operand is what arrives with the event from outside the block (a register number and a value, packet bytes, a queue or
an engine number), or what the event itself decides (which units a physical fault struck, which samples a sensor gave). -/
namespace Sys2Proof

/-- Which read of host memory a completion or a time-out answers: the ring of a queue, a stage list or its flushing
read, an XFE plan's accesses, or an object flush. -/
inductive HostReadTarget where
  | ring (queue : Nat)
  | stage (queue seq : Nat)
  | stageFlush (queue seq : Nat)
  | plan (xfe : Nat)
  | planFlush (xfe : Nat)
  | objFlush (object : Nat)
  deriving DecidableEq, Repr

/-- A configuration request of the host: a read of a register, the Memory Space Enable bit, the SR-IOV control
fields, the MSI-X control fields, or the power state. -/
inductive CfgOp where
  | read (reg : Nat)
  | memSpace (on : Bool)
  | vfControl (enable mse : Bool) (numVfs : Nat)
  | msixControl (enable fnMask : Bool)
  | power (d3 : Bool)
  deriving DecidableEq, Repr

/-- What SIGHTING_START samples: the straps, and the current of each cage in mA (R494, R552). -/
structure SightingSample where
  straps : BitVec 41
  mAs : List Nat
  deriving DecidableEq, Repr

/-- A write of MBX_GO: with MBX_RESET or not, and the reads of the records that the message reads which fail (R412). -/
structure GoWrite where
  reset : Bool
  fails : Nat
  deriving DecidableEq, Repr

/-- A message that reads a record from memory: its payload, and the reads of the record which fail (R412). -/
structure RecordRequest where
  payload : List Byte
  fails : Nat
  deriving DecidableEq, Repr

/-- A collective at the front of a queue, and the reads of its records which fail (R412). -/
structure CollRun where
  queue : Nat
  fails : Nat
  deriving DecidableEq, Repr

/-- A DC_ROUTE_ROWS of a queue, with the mismatches of the duplicate lane in its merges. -/
structure RouteRun where
  queue : Nat
  mms : List Nat
  deriving DecidableEq, Repr

/-- A link tag that comes in on a port, and whether a replay begins with it (R360, R361). -/
structure LinkTag where
  tag : W64
  replays : Bool
  deriving DecidableEq, Repr

/-- The commands. `q` is a queue number, `inst` the number of an engine, `ch` a mailbox or MCTP channel, `fn` a host
function, `p` a port, `rr` how many reads of a record failed before one passed, `mm` the unit of a lane mismatch, `sq`, `ctx` the sequence number
and context of a message. -/
inductive Instr where
  /-- POWER_ON (R554): Rising VIN reaches 45.0 V (after any latch-off has been cleared by VIN falling below 40
      V), and the regulators and the Sextant core start. -/
  | powerOn (failRail : Option Nat)
  /-- INPUT_POWER_LOSS (R488): Loss of the 54 V input ends all activity; only the flash keeps state. -/
  | inputPowerLoss
  /-- MODULE_RESET (R555): MOD_RST_N held low for 1,200 Sextant cycles starts a module reset that holds every
      island except Sextant in reset. -/
  | moduleReset
  /-- MODULE_RESET_RELEASE (R555): PWR_GOOD is asserted and MOD_RST_N has been high for 1,200 Sextant cycles,
      so the module leaves reset and the boot ROM starts. -/
  | moduleResetRelease (straps : BitVec 41) (romOk : Bool)
  /-- HOST_READY (R556): Once the firmware runs, the Ledger has been read, the registers are loaded, memories
      are trained and placement is rebuilt, the mailboxes leave OFFLINE. -/
  | hostReady (hbmStacks : List (Bool × List Byte)) (pkgs : List Nat)
  /-- SIGHTING_START (R557): At the 42,000,000th control-core cycle after reset release the firmware starts
      Sighting on every present port. -/
  | sightingStart (x : SightingSample)
  /-- PERST_N_ASSERT (R558): An assertion of PERST_N takes the host link to DL_Down. -/
  | perstNAssert
  /-- PERST_N_DEASSERT (R558): A deassertion of PERST_N lets the link begin training. -/
  | perstNDeassert
  /-- LINK_DL_DOWN (R457): A transition of the host link to DL_Down causes a host-side reset and starts the
      self-reset count. -/
  | linkDlDown
  /-- DL_DOWN_SELF_RESET (R458): The link stays in DL_Down for 2^26 hub cycles, so the module logs
      ST_HOST_LOST and resets itself. -/
  | dlDownSelfReset
  /-- HOT_RESET (R457): A PCI Express hot reset causes a host-side reset. -/
  | hotReset
  /-- FUNCTION_LEVEL_RESET (R456): A Function Level Reset removes a virtual function's queues, ends their
      work, empties its mailbox and disables its apertures; on the physical function it is a host-side reset.
      -/
  | functionLevelReset (fn : Nat)
  /-- D3HOT_TO_D0 (R457): The physical function returns from D3hot to D0, which causes a host-side reset. -/
  | d3hotToD0
  /-- CONFIGURATION_REQUEST (R558): A configuration request is served, or answered with Configuration Request
      Retry Status until host-ready. -/
  | configurationRequest (fn : Nat) (op : CfgOp)
  /-- UNCLAIMED_MEMORY_REQUEST (R560): A memory request that no enabled function claims is answered as
      Unsupported Request. -/
  | unclaimedMemoryRequest (fn : Nat)
  /-- REGISTER_WRITE (R15): A host write to a BAR0 register that has no row of its own takes effect by its
      access code, or is dropped if narrow, misaligned or reserved. -/
  | registerWrite (fn off width val : Nat)
  /-- HUB_DQ_DOORBELL (R144): A 64-bit write rings a queue's doorbell, which is held, ignored, dropped or
      halts the queue with ST_DB_RANGE. -/
  | hubDqDoorbell (fn : Nat) (val : W64)
  /-- HUB_DQ_CQ_DOORBELL (R153): A 64-bit write returns consumed completion entries, which advances the
      consumer index or is dropped. -/
  | hubDqCqDoorbell (fn : Nat) (val : W64)
  /-- MBX_GO (R464): A write of MBX_GO submits the mailbox buffer, or sets MBX_OVERRUN in the BUSY or OFFLINE
      phase. -/
  | mbxGo (fn mb : Nat) (vector : H16) (go : GoWrite)
  /-- MBX_RESET (R463): A write of MBX_RESET in the IDLE or DONE phase returns the mailbox to IDLE and
      discards its kept reply. -/
  | mbxReset (fn mb : Nat) (vector : H16)
  /-- BAR2_READ (R447): A host read through a BAR2 aperture reaches device memory, or is refused with 0xFF
      bytes. -/
  | bar2Read (fn off len : Nat)
  /-- BAR2_WRITE (R447): A host write through a BAR2 aperture reaches device memory with line merge, or is
      refused and dropped. -/
  | bar2Write (fn off : Nat) (data : List Byte)
  /-- DEBUG_WINDOW_ACCESS (R445): A host access to the BAR0 debug window reaches the control range while the
      debug lock is released, and is otherwise read as zero or dropped. -/
  | debugWindowAccess (fn off width : Nat) (wr : Option W64)
  /-- HOST_READ_COMPLETION (R451): A completion of a device read of host memory for a ring fetch, DC_STAGE or
      plan arrives, with data or with Unsupported Request or Completer Abort. -/
  | hostReadCompletion (t : HostReadTarget) (n : Nat) (ok : Bool) (data : List Byte)
  /-- HOST_READ_TIMEOUT (R440): A read of host memory has no completion after 2^25 hub cycles and is timed
      out. -/
  | hostReadTimeout (t : HostReadTarget) (n : Nat)
  /-- COMMAND_FETCH (R145): The units of a command, read from the ring over the host link, arrive and are
      checked for sequence, CRC and extent. -/
  | commandFetch (q : Nat) (data : List Byte)
  /-- REFETCH_BACKOFF_EXPIRY (R145): The back-off after a failed fetch check expires, and the command's units
      are read again, or the queue halts with ST_STALE_RING after the eighth re-fetch. -/
  | refetchBackoffExpiry (q : Nat)
  /-- COMMAND_DISPATCH (R149): A parsed command whose wait is met, whose target is free and whose ordering
      allows it is dispatched. -/
  | commandDispatch
  /-- DQ_WAIT_LIMIT_EXPIRY (R133): A command's tally wait or bind-slot condition is not met after
      DQ_WAIT_LIMIT hub cycles, so it fails with ST_WAIT_LIMIT and the queue halts. -/
  | dqWaitLimitExpiry (q : Nat)
  /-- COMMAND_DONE (R150): A command's reads have returned and its writes are acknowledged, so its signal
      fires and its completion record is written. -/
  | commandDone (q : Nat) (sq : W32)
  /-- DC_NOP (R137): A command that only waits and signals, and that acts as a barrier when ordered. -/
  | dcNop (q : Nat)
  /-- DC_RUN (R138): A command that starts a stream on an MXE, VXE, EBE or UPE from its parameter block. -/
  | dcRun (q rr : Nat)
  /-- DC_COPY (R139): A command that copies a source tensor view to a destination view on an XFE. -/
  | dcCopy (q rr : Nat)
  /-- DC_INLINE (R140): A command that writes 1 to 192 bytes carried in the command to memory of its own
      module. -/
  | dcInline (q : Nat)
  /-- DC_STAGE (R450): A command that copies bytes between host memory and the module's own memory on an XFE.
      -/
  | dcStage (q : Nat)
  /-- DC_PLAN (R343): A command that runs a passage plan on an XFE. -/
  | dcPlan (q : Nat)
  /-- LY_COPY (R94): A layout command that copies, converts and permutes a tensor. -/
  | lyCopy (q rr : Nat)
  /-- LY_GATHER (R95): A layout command that reads listed source blocks into a dense destination. -/
  | lyGather (q rr : Nat)
  /-- LY_SCATTER (R95): A layout command that writes dense source blocks through a block list. -/
  | lyScatter (q rr : Nat)
  /-- LY_LIST (R96): A layout command that writes a block-coordinate list from the matching keys of a key
      tensor. -/
  | lyList (q rr : Nat)
  /-- LY_FILL (R97): A layout command that writes the pad value to every position of the destination. -/
  | lyFill (q rr : Nat)
  /-- DC_EMB_BIND (R167): A command that records the active table sides in a bind slot and, for the physical
      function, applies armed switches. -/
  | dcEmbBind (q : Nat)
  /-- DC_HRD_WRITE (R185): A command that performs the listed HRD removals and then waits for reads of removed
      entries to drain. -/
  | dcHrdWrite (q : Nat)
  /-- HRD_INSERT_STAGE (R186): After the drain, the HRD performs the inserts of the list under the row
      interlock and writes the result record. -/
  | hrdInsertStage (q : Nat)
  /-- DC_CAT_SWITCH (R166): A command that arms or disarms a Catalog switch of one table number. -/
  | dcCatSwitch (q : Nat)
  /-- DC_ROUTE_ROWS (R202): A command that sends an EBE's combiner directory and spill records to the owners,
      or discards them. -/
  | dcRouteRows (x : RouteRun)
  /-- DC_NORM_SUBMIT (R296): A command that starts the partial norm of step S on its module. -/
  | dcNormSubmit (q : Nat)
  /-- PARTIAL_NORM_COMPLETE (R298): The UPE item sums are complete, and the module's partial record is written
      and handed to the norm reduction. -/
  | partialNormComplete (q : Nat)
  /-- DC_VERDICT_WAIT (R306): A command that waits until the module holds the verdict of a step and then
      writes it. -/
  | dcVerdictWait (q : Nat)
  /-- VERDICT_WAIT_EXPIRY (R306): A DC_VERDICT_WAIT lasts longer than GD_VERDICT_LIMIT hub cycles and fails
      with ST_GUARD_WAIT. -/
  | verdictWaitExpiry (q : Nat)
  /-- VC_COMMIT (R291): A DC_COMMIT operation that waits for the verdict and the apply of step S and then
      commits or records the skip. -/
  | vcCommit (q : Nat)
  /-- VC_COMMIT_ACT (R291): The wait of a VC_COMMIT ends, and the hub writes the version record in one
      protected write. -/
  | vcCommitAct (q : Nat)
  /-- VC_COMMIT_WAIT_EXPIRY (R291): A VC_COMMIT wait is not over after 2^26 hub cycles and fails with
      ST_VER_WAIT. -/
  | vcCommitWaitExpiry (q : Nat)
  /-- VC_ACQUIRE (R279): A DC_COMMIT operation that resolves a version over a range of parameters and adds to
      their read counts. -/
  | vcAcquire (q : Nat)
  /-- VC_ACQUIRE_RESOLVE (R279): A held VC_ACQUIRE finds its version resolvable and completes. -/
  | vcAcquireResolve (q : Nat)
  /-- VC_ACQUIRE_WAIT_EXPIRY (R279): A VC_ACQUIRE of a version not yet resolvable is held for 2^26 hub cycles
      and fails with ST_VER_WAIT. -/
  | vcAcquireWaitExpiry (q : Nat)
  /-- VC_RELEASE (R279): A DC_COMMIT operation that subtracts one from the read counts of the resolved slots.
      -/
  | vcRelease (q : Nat)
  /-- RSCAT (R395): A DC_COLL operation that opens a channel for a reduce-scatter of drained gradients. -/
  | rscat (x : CollRun)
  /-- AGATHER (R400): A DC_COLL operation that gathers a version of a parameter from every owner. -/
  | agather (x : CollRun)
  /-- ALLTOALL (R401): A DC_COLL operation that exchanges fixed blocks between the members of a group. -/
  | alltoall (x : CollRun)
  /-- BARRIER (R402): A DC_COLL operation that sends a barrier token up the tree and completes on BAR_DOWN. -/
  | barrier (q : Nat)
  /-- COLL_PROGRESS_LIMIT (R399): CL_LIMIT hub cycles pass with no progress, so the operation fails with
      ST_COLL_WAIT and the channel closes. -/
  | collProgressLimit (n : Nat)
  /-- DC_KAT (R429): A command that runs the known-answer tests of one engine or Collator at once. -/
  | dcKat (q : Nat) (bad : List (Nat × Nat))
  /-- KAT_DUE_RUN (R428): The front end runs the tests of a due engine before its next command, or a due
      Collator between two tiles. -/
  | katDueRun (u : Nat) (bad : List (Nat × Nat))
  /-- ICACHE_DEMAND_FILL (R118): A demand fill of a code block completes and is checked against its CRC with
      retries, and a prefetch of the next block starts. -/
  | icacheDemandFill (cls inst rr : Nat)
  /-- ICACHE_PREFETCH_FILL (R118): A prefetch fill completes and is kept, or is discarded without effect if
      every check fails. -/
  | icachePrefetchFill (cls inst rr : Nat)
  /-- BUNDLE_ISSUE (R104): An engine takes the next bundle, meets its head and sync waits, and issues its
      slots in order. -/
  | bundleIssue (cls inst : Nat)
  /-- BUNDLE_WAIT_MET (R108): A pending bundle wait is met by a tally change, and the bundle proceeds. -/
  | bundleWaitMet (cls inst : Nat)
  /-- SP_WAIT_LIMIT_EXPIRY (R111): A bundle wait is not met after SP_WAIT_LIMIT cycles, and the stream faults
      with ST_WAIT_LIMIT. -/
  | spWaitLimitExpiry (cls inst : Nat)
  /-- SIGNAL_FIRE (R110): A signal's point is reached (writes acknowledged or reads returned), and its
      increment is added to the tally. -/
  | signalFire (cls inst : Nat)
  /-- STREAM_RETIRE (R116): After S_END, a choice of end or a fault, once writes drain and signals fire, the
      stream releases its pin. -/
  | streamRetire (cls inst : Nat)
  /-- S_LOOP (R112): A scalar slot that opens a loop level with an immediate or register count. -/
  | sLoop (cls inst : Nat)
  /-- S_END (R112): A scalar slot after whose bundle the stream ends. -/
  | sEnd (cls inst : Nat)
  /-- S_SUMM (R121): A scalar slot that deposits a summary register in an SCC slot. -/
  | sSumm (cls inst : Nat)
  /-- S_ADVE (R112): A scalar slot that advances a binding's expectation. -/
  | sAdve (cls inst : Nat)
  /-- S_CHOOSE (R122): A scalar slot that ends the block and has the SCC evaluate a choice entry to pick the
      next block. -/
  | sChoose (cls inst : Nat)
  /-- SY_WAIT (R107): A sync slot that adds a second wait to its bundle. -/
  | syWait (cls inst : Nat)
  /-- SY_SIGNAL (R107): A sync slot that adds a second signal to its bundle. -/
  | sySignal (cls inst : Nat)
  /-- MXE_SCALE_LOAD (R226): An MXE load slot that writes a tile into the scale registers. -/
  | mxeScaleLoad (inst : Nat)
  /-- M_MMA (R228): An MXE compute slot that forms a tile product into an accumulator, or is skipped by its
      gate or freeze group. -/
  | mMma (inst : Nat)
  /-- M_DRAIN (R239): An MXE compute slot that drains an accumulator to memory or to a collective channel,
      converting on the way. -/
  | mDrain (inst : Nat)
  /-- M_LIMIT (R235): An MXE compute slot that sets a limit register from a count record. -/
  | mLimit (inst : Nat)
  /-- COLLATOR_TILE_CHECK (R419): At the end of a tile the Collator compares its row and column checks and
      accepts the tile or starts a rerun. -/
  | collatorTileCheck (inst : Nat) (wrong : List (Nat × Nat)) (flip : List Nat)
  /-- TILE_RECOMPUTE_COMPLETE (R420): The rerun and third computation of a disagreeing tile end, and the
      Collator decides by Table 15-3. -/
  | tileRecomputeComplete (inst : Nat) (wrong2 wrong3 : List (Nat × Nat)) (flip2 flip3 : List Nat) (katFail : Nat)
  /-- VXE_TILE_LOAD (R252): A VXE load slot that loads a tile register with widening. -/
  | vxeTileLoad (inst mm : Nat)
  /-- VXE_FTAB_LOAD (R254): A VXE load slot that loads a function-table slot. -/
  | vxeFtabLoad (inst : Nat)
  /-- VXE_TILE_STORE (R253): A VXE store slot that stores a tile register with narrowing. -/
  | vxeTileStore (inst mm : Nat)
  /-- V_ADD (R258): VXE addition. -/
  | vAdd (inst mm : Nat)
  /-- V_SUB (R258): VXE subtraction. -/
  | vSub (inst mm : Nat)
  /-- V_MUL (R258): VXE multiplication. -/
  | vMul (inst mm : Nat)
  /-- V_FMA (R258): VXE fused multiply-add with one rounding. -/
  | vFma (inst mm : Nat)
  /-- V_DIV (R258): VXE correctly rounded division. -/
  | vDiv (inst mm : Nat)
  /-- V_MAX (R258): VXE element maximum. -/
  | vMax (inst mm : Nat)
  /-- V_MIN (R258): VXE element minimum. -/
  | vMin (inst mm : Nat)
  /-- V_SQRT (R258): VXE correctly rounded square root. -/
  | vSqrt (inst mm : Nat)
  /-- V_ABS (R258): VXE absolute value. -/
  | vAbs (inst mm : Nat)
  /-- V_NEG (R258): VXE negation. -/
  | vNeg (inst mm : Nat)
  /-- V_CMP (R258): VXE comparison writing INT32 0 or 1. -/
  | vCmp (inst mm : Nat)
  /-- V_SEL (R257): VXE selection of a or b by a set element of c. -/
  | vSel (inst mm : Nat)
  /-- V_AND (R256): VXE bitwise AND. -/
  | vAnd (inst mm : Nat)
  /-- V_OR (R256): VXE bitwise OR. -/
  | vOr (inst mm : Nat)
  /-- V_CVT (R258): VXE type change between FP32 and INT32. -/
  | vCvt (inst mm : Nat)
  /-- V_RSUM (R259): VXE pairwise-tree sum along rows or columns. -/
  | vRsum (inst mm : Nat)
  /-- V_RMAX (R259): VXE pairwise-tree maximum along rows or columns. -/
  | vRmax (inst mm : Nat)
  /-- V_FN (R261): VXE evaluation of a function from a table slot. -/
  | vFn (inst mm : Nat)
  /-- V_FND (R261): VXE evaluation of a function's derivative times operand B. -/
  | vFnd (inst mm : Nat)
  /-- V_COMPRESS (R262): VXE packing of masked elements. -/
  | vCompress (inst mm : Nat)
  /-- V_EXPAND (R263): VXE unpacking of packed elements by mask. -/
  | vExpand (inst mm : Nat)
  /-- V_SUMM (R264): VXE condensing of a tile into a summary register. -/
  | vSumm (inst mm : Nat)
  /-- V_SMOV (R256): VXE move of a parameter register or an element into a scalar register. -/
  | vSmov (inst mm : Nat)
  /-- E_LOOKUP (R172): An EBE compute slot that classifies indices and issues the row reads of one bag range.
      -/
  | eLookup (inst : Nat)
  /-- E_LOOKUP_ROWS_ARRIVED (R177): Every row of an E_LOOKUP execution has arrived and passed the duplicate
      lane, so the pooled outputs and summary are written. -/
  | eLookupRowsArrived (inst mm : Nat)
  /-- E_ACCUM (R192): An EBE compute slot that folds gradient contributions into the combiner directory or
      spill area. -/
  | eAccum (inst mm : Nat)
  /-- ROW_READ (R180): A row read packet or local gather reaches the row's owner and passes the gates of its
      pair. -/
  | rowRead (own : Bool)
  /-- ROW_GATE_PASS (R213): A row read held at a gate of its pair is released and read per R180. -/
  | rowGatePass
  /-- ROW_GATE_TIMEOUT (R214): A row read has waited at the gates for 2^26 hub cycles and is refused with
      ST_EMB_GATE. -/
  | rowGateTimeout (n : Nat)
  /-- ROW_DATA (R180): Row bytes and the side entry arrive at the requesting EBE for decoding. -/
  | rowData
  /-- MROW (R205): A merged-row fragment arrives at its owner and is merged into the pair's PUB or dropped. -/
  | mrow
  /-- MROW_ACK (R404): An acknowledgement of a merged-row fragment arrives at a sender or relaying router. -/
  | mrowAck
  /-- VERDICT (R303): A verdict record arrives at a module, is kept or compared, passed down the tree, and
      acted on. -/
  | verdict
  /-- RESERVATION_GRANT (R281): A release lets a waiting reservation take its target slot. -/
  | reservationGrant
  /-- PUB_ENTRY_APPLY (R217): A UPE applies one PUB entry under the row lock and undo journal. -/
  | pubEntryApply (n entry recov : Nat) (bad lost : Bool)
  /-- DENSE_TILE_APPLY (R283): A UPE applies one tile of a dense parameter behind its dense journal. -/
  | denseTileApply (n recov : Nat) (bad lost : Bool)
  /-- SHARD_READ (R277): A versioned shard read reaches its owner and is served, held or refused. -/
  | shardRead
  /-- SHARD_READ_RESOLVE (R277): A held versioned read becomes resolvable after a commit and is served. -/
  | shardReadResolve
  /-- SHARD_READ_WAIT_EXPIRY (R277): A held versioned read waits 2^26 hub cycles and is refused with
      ST_VER_WAIT. -/
  | shardReadWaitExpiry (n : Nat)
  /-- SHARD_DATA (R400): The bytes of a shard read arrive and are written to the gather destination. -/
  | shardData
  /-- NORM_UP (R403): A partial norm record arrives at a tree node and is combined, sent up, or completed at
      the root. -/
  | normUp
  /-- VERDICT_REQ (R403): A verdict request arrives at a node and is answered or passed to the parent. -/
  | verdictReq
  /-- VERDICT_REQUEST_TIMER (R304): GD_VERDICT_LIMIT / 4 hub cycles pass with no verdict held, and the module
      sends a request up the tree. -/
  | verdictRequestTimer
  /-- VERDICT_LIMIT_EXPIRY (R304): GD_VERDICT_LIMIT hub cycles pass with no verdict, so the module logs
      ST_GUARD_LATE and goes on waiting. -/
  | verdictLimitExpiry
  /-- RS_CHUNK (R396): A reduce-scatter chunk packet arrives at a tree node and is combined, acknowledged,
      refused or dropped as a duplicate. -/
  | rsChunk
  /-- RS_ACK (R398): An acknowledgement of a chunk packet arrives and frees the sender's copy. -/
  | rsAck
  /-- RS_CHUNK_ACK_TIMEOUT (R398): 2^20 hub cycles pass without an acknowledgement, and the chunk packet is
      sent again. -/
  | rsChunkAckTimeout (t : Nat)
  /-- COLL_REFUSE_RESEND (R394): A refused collective packet is sent again after 2^14 hub cycles. -/
  | collRefuseResend (t : Nat)
  /-- A2A_BLOCK (R401): An all-to-all block arrives and is written to the destination. -/
  | a2aBlock
  /-- A2A_ACK (R401): An acknowledgement of an all-to-all block arrives. -/
  | a2aAck
  /-- BAR_UP (R402): A barrier token arrives at a tree node and is combined and sent up. -/
  | barUp
  /-- BAR_DOWN (R402): A barrier release arrives, completes the member's barrier and is passed to the
      children. -/
  | barDown
  /-- PACKET_ARRIVAL (R370): A packet arrives at a router, has its header checked, and is delivered or routed
      onward. -/
  | packetArrival (p : Nat) (t : LinkTag) (h payload : List Byte)
  /-- WRITE (R367): A remote write arrives at its target and is performed or refused. -/
  | write
  /-- WRITE_ACK (R368): A write acknowledgement arrives at the issuing engine. -/
  | writeAck
  /-- READ (R367): A remote read arrives at its target and is answered or refused. -/
  | read
  /-- READ_DATA (R367): The data of a remote read arrive at the issuing engine. -/
  | readData
  /-- REFUSE (R367): A refusal arrives and fails or re-sends the request. -/
  | refuse
  /-- UNDELIVERABLE (R371): A returned packet arrives at its source, which re-sends or fails the request. -/
  | undeliverable
  /-- NOPATH_RESEND (R371): A request returned with NOPATH or NOMODULE is sent again after 2^14 hub cycles, up
      to four times. -/
  | nopathResend (t : Nat)
  /-- RH_REQUEST_TIMEOUT (R367): A remote request has no response after 2^26 hub cycles and fails with
      ST_RH_TIMEOUT. -/
  | rhRequestTimeout (t : Nat)
  /-- LINK_TAG_RECEIVE (R360): A link tag arrives on a port, with acknowledgements and credits. -/
  | linkTagReceive (p : Nat) (t : LinkTag)
  /-- CODEWORD_UNCORRECTABLE (R361): A codeword, tag or header fails its check, so the receiver discards and
      sends a replay request. -/
  | codewordUncorrectable (p n : Nat) (cw : Bool)
  /-- REPLAY_REQUEST (R361): A replay request arrives, and the sender sends again every packet after LT_ACK.
      -/
  | replayRequest (p : Nat) (t : W64)
  /-- LANE_LOSS_OF_LOCK (R362): One lane loses lock, so the port replays and retires that lane. -/
  | laneLossOfLock (p lane : Nat)
  /-- PORT_LINK_LOSS (R364): Every lane of a port is lost at once; buffered packets return as UNDELIVERABLE
      and the port retrains. -/
  | portLinkLoss (p : Nat)
  /-- PARTNER_SIGNAL_DETECT (R376): The partner's signal appears on a port in Sighting, and lane training
      begins. -/
  | partnerSignalDetect (p : Nat)
  /-- LANE_TRAINING_COMPLETE (R376): Lane training and FEC lock complete, and the length is measured and SIGHT
      sent. -/
  | laneTrainingComplete (p lanes rtt : Nat)
  /-- SILENT_TIMEOUT (R377): No partner signal within 2^28 hub cycles makes the port SILENT. -/
  | silentTimeout (p : Nat)
  /-- TRAINING_TIMEOUT (R377): Training not complete within 90,000,000 hub cycles restarts Sighting as a
      retrain. -/
  | trainingTimeout (p : Nat)
  /-- EXCLUDED_RETRY (R374): An EXCLUDED port retries after 2^30 hub cycles. -/
  | excludedRetry (p : Nat)
  /-- SIGHT (R378): A partner's SIGHT record arrives and is checked in Hail. -/
  | sight
  /-- HAIL (R378): A partner's HAIL verdict arrives, passing the leg to FIXING or EXCLUDED. -/
  | hail
  /-- FIX (R379): A partner's FIX record arrives and is checked for coordinate and extents. -/
  | fix
  /-- CHART (R380): A CHART record arrives, updates the ring view and puts the leg in service. -/
  | chart
  /-- PP_FILL (R345): A plan entry that fills cache slots from home pages, writing back a displaced page
      first. -/
  | ppFill (xfe rr : Nat)
  /-- PP_CLEAN (R345): A plan entry that writes back slots and keeps their pages. -/
  | ppClean (xfe rr : Nat)
  /-- PP_EVICT (R345): A plan entry that writes back slots and empties them. -/
  | ppEvict (xfe rr : Nat)
  /-- PP_DROP (R345): A plan entry that empties slots and discards dirty lines. -/
  | ppDrop (xfe rr : Nat)
  /-- PP_COPY (R345): A plan entry that copies home bytes between two objects. -/
  | ppCopy (xfe rr : Nat)
  /-- PP_WAIT (R345): A plan entry that waits on a tally before later entries start. -/
  | ppWait (xfe rr : Nat)
  /-- PLAN_WAIT_MET (R346): A plan wait is met, and later entries start. -/
  | planWaitMet (xfe : Nat)
  /-- PLAN_WAIT_LIMIT_EXPIRY (R346): A plan wait is not met after 2^26 XFE cycles and fails the plan with
      ST_WAIT_LIMIT. -/
  | planWaitLimitExpiry (xfe : Nat)
  /-- PP_SIGNAL (R345): A plan entry that adds an increment to a tally. -/
  | ppSignal (xfe rr : Nat)
  /-- SCRUB_PASS (R413): A control array reads and corrects every entry once per 2^24 cycles. -/
  | scrubPass (faults : List (Nat × Nat × Nat))
  /-- LOGBOOK_SEND (R435): The firmware sends a Logbook record as a UDP datagram and keeps it in the ring. -/
  | logbookSend
  /-- LOGBOOK_REPEAT (R435): 2^20 control-core cycles after a permanent or lost record, it is sent again with
      the repeat flag. -/
  | logbookRepeat
  /-- SPECIMEN_FRAGMENT_SEND (R432): The firmware sends the next specimen fragment at most once per 2^16
      control-core cycles. -/
  | specimenFragmentSend
  /-- ICMPV6_ECHO_REQUEST (R433): An ICMPv6 Echo Request on the management port is answered. -/
  | icmpv6EchoRequest (src dst : List Byte) (ident sqn : Nat) (data : List Byte)
  /-- NEIGHBOR_DISCOVERY (R433): A Neighbor Discovery message on the management port is handled for the
      module's own addresses. -/
  | neighborDiscovery (src target : List Byte)
  /-- MCTP_SET_ENDPOINT_ID (R474): The MCTP control message that sets the endpoint ID. -/
  | mctpSetEndpointId (iid : Nat) (eid : Byte)
  /-- MCTP_GET_ENDPOINT_ID (R474): The MCTP control message that returns the endpoint ID. -/
  | mctpGetEndpointId (iid : Nat)
  /-- MCTP_GET_VERSION_SUPPORT (R474): The MCTP control message Get MCTP Version Support. -/
  | mctpGetVersionSupport (iid : Nat) (typ : Byte)
  /-- MCTP_GET_MESSAGE_TYPE_SUPPORT (R474): The MCTP control message Get Message Type Support. -/
  | mctpGetMessageTypeSupport (iid : Nat)
  /-- MAILBOX_DEFERRED_REPLY (R471): The event that a request's reply waits for occurs, and the reply is
      written. -/
  | mailboxDeferredReply (ch : Nat)
  /-- MBX_TIMEOUT (R473): A request is not answered within its limit and is answered with ST_MBX_TIMEOUT. -/
  | mbxTimeout (ch : Nat)
  /-- DZ_CAP_READ (R478): A message that returns the capability block and the usable sets. -/
  | dzCapRead (ch : Nat) (sq : W32) (ctx : W64) (p : List Byte)
  /-- DZ_MBX_STATUS (R485): A message that returns the channel's state and counters. -/
  | dzMbxStatus (ch : Nat) (sq : W32) (ctx : W64) (p : List Byte)
  /-- DZ_CODE_LOAD (R114): A message that registers a code object as a new generation of a handle. -/
  | dzCodeLoad (ch : Nat) (sq : W32) (ctx : W64) (x : RecordRequest)
  /-- DZ_CODE_UNLOAD (R126): A message that leaves a handle with no current generation. -/
  | dzCodeUnload (ch : Nat) (sq : W32) (ctx : W64) (p : List Byte)
  /-- DZ_CODE_QUERY (R126): A message that returns a handle's generations and pin counts. -/
  | dzCodeQuery (ch : Nat) (sq : W32) (ctx : W64) (p : List Byte)
  /-- DZ_TALLY_READ (R126): A message that returns tally values. -/
  | dzTallyRead (ch : Nat) (sq : W32) (ctx : W64) (p : List Byte)
  /-- DZ_TALLY_SET (R126): A message that sets a tally, clears TALLY_SAT and re-evaluates waits. -/
  | dzTallySet (ch : Nat) (sq : W32) (ctx : W64) (p : List Byte)
  /-- DZ_BREAK_SET (R124): A message that sets a break unit. -/
  | dzBreakSet (ch : Nat) (sq : W32) (ctx : W64) (p : List Byte)
  /-- DZ_BREAK_QUERY (R126): A message that returns a break unit's state. -/
  | dzBreakQuery (ch : Nat) (sq : W32) (ctx : W64) (p : List Byte)
  /-- DZ_QUEUE_CREATE (R159): A message that creates a command queue. -/
  | dzQueueCreate (ch : Nat) (sq : W32) (ctx : W64) (p : List Byte)
  /-- DZ_QUEUE_DESTROY (R159): A message that removes a halted queue. -/
  | dzQueueDestroy (ch : Nat) (sq : W32) (ctx : W64) (p : List Byte)
  /-- DZ_QUEUE_HALT (R154): A message that halts a queue and replies when it is HALTED. -/
  | dzQueueHalt (ch : Nat) (sq : W32) (ctx : W64) (p : List Byte)
  /-- DZ_QUEUE_RESTART (R156): A message that restarts a halted queue in mode CONTINUE or REWIND. -/
  | dzQueueRestart (ch : Nat) (sq : W32) (ctx : W64) (p : List Byte)
  /-- DZ_QUEUE_QUERY (R159): A message that returns a queue's state and counters. -/
  | dzQueueQuery (ch : Nat) (sq : W32) (ctx : W64) (p : List Byte)
  /-- DZ_QUEUE_EXPECT (R159): A message that sets a queue binding's expectation. -/
  | dzQueueExpect (ch : Nat) (sq : W32) (ctx : W64) (p : List Byte)
  /-- DZ_CAT_WRITE (R163): A message that checks and stores a Catalog entry in one side. -/
  | dzCatWrite (ch : Nat) (sq : W32) (ctx : W64) (p : List Byte)
  /-- DZ_CAT_READ (R189): A message that returns a Catalog side. -/
  | dzCatRead (ch : Nat) (sq : W32) (ctx : W64) (p : List Byte)
  /-- DZ_CAT_CLEAR (R165): A message that empties a Catalog side. -/
  | dzCatClear (ch : Nat) (sq : W32) (ctx : W64) (p : List Byte)
  /-- DZ_CAT_QUERY (R189): A message that returns a table number's state. -/
  | dzCatQuery (ch : Nat) (sq : W32) (ctx : W64) (p : List Byte)
  /-- DZ_CAT_ZERO_CLEAR (R171): A message that clears CE_ZERO_HITS. -/
  | dzCatZeroClear (ch : Nat) (sq : W32) (ctx : W64) (p : List Byte)
  /-- DZ_HRD_REGION (R183): A message that sets a hot region or hot area. -/
  | dzHrdRegion (ch : Nat) (sq : W32) (ctx : W64) (p : List Byte)
  /-- DZ_HRD_READ (R189): A message that returns the entries of an HRD set. -/
  | dzHrdRead (ch : Nat) (sq : W32) (ctx : W64) (p : List Byte)
  /-- DZ_HRD_CLEAR (R189): A message that removes every entry of an HRD half and replies after the drain. -/
  | dzHrdClear (ch : Nat) (sq : W32) (ctx : W64) (p : List Byte)
  /-- DZ_EMB_COUNTERS (R189): A message that returns an EBE's lookup counters. -/
  | dzEmbCounters (ch : Nat) (sq : W32) (ctx : W64) (p : List Byte)
  /-- DZ_COMB_AREA (R191): A message that sets an EBE's combiner and spill areas. -/
  | dzCombArea (ch : Nat) (sq : W32) (ctx : W64) (p : List Byte)
  /-- DZ_COMB_QUERY (R223): A message that returns a combiner's state. -/
  | dzCombQuery (ch : Nat) (sq : W32) (ctx : W64) (p : List Byte)
  /-- DZ_PUB_AREA (R205): A message that sets a pair's PUB, journal and applied step. -/
  | dzPubArea (ch : Nat) (sq : W32) (ctx : W64) (p : List Byte)
  /-- DZ_PUB_MAP (R204): A message that sets the bucket-to-pair map. -/
  | dzPubMap (ch : Nat) (sq : W32) (ctx : W64) (p : List Byte)
  /-- DZ_PUB_QUERY (R223): A message that returns a pair's state. -/
  | dzPubQuery (ch : Nat) (sq : W32) (ctx : W64) (p : List Byte)
  /-- DZ_MXE_FREEZE (R237): A message that sets the freeze table. -/
  | dzMxeFreeze (ch : Nat) (sq : W32) (ctx : W64) (p : List Byte)
  /-- DZ_MXE_QUERY (R250): A message that returns an MXE's counters and the freeze table. -/
  | dzMxeQuery (ch : Nat) (sq : W32) (ctx : W64) (p : List Byte)
  /-- DZ_VXE_MODE (R265): A message that sets collated or uncollated mode for VXE instances. -/
  | dzVxeMode (ch : Nat) (sq : W32) (ctx : W64) (p : List Byte)
  /-- DZ_VXE_QUERY (R271): A message that returns a VXE's mode and counters. -/
  | dzVxeQuery (ch : Nat) (sq : W32) (ctx : W64) (p : List Byte)
  /-- DZ_PARAM_WRITE (R273): A message that checks and stores a parameter entry. -/
  | dzParamWrite (ch : Nat) (sq : W32) (ctx : W64) (x : RecordRequest)
  /-- DZ_PARAM_READ (R295): A message that returns a parameter entry and its slot state. -/
  | dzParamRead (ch : Nat) (sq : W32) (ctx : W64) (p : List Byte)
  /-- DZ_PARAM_CLEAR (R295): A message that empties a parameter number. -/
  | dzParamClear (ch : Nat) (sq : W32) (ctx : W64) (p : List Byte)
  /-- DZ_SCHED_WRITE (R288): A message that defines a learning-rate schedule. -/
  | dzSchedWrite (ch : Nat) (sq : W32) (ctx : W64) (p : List Byte)
  /-- DZ_SEED_SET (R290): A message that sets the model seed. -/
  | dzSeedSet (ch : Nat) (sq : W32) (ctx : W64) (p : List Byte)
  /-- DZ_VER_INIT (R274): A message that sets VER_COMMITTED and VER_LAST_STEP and resets every slot state. -/
  | dzVerInit (ch : Nat) (sq : W32) (ctx : W64) (p : List Byte)
  /-- DZ_VER_CONFIG (R295): A message that sets VER_STALE_MAX. -/
  | dzVerConfig (ch : Nat) (sq : W32) (ctx : W64) (p : List Byte)
  /-- DZ_VER_QUERY (R564): A message that returns the version record, state and counters. -/
  | dzVerQuery (ch : Nat) (sq : W32) (ctx : W64) (p : List Byte)
  /-- DZ_DJ_AREA (R283): A message that sets a UPE's dense journal. -/
  | dzDjArea (ch : Nat) (sq : W32) (ctx : W64) (p : List Byte)
  /-- DZ_GUARD_CONFIG (R322): A message that sets the guard's group and thresholds. -/
  | dzGuardConfig (ch : Nat) (sq : W32) (ctx : W64) (p : List Byte)
  /-- DZ_GUARD_QUERY (R322): A message that returns the guard's state. -/
  | dzGuardQuery (ch : Nat) (sq : W32) (ctx : W64) (p : List Byte)
  /-- DZ_GUARD_HOLD (R307): A message that sets or clears the hold on acting on verdicts. -/
  | dzGuardHold (ch : Nat) (sq : W32) (ctx : W64) (p : List Byte)
  /-- DZ_GUARD_ABANDON (R305): A message that ends the wait for a step's verdict as a skip. -/
  | dzGuardAbandon (ch : Nat) (sq : W32) (ctx : W64) (p : List Byte)
  /-- DZ_EXPORT_DESC (R317): A message that returns an export record. -/
  | dzExportDesc (ch : Nat) (sq : W32) (ctx : W64) (p : List Byte)
  /-- DZ_RR_ASSIGN (R310): A message that assigns engine instances to a virtual function. -/
  | dzRrAssign (ch : Nat) (sq : W32) (ctx : W64) (p : List Byte)
  /-- DZ_RR_WINDOW (R311): A message that sets a virtual function's window. -/
  | dzRrWindow (ch : Nat) (sq : W32) (ctx : W64) (p : List Byte)
  /-- DZ_RR_TABLES (R313): A message that sets a virtual function's table mask. -/
  | dzRrTables (ch : Nat) (sq : W32) (ctx : W64) (p : List Byte)
  /-- DZ_RR_TALLY (R312): A message that sets a virtual function's tally ranges. -/
  | dzRrTally (ch : Nat) (sq : W32) (ctx : W64) (p : List Byte)
  /-- DZ_RR_QUERY (R322): A message that returns a virtual function's Reading Room settings. -/
  | dzRrQuery (ch : Nat) (sq : W32) (ctx : W64) (p : List Byte)
  /-- DZ_MEM_ALLOC (R336): A message that allocates a memory object. -/
  | dzMemAlloc (ch : Nat) (sq : W32) (ctx : W64) (p : List Byte)
  /-- DZ_MEM_FREE (R339): A message that marks an object dead and later frees its pages. -/
  | dzMemFree (ch : Nat) (sq : W32) (ctx : W64) (p : List Byte)
  /-- DZ_MEM_QUERY (R354): A message that returns an object's settings. -/
  | dzMemQuery (ch : Nat) (sq : W32) (ctx : W64) (p : List Byte)
  /-- DZ_MEM_SLOTS (R354): A message that returns slot directory entries. -/
  | dzMemSlots (ch : Nat) (sq : W32) (ctx : W64) (p : List Byte)
  /-- DZ_MEM_FLUSH (R354): A message that writes back every dirty slot of an object. -/
  | dzMemFlush (ch : Nat) (sq : W32) (ctx : W64) (p : List Byte)
  /-- DZ_MEM_STATUS (R354): A message that returns a memory's population, reserve and swaps. -/
  | dzMemStatus (ch : Nat) (sq : W32) (ctx : W64) (p : List Byte)
  /-- DZ_MEM_RESV (R348): A message that sets a memory's reserve size. -/
  | dzMemResv (ch : Nat) (sq : W32) (ctx : W64) (p : List Byte)
  /-- DZ_MEM_LINE (R330): A message that returns a line's side-band. -/
  | dzMemLine (ch : Nat) (sq : W32) (ctx : W64) (p : List Byte)
  /-- DZ_XFE_QUERY (R354): A message that returns an XFE's counters. -/
  | dzXfeQuery (ch : Nat) (sq : W32) (ctx : W64) (p : List Byte)
  /-- DZ_RH_STATUS (R385): A message that returns the site code and port states. -/
  | dzRhStatus (ch : Nat) (sq : W32) (ctx : W64) (p : List Byte)
  /-- DZ_RH_PORT (R385): A message that returns one port's state and counters. -/
  | dzRhPort (ch : Nat) (sq : W32) (ctx : W64) (p : List Byte)
  /-- DZ_RH_RING (R385): A message that returns the view of one ring. -/
  | dzRhRing (ch : Nat) (sq : W32) (ctx : W64) (p : List Byte)
  /-- DZ_RH_PORT_CTL (R385): A message that takes a port out of service or returns it to Sighting. -/
  | dzRhPortCtl (ch : Nat) (sq : W32) (ctx : W64) (p : List Byte)
  /-- DZ_COLL_GROUP (R386): A message that defines or undefines a collective group. -/
  | dzCollGroup (ch : Nat) (sq : W32) (ctx : W64) (p : List Byte)
  /-- DZ_COLL_AREA (R390): A message that sets a channel area. -/
  | dzCollArea (ch : Nat) (sq : W32) (ctx : W64) (p : List Byte)
  /-- DZ_COLL_MODE (R388): A message that sets deterministic mode. -/
  | dzCollMode (ch : Nat) (sq : W32) (ctx : W64) (p : List Byte)
  /-- DZ_COLL_QUERY (R410): A message that returns a channel's state and counters. -/
  | dzCollQuery (ch : Nat) (sq : W32) (ctx : W64) (p : List Byte)
  /-- DZ_INT_STATUS (R439): A message that returns retirement and suspect state and counters. -/
  | dzIntStatus (ch : Nat) (sq : W32) (ctx : W64) (p : List Byte)
  /-- DZ_INT_CONFIG (R428): A message that sets test interval, clean-run count, capture and vector. -/
  | dzIntConfig (ch : Nat) (sq : W32) (ctx : W64) (p : List Byte)
  /-- DZ_INT_UNIT (R439): A message that returns one unit's fault state. -/
  | dzIntUnit (ch : Nat) (sq : W32) (ctx : W64) (p : List Byte)
  /-- DZ_LOG_DEST (R433): A message that sets the Logbook destination. -/
  | dzLogDest (ch : Nat) (sq : W32) (ctx : W64) (p : List Byte)
  /-- DZ_LOG_READ (R435): A message that reads records from the Logbook ring. -/
  | dzLogRead (ch : Nat) (sq : W32) (ctx : W64) (p : List Byte)
  /-- DZ_KAT_LOAD (R427): A message that verifies and loads the known-answer library. -/
  | dzKatLoad (ch : Nat) (sq : W32) (ctx : W64) (p : List Byte)
  /-- DZ_SPEC_AREA (R431): A message that sets the specimen area. -/
  | dzSpecArea (ch : Nat) (sq : W32) (ctx : W64) (p : List Byte)
  /-- DZ_INT_INJECT (R439): A message that injects a fault. -/
  | dzIntInject (ch : Nat) (sq : W32) (ctx : W64) (p : List Byte)
  /-- DZ_HOST_APERTURE (R446): A message that sets a BAR2 aperture. -/
  | dzHostAperture (ch : Nat) (sq : W32) (ctx : W64) (p : List Byte)
  /-- DZ_HOST_STATUS (R461): A message that returns link status, counters and apertures. -/
  | dzHostStatus (ch : Nat) (sq : W32) (ctx : W64) (p : List Byte)
  /-- DZ_FW_STAGE (R480): A message that stages and verifies a firmware image in the other slot. -/
  | dzFwStage (ch : Nat) (sq : W32) (ctx : W64) (p : List Byte)
  /-- DZ_FW_ACTIVATE (R482): A message that makes the STANDBY slot TRIAL, now or at the next reset. -/
  | dzFwActivate (ch : Nat) (sq : W32) (ctx : W64) (p : List Byte)
  /-- FW_ACTIVATE_RESET (R482): 2^20 control-core cycles after a mode-1 activation the firmware resets the
      module. -/
  | fwActivateReset
  /-- DZ_FW_CONFIRM (R483): A message that makes a running trial ACTIVE and advances the anti-rollback
      counter. -/
  | dzFwConfirm (ch : Nat) (sq : W32) (ctx : W64) (p : List Byte)
  /-- DZ_FW_QUERY (R485): A message that returns the slot states and counter. -/
  | dzFwQuery (ch : Nat) (sq : W32) (ctx : W64) (p : List Byte)
  /-- DZ_FW_REVERT (R482): A message that makes the STANDBY slot TRIAL to return to the previous image. -/
  | dzFwRevert (ch : Nat) (sq : W32) (ctx : W64) (p : List Byte)
  /-- DZ_FW_OPEN (R480): A message that erases the other slot for chunked writing. -/
  | dzFwOpen (ch : Nat) (sq : W32) (ctx : W64) (p : List Byte)
  /-- DZ_FW_CHUNK (R480): A message that writes one chunk of an image. -/
  | dzFwChunk (ch : Nat) (sq : W32) (ctx : W64) (p : List Byte)
  /-- DZ_DBG_WINDOW (R484): A message that sets the debug window base. -/
  | dzDbgWindow (ch : Nat) (sq : W32) (ctx : W64) (p : List Byte)
  /-- DZ_SX_FIX (R503): A message that returns the latest fix of a kind and source. -/
  | dzSxFix (ch : Nat) (sq : W32) (ctx : W64) (p : List Byte)
  /-- DZ_SX_SUMMARY (R503): A message that returns power, temperature and clock summary. -/
  | dzSxSummary (ch : Nat) (sq : W32) (ctx : W64) (p : List Byte)
  /-- DZ_SX_POWER_CAP (R500): A message that sets the power cap. -/
  | dzSxPowerCap (ch : Nat) (sq : W32) (ctx : W64) (p : List Byte)
  /-- DZ_SX_CLOCK_CAP (R499): A message that sets a clock cap for an island class. -/
  | dzSxClockCap (ch : Nat) (sq : W32) (ctx : W64) (p : List Byte)
  /-- DZ_SX_CAGE (R494): A message that switches a cage off or on. -/
  | dzSxCage (ch : Nat) (sq : W32) (ctx : W64) (p : List Byte)
  /-- DZ_ALMANAC_SET (R512): A message that supplies an Almanac stamp. -/
  | dzAlmanacSet (ch : Nat) (sq : W32) (ctx : W64) (p : List Byte)
  /-- DZ_LEDGER_READ (R521): A message that returns Ledger counters. -/
  | dzLedgerRead (ch : Nat) (sq : W32) (ctx : W64) (p : List Byte)
  /-- DZ_LEDGER_EVENTS (R521): A message that returns event-log entries. -/
  | dzLedgerEvents (ch : Nat) (sq : W32) (ctx : W64) (p : List Byte)
  /-- DZ_LEDGER_COMMIT (R516): A message that commits a counter frame to both copies. -/
  | dzLedgerCommit (ch : Nat) (sq : W32) (ctx : W64) (p : List Byte)
  /-- DZ_PC_OVF_CLEAR (R506): A message that clears every performance-counter overflow bit. -/
  | dzPcOvfClear (ch : Nat) (sq : W32) (ctx : W64) (p : List Byte)
  /-- DZ_SEC_MEAS (R543): A message that returns the measurement registers and counters. -/
  | dzSecMeas (ch : Nat) (sq : W32) (ctx : W64) (p : List Byte)
  /-- DZ_SEC_EXTEND (R529): A message that extends a measurement register 5 to 7. -/
  | dzSecExtend (ch : Nat) (sq : W32) (ctx : W64) (p : List Byte)
  /-- DZ_SEC_ATTEST (R532): A message that returns a signed attestation report. -/
  | dzSecAttest (ch : Nat) (sq : W32) (ctx : W64) (p : List Byte)
  /-- DZ_SEC_CERTS (R531): A message that returns the identity or alias certificate. -/
  | dzSecCerts (ch : Nat) (sq : W32) (ctx : W64) (p : List Byte)
  /-- DZ_SEC_CHALLENGE (R535): A message that draws a new unlock challenge. -/
  | dzSecChallenge (ch : Nat) (sq : W32) (ctx : W64) (p : List Byte)
  /-- DZ_SEC_UNLOCK (R536): A message that checks an unlock token and acts per its scope. -/
  | dzSecUnlock (ch : Nat) (sq : W32) (ctx : W64) (p : List Byte)
  /-- DZ_SEC_ZEROISE (R537): A message that zeroises every key. -/
  | dzSecZeroise (ch : Nat) (sq : W32) (ctx : W64) (p : List Byte)
  /-- DZ_SEC_MANIFEST (R525): A message that verifies and writes a new key manifest. -/
  | dzSecManifest (ch : Nat) (sq : W32) (ctx : W64) (p : List Byte)
  /-- DZ_SEC_SELFTEST (R539): A message that runs the security known-answer tests again. -/
  | dzSecSelftest (ch : Nat) (sq : W32) (ctx : W64) (p : List Byte)
  /-- RAIL_FIX (R490): Every 2^16 Sextant cycles a rail fix is taken and judged against its windows. -/
  | railFix (r uV mA : Nat)
  /-- SHUTDOWN_RAILS_OFF (R491): No later than 2^20 Sextant cycles after the detecting fix, every rail is
      switched off and latched. -/
  | shutdownRailsOff
  /-- TEMP_FIX (R493): Every 2^18 Sextant cycles a temperature fix is taken and judged against warn, throttle
      and trip. -/
  | tempFix (temps : List Int)
  /-- CAGE_FIX (R494): Every 2^16 Sextant cycles a cage fix is taken and the cage is switched off on
      overcurrent or short. -/
  | cageFix (c mA : Nat)
  /-- PLUG_PRESENT_CHANGE (R494): A cage's plug-present signal changes, and Sextant powers the cage and sets
      its limit. -/
  | plugPresentChange (c : Nat) (here : Bool) (classMw media : Nat)
  /-- PLUG_READY_CHECK (R494): After the 20 ms ready time a powered plug drawing under 10 mA is marked open.
      -/
  | plugReadyCheck (c mA : Nat)
  /-- CONTROL_LOOP_PERIOD (R499): Every 2^21 Sextant cycles the firmware moves each island one point toward
      its lowest target. -/
  | controlLoopPeriod
  /-- LEDGER_COMMIT_TIMER (R516): Every 2^36 control-core cycles the firmware commits the Ledger counters in a
      frame. -/
  | ledgerCommitTimer
  /-- LINK_DL_UP (R458): The host link completes training and reaches DL_Up, which stops the self-reset count,
      sets HOST_LINK_STATUS and takes the PCIE fix. -/
  | linkDlUp (rate width : Nat) (flit : Bool) (rootRate rootWidth : Nat) (rootFlit : Bool)
  /-- CODEWORD_CORRECTED (R362): A codeword arrives whose FEC corrected symbols; they are counted per lane and
      a lane that reaches 2^20 within 2^24 codewords is retired. -/
  | codewordCorrected (p n : Nat) (syms : List Nat)
  /-- MANAGEMENT_LINK_UP (R435): The 1000BASE-KX management link comes up, and the Logbook records held while
      it was down are sent. -/
  | managementLinkUp
  deriving DecidableEq, Repr
end Sys2Proof
end

