-- ==== Sys2Proof/Decode.lean ====
section
/-! DEFINITION. The command that a word of the opcode table spells. The block has no instruction decoder: no row of the
table gives a row any bits, since a command is an event (a register access, a packet, a message, a time-out), so that no
word spells one. The encodings that the manual does give (work queue commands, bundles, slots, packets, messages) are
read where they arrive, in Machine/Queue.lean, Code.lean, Fabric.lean and Mailbox.lean. -/
namespace Sys2Proof

/-- The command spelt by the word `w` of `nbits` bits: none, as no row has bits. -/
def decodeTableWord (_nbits _w : Nat) : Option Instr := none

end Sys2Proof
end

