-- ==== Sys2Proof/Config.lean ====
section
/-!
DEFINITION. What an implementation or a part fixes and the manual does not, and the free values of the model.
Every constant here is opaque: no proof can see its value, so a theorem that mentions one holds whatever it is.
The free values take the model's own counter `freeIdx` (a fresh value at each use) or the operands they depend on.
-/

namespace Sys2Proof

/-- FREE VALUE: cycles since the stamp in force or since reset release (R434, R492, Table 19-3, R512). The model has
no clock. -/
opaque Config.freeTime : Nat → W64

/-- FREE VALUE: powered cycles that an island adds to its Ledger counter by the next commit or read (R509). -/
opaque Config.freeCycles : Nat → Nat → W64

/-- FREE VALUE: the output of the random number generator (R535), and the random part of a signature (R522). -/
opaque Config.freeRandom : Nat → BitVec 256

/-- FREE VALUE: a byte that the manual calls undefined (R18), or that a side-band holds before its line is written
(R330). -/
opaque Config.freeByte : Nat → Byte

/-- FREE VALUE: a choice that the manual leaves open. -/
opaque Config.freeBool : Nat → Bool

/-- FREE VALUE: a count of cycles, such as the cycles a test used (R429) or a wait lasted (R158). -/
opaque Config.freeCount : Nat → W32

/-- FREE VALUE: the payload of a register or field whose contents the manual does not state. -/
opaque Config.freeWord : Nat → W64

/-- FREE VALUE: what a memory holds whose contents did not survive a reset (R329): its bytes by address. -/
opaque Config.freeCells : Nat → List (Nat × Byte)

/-- FREE VALUE: how many mismatches the duplicate lane finds in an operation whose row has no operand for them (R197). -/
opaque Config.freeMismatches : Nat → Nat

/-- The major release (high byte) and the minor release of a firmware build (Table 17-7). -/
opaque Config.fwRelease : Nat → H16

/-- The version entries that the MCTP endpoint reports for a message type (R474). -/
opaque Config.mctpVersions : Nat → List Byte

/-- The fused calibration curve (R498): the voltage in microvolts of a set rail at a clock in MHz. -/
opaque Config.railMicroVolts : Nat → Nat → Nat

/-- The rail whose power stage a regulator site 164 to 187 lies on (Table 18-5). -/
opaque Config.stageRail : Nat → Nat

/-- Whether Avpajan's certification list names a firmware build (R541). -/
opaque Config.certifiedBuild : Nat → Bool

/-- The number of test entries that a known-answer library version holds for a unit class; the library's internal
layout is not an interface (R427). -/
opaque Config.katTests : Nat → Nat → Nat

/-- The boot ROM build identity followed by the 64-byte record of the fuses other than the unique device secret, whose
layout the manual does not give (Table 20-3). -/
opaque Config.bootRecord : W64 → W64 → BitVec 256 → List Byte

/-- The fixed bits that a configuration read of a register of the standard returns where the manual does not say. -/
opaque Config.cfgRegister : Nat → Nat → W32

end Sys2Proof
end

