-- ==== Sys2Proof/Machine/SMap.lean ====
section
/-!
DEFINITION. Sparse maps: reading a key, writing a key, and the canonical form (keys strictly rising, no entry equal to
the default). Device memory and every large register array of the module are held in this form.
-/

namespace Sys2Proof

/-- The value at key `k`: that of the entry for `k`, or the default `d`. -/
def smGet {V : Type} (d : V) : SMap V → Nat → V
  | [], _ => d
  | (j, v) :: t, k => if j = k then v else smGet d t k

/-- The entries of `m` for keys other than `k`. -/
def smErase {V : Type} : SMap V → Nat → SMap V
  | [], _ => []
  | (j, v) :: t, k => if j = k then smErase t k else (j, v) :: smErase t k

/-- `m` with the entry `(k, v)` put before the first larger key. -/
def smInsert {V : Type} : SMap V → Nat → V → SMap V
  | [], k, v => [(k, v)]
  | (j, w) :: t, k, v => if k < j then (k, v) :: (j, w) :: t else (j, w) :: smInsert t k v

/-- `m` with `v` at key `k`; writing the default removes the entry. -/
def smSet {V : Type} [DecidableEq V] (d : V) (m : SMap V) (k : Nat) (v : V) : SMap V :=
  if v = d then smErase m k else smInsert (smErase m k) k v

/-- The canonical form above a lower bound: keys rise strictly from `lo` and no entry holds the default. -/
def smWfFrom {V : Type} [DecidableEq V] (d : V) : Nat → SMap V → Bool
  | _, [] => true
  | lo, (k, v) :: t => decide (lo ≤ k) && decide (v ≠ d) && smWfFrom d (k + 1) t

/-- The canonical form of a sparse map. -/
def smWf {V : Type} [DecidableEq V] (d : V) (m : SMap V) : Bool := smWfFrom d 0 m

/-- Modify the value at one key. -/
def smMod {V : Type} [DecidableEq V] (d : V) (m : SMap V) (k : Nat) (f : V → V) : SMap V :=
  smSet d m k (f (smGet d m k))

/-- Write a list of values at consecutive keys. -/
def smSetList {V : Type} [DecidableEq V] (d : V) : SMap V → Nat → List V → SMap V
  | m, _, [] => m
  | m, k, v :: vs => smSetList d (smSet d m k v) (k + 1) vs

/-- The canonical form of a memory of bytes, in which an unlisted address reads 0 (log entry 6). -/
def Machine.Memory.wf (m : SMap Byte) : Bool := smWf 0 m

end Sys2Proof
end

