-- ==== Sys2Proof/Machine/Bits.lean ====
section
/-!
DEFINITION. Bytes, fields and codes: little-endian records (R10, R11), CRC-32C (R77), the 16-bit check of a link tag
(R360), sign extension and the saturating counters that several chapters share.
-/

namespace Sys2Proof

/-- Bits `[lo + n - 1 : lo]` of a number (R11). -/
def bits (x lo n : Nat) : Nat := (x >>> lo) % 2 ^ n

/-- Bit `i` of a number. -/
def bit (x i : Nat) : Bool := x.testBit i

/-- `x` with bits `[lo + n - 1 : lo]` replaced by `v`. -/
def setBits (x lo n v : Nat) : Nat :=
  (x % 2 ^ lo) + ((v % 2 ^ n) <<< lo) + ((x >>> (lo + n)) <<< (lo + n))

/-- The number whose bit `i` is the `i`-th element of the list. -/
def ofBits : List Bool → Nat
  | [] => 0
  | b :: t => b.toNat + 2 * ofBits t

/-- The value of a little-endian list of bytes (R10). -/
def leNat : List Byte → Nat
  | [] => 0
  | b :: t => b.toNat + 256 * leNat t

/-- The little-endian bytes of a number, `n` of them (R10). -/
def natLe : Nat → Nat → List Byte
  | 0, _ => []
  | n + 1, x => BitVec.ofNat 8 x :: natLe n (x / 256)

/-- The big-endian value of a list of bytes, for the encodings that R522 excepts from R10. -/
def beNat (l : List Byte) : Nat := l.foldl (fun a b => a * 256 + b.toNat) 0

/-- The big-endian bytes of a number (R522). -/
def natBe (n x : Nat) : List Byte := (natLe n x).reverse

/-- The field of a record at bytes `off` to `off + n - 1`. -/
def fld (r : List Byte) (off n : Nat) : Nat := leNat ((r.drop off).take n)

/-- `n` zero bytes. -/
def zeros (n : Nat) : List Byte := List.replicate n 0

/-- Every byte at `off` to `off + n - 1` of the record is zero. -/
def zeroAt (r : List Byte) (off n : Nat) : Bool := ((r.drop off).take n).all (· == 0)

/-- `l` cut or filled with zero bytes to `n` bytes. -/
def padTo (n : Nat) (l : List Byte) : List Byte := l.take n ++ zeros (n - l.length)

/-- The signed value of an `n`-bit field. -/
def toSigned (n x : Nat) : Int := if x < 2 ^ (n - 1) then (x : Int) else (x : Int) - (2 ^ n : Nat)

/-- The `n`-bit two's-complement code of an integer. -/
def ofSigned (n : Nat) (x : Int) : Nat := (x % (2 ^ n : Nat)).toNat

/-- One bit step of the reflected CRC-32C register. -/
def crcStep (c : Nat) : Nat := if c % 2 = 1 then (c / 2) ^^^ 0x82F63B78 else c / 2

/-- Eight bit steps. -/
def crcByte (c : Nat) (b : Byte) : Nat :=
  crcStep (crcStep (crcStep (crcStep (crcStep (crcStep (crcStep (crcStep (c ^^^ b.toNat))))))))

/-- CRC-32C (R77): the reflected Castagnoli polynomial 0x1EDC6F41, initial value all ones, final complement. -/
def crc32c (l : List Byte) : Nat := (l.foldl crcByte 0xFFFFFFFF) ^^^ 0xFFFFFFFF

/-- A record with its CRC-32C appended, little-endian (R77). -/
def sealRec (l : List Byte) : List Byte := l ++ natLe 4 (crc32c l)

/-- The last four of `n` bytes hold the CRC-32C of those before them. -/
def sealOk (n : Nat) (l : List Byte) : Bool := fld l (n - 4) 4 == crc32c (l.take (n - 4))

/-- One bit step of the check of R360: polynomial 0x1021, most significant bit first. -/
def crc16Step (c : Nat) (b : Bool) : Nat :=
  let top := c.testBit 15 != b
  let s := (c * 2) % 65536
  if top then s ^^^ 0x1021 else s

/-- The 16-bit check of R360 over bits `[63:16]` of a link tag, from bit 63 down, initial value 0xFFFF. -/
def tagCheck (tag : Nat) : Nat :=
  (List.range 48).foldl (fun c i => crc16Step c (tag.testBit (63 - i))) 0xFFFF

/-- Saturating addition at `2^n - 1`. -/
def satAdd (n x y : Nat) : Nat := if x + y < 2 ^ n then x + y else 2 ^ n - 1

/-- `ceil (a / b)`. -/
def ceilDiv (a b : Nat) : Nat := (a + b - 1) / b

/-- Subtraction modulo `m`, for free-running indices. -/
def subMod (m a b : Nat) : Nat := (a % m + (m - b % m)) % m

/-- `n` is a multiple of `k`. -/
def isMul (n k : Nat) : Bool := n % k == 0

/-- Number of ones among the low `n` bits. -/
def popcount : Nat → Nat → Nat
  | 0, _ => 0
  | n + 1, x => (x % 2) + popcount n (x / 2)

/-- The positions of the ones among the low `n` bits, in increasing order. -/
def onesBelow (n x : Nat) : List Nat := (List.range n).filter (fun i => x.testBit i)

/-- Replace element `i` of a list. -/
def setAt {α : Type} (l : List α) (i : Nat) (a : α) : List α := l.set i a

/-- Element `i` of a list of numbers, 0 beyond its end. -/
def nth (l : List Nat) (i : Nat) : Nat := l.getD i 0

end Sys2Proof
end

