-- ==== Sys2Proof/Machine/Float.lean ====
section
/-!
DEFINITION. The arithmetic of chapter 2: the four floating-point formats (R42), exact values, the roundings of R50 to R52,
the stochastic hash of R53, overflow and subnormals (R55, R56), conversions to integers (R57), and the FP64 functions of
the learning-rate schedules (R289) and of the stress accounting (R510).
Values are exact until a rounding: a quotient or a root carries 128 further bits and a sticky bit, which decides every
rounding of this chapter as the exact value would.
-/

namespace Sys2Proof

/-- A floating-point format: exponent bits and fraction bits (Table 2-1). -/
structure Fmt where
  eb : Nat
  fb : Nat
  deriving DecidableEq, Repr

/-- FP64 (Table 2-1). -/
def fp64 : Fmt := ⟨11, 52⟩
/-- FP32 (Table 2-1). -/
def fp32 : Fmt := ⟨8, 23⟩
/-- BF16 (Table 2-1). -/
def bf16 : Fmt := ⟨8, 7⟩
/-- FP16 (Table 2-1). -/
def fp16 : Fmt := ⟨5, 10⟩

/-- An exact value: NaN, a signed infinity, or `(-1)^neg * m * 2^e`, with signed zeros. -/
inductive FVal where
  | nan
  | inf (neg : Bool)
  | fin (neg : Bool) (m : Nat) (e : Int)
  deriving DecidableEq, Repr

/-- The bias of a format. -/
def fmtBias (f : Fmt) : Nat := 2 ^ (f.eb - 1) - 1

/-- The exponent of the least significant subnormal bit of a format. -/
def fmtUlpMin (f : Fmt) : Int := 1 - (fmtBias f : Int) - (f.fb : Int)

/-- The canonical quiet NaN of a format (R43). -/
def fmtNaN (f : Fmt) : Nat := (2 ^ f.eb - 1) * 2 ^ f.fb + 2 ^ (f.fb - 1)

/-- The infinity of a sign. -/
def fmtInf (f : Fmt) (neg : Bool) : Nat := neg.toNat * 2 ^ (f.eb + f.fb) + (2 ^ f.eb - 1) * 2 ^ f.fb

/-- The largest finite value of a sign. -/
def fmtMax (f : Fmt) (neg : Bool) : Nat := fmtInf f neg - 1

/-- The zero of a sign. -/
def fmtZero (f : Fmt) (neg : Bool) : Nat := neg.toNat * 2 ^ (f.eb + f.fb)

/-- The value that the bits of a format stand for (R42). -/
def fDecode (f : Fmt) (b : Nat) : FVal :=
  let frac := b % 2 ^ f.fb
  let ex := (b / 2 ^ f.fb) % 2 ^ f.eb
  let neg := (b / 2 ^ (f.eb + f.fb)) % 2 == 1
  if ex = 2 ^ f.eb - 1 then (if frac = 0 then .inf neg else .nan)
  else if ex = 0 then .fin neg frac (fmtUlpMin f)
  else .fin neg (2 ^ f.fb + frac) ((ex : Int) - (fmtBias f : Int) - (f.fb : Int))

/-- The bits are a subnormal of the format. -/
def fIsSub (f : Fmt) (b : Nat) : Bool :=
  (b / 2 ^ f.fb) % 2 ^ f.eb == 0 && b % 2 ^ f.fb != 0

/-- The bits are finite. -/
def fIsFinite (f : Fmt) (b : Nat) : Bool := (b / 2 ^ f.fb) % 2 ^ f.eb != 2 ^ f.eb - 1

/-- The number of significant bits. -/
def bitLen (m : Nat) : Nat := if m = 0 then 0 else Nat.log2 m + 1

/-- The roundings: to nearest even (R50), to odd (R51), stochastic with the hash value `r` of a value of the sign `neg`
(R52: the neighbours are `lo < x < hi` by value, so for a negative value `hi` is the smaller magnitude). -/
inductive RMode where
  | even
  | odd
  | stoch (neg : Bool) (r : Nat)
  deriving DecidableEq, Repr

/-- Round `m / 2^sh` to an integer. -/
def roundShift (rm : RMode) (m sh : Nat) : Nat :=
  let q := m >>> sh
  let r := m % 2 ^ sh
  if r = 0 then q
  else match rm with
    | .even => if 2 * r > 2 ^ sh then q + 1 else if 2 * r = 2 ^ sh then q + q % 2 else q
    | .odd => if q % 2 = 1 then q else q + 1
    | .stoch false k => if k < (r * 2 ^ 32) >>> sh then q + 1 else q
    | .stoch true k => if k < ((2 ^ sh - r) * 2 ^ 32) >>> sh then q else q + 1

/-- A rounded magnitude `q * 2^u`, before overflow and subnormals are judged. -/
structure Rounded where
  q : Nat
  u : Int
  deriving DecidableEq, Repr

/-- Round `m * 2^e` to the precision of a format, subnormals kept, the exponent unbounded above. -/
def fRound (f : Fmt) (rm : RMode) (m : Nat) (e : Int) : Rounded :=
  let top := (bitLen m : Int) + e - 1
  let u := max (top - (f.fb : Int)) (fmtUlpMin f)
  if u ≤ e then ⟨m <<< (e - u).toNat, u⟩
  else
    let q := roundShift rm m (u - e).toNat
    if q = 2 ^ (f.fb + 1) then ⟨2 ^ f.fb, u + 1⟩ else ⟨q, u⟩

/-- The rounded magnitude exceeds the largest finite value. -/
def fOver (f : Fmt) (r : Rounded) : Bool :=
  decide (r.q ≥ 2 ^ f.fb) && decide (r.u + (f.fb : Int) > (fmtBias f : Int))

/-- The bits of a rounded magnitude that does not overflow. -/
def fPack (f : Fmt) (neg : Bool) (r : Rounded) : Nat :=
  fmtZero f neg +
    (if r.q < 2 ^ f.fb then r.q
     else ((r.u + (f.fb : Int) + (fmtBias f : Int)).toNat) * 2 ^ f.fb + (r.q - 2 ^ f.fb))

/-- The bits of an exact value in a format, rounded to nearest even, subnormals kept, overflow to infinity: the rule of
accumulators (R44) and of every internal step that names no NUM_MODE. -/
def fEnc (f : Fmt) (v : FVal) : Nat :=
  match v with
  | .nan => fmtNaN f
  | .inf neg => fmtInf f neg
  | .fin neg m e =>
    if m = 0 then fmtZero f neg
    else
      let r := fRound f .even m e
      if fOver f r then fmtInf f neg else fPack f neg r

/-- The sign of an exact value. -/
def fvNeg : FVal → Bool
  | .nan => false
  | .inf n => n
  | .fin n _ _ => n

/-- The value is a NaN. -/
def fvIsNaN : FVal → Bool
  | .nan => true
  | _ => false

/-- The value is finite. -/
def fvIsFin : FVal → Bool
  | .fin _ _ _ => true
  | _ => false

/-- The value is zero. -/
def fvIsZero : FVal → Bool
  | .fin _ m _ => m == 0
  | _ => false

/-- The negated value. -/
def fvNegate : FVal → FVal
  | .nan => .nan
  | .inf n => .inf (!n)
  | .fin n m e => .fin (!n) m e

/-- The magnitude. -/
def fvAbs : FVal → FVal
  | .nan => .nan
  | .inf _ => .inf false
  | .fin _ m e => .fin false m e

/-- The signed significand. -/
def sgn (neg : Bool) (m : Nat) : Int := if neg then -(m : Int) else (m : Int)

/-- Exact sum. A zero sum of unlike signs is +0. -/
def fvAdd (a b : FVal) : FVal :=
  match a, b with
  | .nan, _ => .nan
  | _, .nan => .nan
  | .inf s, .inf t => if s = t then .inf s else .nan
  | .inf s, _ => .inf s
  | _, .inf t => .inf t
  | .fin s m e, .fin t n g =>
    let lo := min e g
    let x := sgn s m * (2 ^ (e - lo).toNat : Nat) + sgn t n * (2 ^ (g - lo).toNat : Nat)
    if x = 0 then .fin (s && t) 0 lo else .fin (decide (x < 0)) x.natAbs lo

/-- Exact difference. -/
def fvSub (a b : FVal) : FVal := fvAdd a (fvNegate b)

/-- Exact product. -/
def fvMul (a b : FVal) : FVal :=
  match a, b with
  | .nan, _ => .nan
  | _, .nan => .nan
  | .inf s, .inf t => .inf (s != t)
  | .inf s, .fin t n _ => if n = 0 then .nan else .inf (s != t)
  | .fin s m _, .inf t => if m = 0 then .nan else .inf (s != t)
  | .fin s m e, .fin t n g => .fin (s != t) (m * n) (e + g)

/-- Exact fused multiply-add, before its one rounding. -/
def fvFma (a b c : FVal) : FVal := fvAdd (fvMul a b) c

/-- A quotient of naturals with 128 extra bits and a sticky bit. -/
def divSticky (m n : Nat) : Nat × Int :=
  let k := bitLen n + 130
  let x := m <<< k
  let q := x / n
  (2 * q + (if x % n = 0 then 0 else 1), -(k : Int) - 1)

/-- Quotient. A finite dividend over zero is an infinity. -/
def fvDiv (a b : FVal) : FVal :=
  match a, b with
  | .nan, _ => .nan
  | _, .nan => .nan
  | .inf _, .inf _ => .nan
  | .inf s, .fin t _ _ => .inf (s != t)
  | .fin s _ _, .inf t => .fin (s != t) 0 0
  | .fin s m e, .fin t n g =>
    if n = 0 then (if m = 0 then .nan else .inf (s != t))
    else if m = 0 then .fin (s != t) 0 0
    else let d := divSticky m n; .fin (s != t) d.1 (d.2 + e - g)

/-- One digit of the integer square root, from bit `i` down. -/
def sqrtGo (x : Nat) : Nat → Nat → Nat
  | 0, r => r
  | i + 1, r =>
    let c := r + 2 ^ i
    sqrtGo x i (if c * c ≤ x then c else r)

/-- The integer square root. -/
def isqrt (x : Nat) : Nat := sqrtGo x (bitLen x / 2 + 1) 0

/-- Square root: of a negative number a NaN, of a signed zero that zero. -/
def fvSqrt (a : FVal) : FVal :=
  match a with
  | .nan => .nan
  | .inf s => if s then .nan else .inf false
  | .fin s m e =>
    if m = 0 then .fin s 0 0
    else if s then .nan
    else
      let odd := e % 2 = 1
      let m' := if odd then 2 * m else m
      let e' := if odd then e - 1 else e
      let x := m' <<< 280
      let r := isqrt x
      .fin false (2 * r + (if r * r = x then 0 else 1)) (e' / 2 - 141)

/-- The order of two numbers that are not NaN: `a < b`, with -0 equal to +0. -/
def fvLt (a b : FVal) : Bool :=
  match a, b with
  | .nan, _ => false
  | _, .nan => false
  | .inf s, .inf t => s && !t
  | .inf s, .fin _ _ _ => s
  | .fin _ _ _, .inf t => !t
  | .fin s m e, .fin t n g =>
    let lo := min e g
    decide (sgn s m * (2 ^ (e - lo).toNat : Nat) < sgn t n * (2 ^ (g - lo).toNat : Nat))

/-- Numerically equal and not NaN. -/
def fvEq (a b : FVal) : Bool :=
  !fvIsNaN a && !fvIsNaN b && !fvLt a b && !fvLt b a

/-- The exact value of an integer. -/
def fvInt (x : Int) : FVal := .fin (decide (x < 0)) x.natAbs 0

/-- Round an exact finite magnitude to an integer. -/
def roundInt (rm : RMode) (m : Nat) (e : Int) : Nat :=
  if 0 ≤ e then m <<< e.toNat else roundShift rm m (-e).toNat

/-- The greatest integer not above a finite value. -/
def floorInt (neg : Bool) (m : Nat) (e : Int) : Int :=
  if 0 ≤ e then sgn neg (m <<< e.toNat) else sgn neg m / (2 ^ (-e).toNat : Nat)

/-! ### FP32 operations on bits, rounded to nearest even with subnormals kept -/

/-- FP32 addition. -/
def addF (a b : Nat) : Nat := fEnc fp32 (fvAdd (fDecode fp32 a) (fDecode fp32 b))
/-- FP32 subtraction. -/
def subF (a b : Nat) : Nat := fEnc fp32 (fvSub (fDecode fp32 a) (fDecode fp32 b))
/-- FP32 multiplication. -/
def mulF (a b : Nat) : Nat := fEnc fp32 (fvMul (fDecode fp32 a) (fDecode fp32 b))
/-- FP32 division. -/
def divF (a b : Nat) : Nat := fEnc fp32 (fvDiv (fDecode fp32 a) (fDecode fp32 b))
/-- FP32 fused multiply-add. -/
def fmaF (a b c : Nat) : Nat := fEnc fp32 (fvFma (fDecode fp32 a) (fDecode fp32 b) (fDecode fp32 c))
/-- FP32 square root. -/
def sqrtF (a : Nat) : Nat := fEnc fp32 (fvSqrt (fDecode fp32 a))
/-- FP32 sign change. -/
def negF (a : Nat) : Nat := fEnc fp32 (fvNegate (fDecode fp32 a))
/-- An integer in FP32, rounded to nearest even. -/
def ofIntF (x : Int) : Nat := fEnc fp32 (fvInt x)
/-- FP32 is finite. -/
def finF (a : Nat) : Bool := fIsFinite fp32 a
/-- FP32 ordered less-than. -/
def ltF (a b : Nat) : Bool := fvLt (fDecode fp32 a) (fDecode fp32 b)
/-- FP32 ordered equality. -/
def eqF (a b : Nat) : Bool := fvEq (fDecode fp32 a) (fDecode fp32 b)
/-- The FP32 bits of 1.0. -/
def oneF : Nat := 0x3F800000
/-- Widen BF16 to FP32 exactly. -/
def bf16to32 (b : Nat) : Nat := fEnc fp32 (fDecode bf16 b)
/-- Widen FP16 to FP32 exactly. -/
def fp16to32 (b : Nat) : Nat := fEnc fp32 (fDecode fp16 b)

/-- The larger of two FP32 values under R258: +0.0 above -0.0, a NaN gives the canonical NaN. -/
def maxF (a b : Nat) : Nat :=
  let x := fDecode fp32 a
  let y := fDecode fp32 b
  if fvIsNaN x || fvIsNaN y then fmtNaN fp32
  else if fvLt x y then b else if fvLt y x then a
  else if fvNeg x then b else a

/-- The smaller of two FP32 values under R258. -/
def minF (a b : Nat) : Nat :=
  let x := fDecode fp32 a
  let y := fDecode fp32 b
  if fvIsNaN x || fvIsNaN y then fmtNaN fp32
  else if fvLt x y then a else if fvLt y x then b
  else if fvNeg x then a else b

/-- `acc_add` of R195 on a pair (s, c) of FP32 values. -/
def accAdd (a : Nat × Nat) (x : Nat) : Nat × Nat :=
  let t := addF a.1 x
  if !finF t then (t, 0)
  else
    let z := subF t a.1
    let e := addF (subF a.1 (subF t z)) (subF x z)
    (t, addF a.2 e)

/-- `acc_merge` of R195. -/
def accMerge (a b : Nat × Nat) : Nat × Nat :=
  let r := accAdd a b.1
  (r.1, addF r.2 b.2)

/-! ### The stochastic rounding hash (R53) -/

/-- A 32-bit word rotated left. -/
def rotl32 (x k : Nat) : Nat := ((x <<< k) % 2 ^ 32) ||| (x >>> (32 - k))

/-- `sr_mix` of R53. -/
def srMix (h w : Nat) : Nat :=
  let w := (w * 0x9B1D4E27) % 2 ^ 32
  let w := rotl32 w 15
  let h := rotl32 (h ^^^ w) 13
  (h * 5 + 0x52D4A1F3) % 2 ^ 32

/-- `sr_hash` of R53. -/
def srHash (seed ident row column step : Nat) : Nat :=
  let lo := fun x => x % 2 ^ 32
  let h := lo seed ^^^ 0x3C6EF372
  let h := srMix h (lo ident)
  let h := srMix h (lo row)
  let h := srMix h (((row >>> 32) % 256) ||| lo (column <<< 8))
  let h := srMix h (lo step)
  let h := srMix h (lo (step >>> 32))
  let h := srMix h (lo (seed >>> 32))
  let h := ((h ^^^ (h >>> 15)) * 0x6A3F1C95) % 2 ^ 32
  let h := ((h ^^^ (h >>> 13)) * 0xB5D27E43) % 2 ^ 32
  h ^^^ (h >>> 16)

/-! ### FP64 functions: cospi (R289) and powers of two (R510), correctly rounded -/

/-- pi times 2^256, rounded down. -/
def piFix : Nat := 363771576891766324280234942777729862653393377328392429958772151117938894466185
/-- The natural logarithm of 2 times 2^256, rounded down. -/
def ln2Fix : Nat := 80260960185991308862233904206310070533990667611589946606122867505419956976171

/-- The alternating Taylor sum of cosine or sine at `t / 2^256`: terms from index `k` on, `fuel` of them. -/
def trigGo (t2 : Nat) : Nat → Nat → Nat → Int → Int
  | 0, _, _, acc => acc
  | fuel + 1, k, term, acc =>
    let next := ((term * t2) >>> 256) / ((k + 1) * (k + 2))
    trigGo t2 fuel (k + 2) next (-acc + (term : Int))

/-- cos of `t / 2^256`, scaled by 2^256 (60 terms). -/
def cosFix (t : Nat) : Int := -(trigGo ((t * t) >>> 256) 60 0 (2 ^ 256) 0)

/-- sin of `t / 2^256`, scaled by 2^256 (60 terms). -/
def sinFix (t : Nat) : Int := -(trigGo ((t * t) >>> 256) 60 1 t 0)

/-- `cos (pi x)` of R289 for an FP64 value `x` from 0 to 1, as FP64 bits, rounded to nearest even. -/
def cospi64 (x : Nat) : Nat :=
  match fDecode fp64 x with
  | .fin _ m e =>
    if m = 0 then fEnc fp64 (fvInt 1)
    else
      let num := if 0 ≤ e then m <<< e.toNat else m
      let den := if 0 ≤ e then 1 else 2 ^ (-e).toNat
      if num = den then fEnc fp64 (fvInt (-1))
      else if 2 * num = den then fmtZero fp64 false
      else
        let neg := decide (2 * num > den)
        let y := if neg then den - num else num
        let c := if 4 * y ≤ den then cosFix ((piFix * y) / den)
                 else sinFix ((piFix * (den - 2 * y)) / (2 * den))
        fEnc fp64 (.fin neg (2 * c.natAbs + 1) (-257))
  | _ => fmtNaN fp64

/-- The Taylor sum of the exponential at `t / 2^256`. -/
def expGo (t : Nat) : Nat → Nat → Nat → Nat → Nat
  | 0, _, _, acc => acc
  | fuel + 1, k, term, acc => expGo t fuel (k + 1) (((term * t) >>> 256) / (k + 1)) (acc + term)

/-- `2^x` for an FP64 value `x`, as FP64 bits, rounded to nearest even. -/
def exp2F64 (x : Nat) : Nat :=
  match fDecode fp64 x with
  | .fin neg m e =>
    let fl := floorInt neg m e
    let num := if 0 ≤ e then m <<< e.toNat else m
    let den := if 0 ≤ e then 1 else 2 ^ (-e).toNat
    let frac := (sgn neg num - fl * (den : Int)).toNat
    if frac = 0 then fEnc fp64 (.fin false 1 fl)
    else
      let t := (ln2Fix * frac) / den
      fEnc fp64 (.fin false (2 * expGo t.toNat 70 0 (2 ^ 256) 0 + 1) (fl - 257))
  | .inf neg => if neg then fmtZero fp64 false else fmtInf fp64 false
  | .nan => fmtNaN fp64

/-- FP64 addition. -/
def addD (a b : Nat) : Nat := fEnc fp64 (fvAdd (fDecode fp64 a) (fDecode fp64 b))
/-- FP64 subtraction. -/
def subD (a b : Nat) : Nat := fEnc fp64 (fvSub (fDecode fp64 a) (fDecode fp64 b))
/-- FP64 multiplication. -/
def mulD (a b : Nat) : Nat := fEnc fp64 (fvMul (fDecode fp64 a) (fDecode fp64 b))
/-- FP64 division. -/
def divD (a b : Nat) : Nat := fEnc fp64 (fvDiv (fDecode fp64 a) (fDecode fp64 b))
/-- FP64 square root. -/
def sqrtD (a : Nat) : Nat := fEnc fp64 (fvSqrt (fDecode fp64 a))
/-- An integer in FP64, rounded to nearest even. -/
def ofIntD (x : Int) : Nat := fEnc fp64 (fvInt x)
/-- Widen FP32 to FP64 exactly. -/
def f32to64 (a : Nat) : Nat := fEnc fp64 (fDecode fp32 a)
/-- Narrow FP64 to FP32, rounded to nearest even. -/
def f64to32 (a : Nat) : Nat := fEnc fp32 (fDecode fp64 a)

end Sys2Proof
end

