-- ==== Sys2Proof/Machine/State.lean ====
section
/-!
DEFINITION. The state of the module as plain data, chapter by chapter, with its defaults and its value after reset.
Arrays are sparse maps from a number to a value, in the canonical form of Machine/SMap.lean.
-/

namespace Sys2Proof.Machine

/-- Sixteen zero bytes. -/
def zeros16 : List Byte := List.replicate 16 0

/-! ### Counters and time (chapters 17 to 19) -/

/-- A 48-bit performance counter with its sticky overflow bit (R505). -/
structure Pc where
  val : BitVec 48
  ovf : Bool
  deriving DecidableEq, Repr

/-! ### Fuses (R4, R7, R442, R523, R533, R550) -/

/-- The one-time programmable arrays: presence fuses, identity fuses, the four security items and the three
anti-rollback counters. A command only ever programs further entries of it (see `Burn`). -/
structure Otp where
  capEngines : W64
  capUnits : W64
  vendorId : H16
  stepping : Byte
  mac : BitVec 48
  rootHash : BitVec 256
  revoked : Byte
  uds : BitVec 256
  kill : Bool
  /-- Programmed entries of anti-rollback counters 0, 1 and 2, oldest first. -/
  arb0 : List H16
  arb1 : List H16
  arb2 : List H16
  deriving DecidableEq, Repr

/-- A programming operation on the fuses that a command requests (R533, R536). -/
inductive Burn where
  | kill
  | arb (counter : Nat) (value : H16)
  deriving DecidableEq, Repr

/-! ### Power, pins and start-up (chapters 18 and 21) -/

/-- Where the module stands between input power and host-ready (R488, R554 to R556, R528, R538). -/
inductive Phase where
  | off
  | inReset
  | bootFailed
  | recovery
  | firmware
  | hostReady
  deriving DecidableEq, Repr

/-- Pins and start-up state. -/
structure Power where
  /-- The 54 V input is present (R488). -/
  vin : Bool
  /-- The regulators are latched off after a shutdown (R491). -/
  latched : Bool
  /-- PWR_GOOD is asserted (R548). -/
  pwrGood : Bool
  /-- MOD_RST_N has been recognised low (R555). -/
  modRst : Bool
  /-- PERST_N is asserted (R558). -/
  perst : Bool
  phase : Phase
  /-- A shutdown has begun and the rails are still on (R491). -/
  shutdownPending : Bool
  /-- First strap sample, taken at reset release (R552). -/
  strap1 : BitVec 41
  /-- The site code that the module uses (R552). -/
  siteCode : BitVec 40
  siteInvalid : Bool
  /-- Sighting has been started since reset release (R557). -/
  sighted : Bool
  /-- A mode-1 activation has been answered and its reset is to come (R482). -/
  fwResetPending : Bool
  /-- Populated Shelf packages, their sizes in 16 GiB units, package 0 first (R495). -/
  shelfPkgs : List Nat
  /-- Trained HBM stacks, stack 0 first (R496). -/
  hbmStacks : List Bool
  /-- This start follows input power-on, not a reset alone (Table 19-2). -/
  fromPower : Bool
  /-- The usable pseudo-channels of each die, and the Shelf packages, of the run before a module reset (R329). -/
  lastChans : List (List Nat)
  deriving DecidableEq, Repr

/-- A fix record (R492); the sequence number counts the fixes of its kind and source. -/
structure FixRec where
  flags : Nat
  stamp : Nat
  since : W64
  fseq : W64
  body : List Byte
  deriving DecidableEq, Repr

/-- What Sextant keeps of one rail (R490). -/
structure RailSt where
  lastWarnV : Bool
  lastFaultV : Bool
  lastWarnI : Bool
  lastFaultI : Bool
  /-- A warn excursion is in progress and has been reported. -/
  warned : Bool
  /-- The rail had a current event in the present control period (R490). -/
  curEvent : Bool
  /-- Some current fix of the present control period was not below 0.9 times the limit. -/
  curHigh : Bool
  deriving DecidableEq, Repr

/-- What Sextant keeps of one temperature site (R493). -/
structure SiteSt where
  lastWarn : Bool
  lastThrottle : Bool
  lastTrip : Bool
  warn : Bool
  throttle : Bool
  trip : Bool
  /-- The site was at throttle in the present control period (R499). -/
  throttled : Bool
  milliC : Int
  deriving DecidableEq, Repr

/-- What Sextant keeps of one cage (R494): state 0 off, 1 on, 2 tripped, 3 open. -/
structure CageSt where
  state : Nat
  plug : Bool
  media : Nat
  limitMa : Nat
  lastOver : Bool
  /-- Switched off by a message or a trip: it stays off until DZ_SX_CAGE or a reset. -/
  heldOff : Bool
  deriving DecidableEq, Repr

/-- One group of islands that move together: MXE, VXE and the EBE class of each die, and the hub core (R497, R499).
Clocks and targets in MHz. -/
structure IslandGroup where
  clock : Nat
  hostCap : Nat
  thermal : Nat
  current : Nat
  power : Nat
  deriving DecidableEq, Repr

/-- Sextant (chapter 18). Groups: MXE C0, MXE C1, VXE C0, VXE C1, EBE class C0, EBE class C1, hub. -/
structure Sextant where
  rails : SMap RailSt
  sites : SMap SiteSt
  cages : SMap CageSt
  /-- Latest fix of a kind and source, keyed kind * 256 + source. -/
  fixes : SMap (Option FixRec)
  groups : List IslandGroup
  /-- Power cap P in W (R500). -/
  capW : Nat
  /-- Input power of the last fixes of rail 0, newest first, in mW. -/
  power : List Nat
  /-- Highest voltage of each rail since the last temperature fix, in microvolts (R510). -/
  vmax : SMap Nat
  popFault : Bool
  deriving DecidableEq, Repr

/-! ### Logbook, Ledger and calendar (chapters 15 and 19) -/

/-- A Logbook record (Table 15-8), before its repeat flag is set. -/
structure LogRec where
  ltype : Nat
  flags : Nat
  island : Nat
  unitKind : Nat
  unit : Nat
  status : Nat
  lseq : W64
  stamp : Nat
  since : W64
  detail : Nat
  body : List Byte
  deriving DecidableEq, Repr

/-- The destination of the Logbook (R433). -/
structure LogDest where
  enable : Bool
  hopLimit : Byte
  port : H16
  src : List Byte
  dst : List Byte
  deriving DecidableEq, Repr

/-- The Logbook (R433 to R435). It survives every module reset. -/
structure Logbook where
  /-- Records detected and not yet sent, oldest first. -/
  queued : List LogRec
  /-- The ring, oldest first, at most 2,048 records. -/
  ring : List LogRec
  nextSeq : W64
  /-- Records that wait for the management link; a repeat carries flag bit 3. -/
  held : List LogRec
  /-- Records to be sent again. -/
  repeats : List LogRec
  dest : LogDest
  linkUp : Bool
  deriving DecidableEq, Repr

/-- An event-log entry (Table 19-3). -/
structure EvEntry where
  kind : Nat
  sub : Nat
  unit : Nat
  eseq : Nat
  stamp : Nat
  power : Nat
  since : W64
  value : Nat
  deriving DecidableEq, Repr

/-- A counter frame (Table 19-6): its commit number, the 170 counters and the reported bits. -/
structure LgFrame where
  commit : Nat
  counts : SMap W64
  thr : List Nat
  maxed : List Nat
  deriving DecidableEq, Repr

/-- One Ledger copy in flash: its frame ring, newest first, and its event entries in order. -/
structure LgCopy where
  frames : List LgFrame
  events : List EvEntry
  deriving DecidableEq, Repr

/-- The Ledger as the firmware keeps it in control-core memory (R516). -/
structure Ledger where
  /-- The firmware has taken the Ledger from the flash in this run (R517, R556). -/
  loaded : Bool
  counts : SMap W64
  thr : List Nat
  maxed : List Nat
  commit : Nat
  /-- Copies A and B still stand in this run (R518). -/
  aUp : Bool
  bUp : Bool
  /-- 0, or 1 once ST_LG_FULL has been logged for the kept space, 2 once for a full area (R519). -/
  fullLogged : Nat
  /-- Index and value of the stamp in force; index 0 for none (R512). -/
  stamp : Nat
  stampValue : W64
  /-- The stamp entry has been written to the event log. -/
  stampWritten : Bool
  deriving DecidableEq, Repr

/-! ### Flash (R479, R514, R515, R525) -/

/-- A firmware slot: state in the order of Table 17-8 from 0 (EMPTY, WRITING, STANDBY, TRIAL, ACTIVE, REJECTED). -/
structure FwSlot where
  state : Nat
  trial : Nat
  svn : Nat
  build : Nat
  len : Nat
  image : List Byte
  deriving DecidableEq, Repr

/-- The SPI NOR flash, the only state that survives loss of the input. The `bad` fields are the part's physical
condition: an erase, program or read-back of that region fails through its retries (R518). -/
structure Flash where
  /-- The discovery tables show a flash that meets R514. -/
  fits : Bool
  slot0 : FwSlot
  slot1 : FwSlot
  manifest0 : List Byte
  manifest1 : List Byte
  /-- The identity certificate, loaded at manufacture (R531). -/
  identCert : List Byte
  katLib : List Byte
  logDest : LogDest
  copyA : LgCopy
  copyB : LgCopy
  badFw : Bool
  badKat : Bool
  badSec : Bool
  badA : Bool
  badB : Bool
  deriving DecidableEq, Repr

/-- Firmware update state outside the flash (R480, R483). -/
structure Firmware where
  /-- Slot of the running image. -/
  running : Nat
  /-- Channel that is staging: 0 to 15 a mailbox, 16 MCTP, 255 none. -/
  staging : Nat
  /-- A trial was rejected at this start, to be reported by the confirmed firmware. -/
  rejected : Bool
  dbgBase : W64
  deriving DecidableEq, Repr

/-! ### Security processor (chapter 20) -/

/-- The security processor. Keys are numbers below the order of the curve; none after a zeroisation. -/
structure Security where
  /-- SEC_MEAS_0 to SEC_MEAS_7 (R529). -/
  meas : List (BitVec 256)
  /-- Manifest copy in use, 0 or 1, or none. -/
  manifest : Option Nat
  udsCopy : Option (BitVec 256)
  identKey : Option Nat
  aliasKey : Option Nat
  /-- Identity public key as 64 bytes, empty when never derived. -/
  identPub : List Byte
  aliasCert : List Byte
  aliasSig : List Byte
  challenge : Option (List Byte)
  /-- The debug lock is engaged (R534). -/
  locked : Bool
  debugTaken : Bool
  serviceTaken : Bool
  error : Bool
  /-- A counter was exhausted when an operation would have advanced it (R533). -/
  arbFull : Bool
  deriving DecidableEq, Repr

/-! ### Integrity (chapter 15) -/

/-- Fault state of an engine or Collator (R424): state 0 NORMAL, 1 SUSPECT, 2 RETIRED. -/
structure UnitSt where
  state : Nat
  events : Nat
  ops : Nat
  clean : Nat
  lastKat : W64
  due : Bool
  deriving DecidableEq, Repr

/-- A held specimen (R431). -/
structure Specimen where
  number : Nat
  bytes : List Byte
  /-- Index of the next fragment to send. -/
  next : Nat
  deriving DecidableEq, Repr

/-- A fault that DZ_INT_INJECT has set and that has not yet struck (R439). -/
structure Inject where
  kind : Nat
  unit : Nat
  index : Nat
  deriving DecidableEq, Repr

/-- Integrity state of the hub (R427 to R439). Units are keyed DE_CLASS * 32 + instance, Collators 224 + die. -/
structure Integrity where
  units : SMap UnitSt
  /-- Retired pages' event windows: read-retry and uncorrectable events, and corrected events, keyed by page. -/
  pageEvents : SMap Nat
  pageFixes : SMap Nat
  libVersion : Nat
  k : Nat
  n : Nat
  capture : Bool
  vector : H16
  specBase : Nat
  specSize : Nat
  specimen : Option Specimen
  specCount : Nat
  /-- Specimens that did not fit or came while another was held (R431). -/
  specMissed : Nat
  injects : List Inject
  /-- A double fault bars every later commit until a module reset (R413). -/
  noCommit : Bool
  deriving DecidableEq, Repr

/-! ### Host interface (chapter 16) -/

/-- A BAR2 aperture (R446). -/
structure Aperture where
  en : Bool
  base : Nat
  deriving DecidableEq, Repr

/-- An MSI-X table entry (R449). -/
structure Msix where
  addr : W64
  data : W32
  masked : Bool
  pend : Bool
  deriving DecidableEq, Repr

/-- The host link as the module sees it. Per-function maps are keyed by the function, 0 the physical function. -/
structure HostIf where
  dlUp : Bool
  /-- The link has reached DL_Up since the last reset release (R458). -/
  everUp : Bool
  /-- The self-reset count of R458 runs. -/
  counting : Bool
  training : Bool
  rate : Nat
  width : Nat
  flit : Bool
  refused : List Nat
  /-- Functions whose Memory Space Enable is set; the virtual functions' VF MSE (R560). -/
  mse : List Nat
  /-- Functions in D3hot (R457). -/
  d3hot : List Nat
  numVfs : Nat
  vfEnable : Bool
  /-- Apertures, keyed function * 16 + aperture. -/
  apertures : SMap Aperture
  /-- MSI-X entries, keyed function * 2048 + vector. -/
  msix : SMap Msix
  msixEnable : List Nat
  msixFnMask : List Nat
  deriving DecidableEq, Repr

/-- What the module has put on the host link, oldest first (R449, R454, R448, R458). -/
inductive HostOut where
  | memWrite (fn addr : Nat) (data : List Byte)
  | memRead (fn addr len : Nat)
  | msix (fn vector : Nat) (addr : W64) (data : W32)
  | readDone (fn : Nat) (data : List Byte)
  | cfgDone (fn : Nat) (data : Nat)
  | cfgRetry (fn : Nat)
  | unsupported (fn : Nat)
  deriving DecidableEq, Repr

/-- What the module has put on the management port (R433). -/
inductive MgmtOut where
  | datagram (dst : List Byte) (port : Nat) (src : List Byte) (hop : Nat) (rec : LogRec)
  | echoReply (dst src : List Byte) (ident sqn : Nat) (data : List Byte)
  | advert (dst target : List Byte) (mac : BitVec 48)
  | solicit (target : List Byte)
  deriving DecidableEq, Repr

/-- Everything that has left the module by the host link, the management port and SMBus. -/
structure Outputs where
  host : List HostOut
  mgmt : List MgmtOut
  smbus : List (List Byte)
  deriving DecidableEq, Repr

/-! ### Mailboxes (chapter 17) -/

/-- The last executed request of a channel and its reply (R470). -/
structure Kept where
  opcode : Nat
  len : Nat
  key : Nat
  status : Nat
  reply : List Byte
  deriving DecidableEq, Repr

/-- The event that a deferred reply waits for (R471). -/
inductive Defer where
  | queueHalt (queue : Nat)
  | memFlush (object : Nat)
  | guardHold
  | rrWindow (commands : List (Nat × Nat))
  deriving DecidableEq, Repr

/-- A request in service whose reply waits for an event. -/
structure Busy where
  opcode : Nat
  seq : W32
  ctx : W64
  len : Nat
  key : Nat
  wait : Defer
  payload : List Byte
  deriving DecidableEq, Repr

/-- A mailbox, or the MCTP channel (R463, R470, R485). Phase: 0 IDLE, 1 BUSY, 2 DONE, 3 OFFLINE. -/
structure Mailbox where
  phase : Nat
  vector : H16
  lastSeq : W32
  lastStatus : H16
  overrun : Bool
  seqFree : Bool
  buffer : List Byte
  /-- Sequence number of the last executed request. -/
  execSeq : W32
  kept : Option Kept
  busy : Option Busy
  /-- Bytes written to the buffer while BUSY, by offset, newest first (R465). -/
  late : List (Nat × Byte)
  deriving DecidableEq, Repr
/-! ### What a stream keeps in its engine's registers (chapters 6 to 9) -/

/-- An SCC summary slot, and a summary register (R121, R264). -/
structure Summ where
  count : Nat
  maxv : Nat
  any : Bool
  deriving DecidableEq, Repr

/-- An MXE accumulator (R224). Types as in Table 3-3: 0 FP32, 3 FP64, 4 INT32. The planes are keyed row * 64 + column;
`rows` and `cols` are M and N of the last M_MMA with MM_CLR = 1, and `sat` the positions that have saturated since. -/
structure Acc where
  valid : Bool
  typ : Nat
  plane : SMap Nat
  outl : SMap Nat
  sat : List Nat
  esc : Bool
  rows : Nat
  cols : Nat
  deriving DecidableEq, Repr

/-- One check of a tile (R418): P, U and V, exact, and whether it is left out because a value saturated (R419). -/
structure TileChk where
  p : FVal
  u : FVal
  v : FVal
  skip : Bool
  deriving DecidableEq, Repr

/-- A collation tile that the Collator has not accepted (R245, R420): its slot with the access patterns of A and B, its
extents, the shadow, the result without a fault, the checks of the accumulator's plane and of its outlier plane, the
specimen's operands and prior contents, an injected fault, and once the first check has disagreed its rows and columns and
the MXE that serves the third computation (R421). -/
structure TileSt where
  word : Nat
  apA : List Byte
  apB : List Byte
  m : Nat
  n : Nat
  k : Nat
  before : Acc
  after : Acc
  rowChk : List TileChk
  colChk : List TileChk
  outRow : List TileChk
  outCol : List TileChk
  spec : List Byte
  injected : Bool
  rerun : Bool
  rows : List Nat
  cols : List Nat
  server : Option Nat
  deriving DecidableEq, Repr

/-- A gradient statistics accumulator (R72, R240): counts of finite nonzero elements keyed exponent + 2048. -/
structure GradStat where
  used : Bool
  exps : SMap Nat
  sumsq : Nat
  nElem : Nat
  nZero : Nat
  nNonfin : Nat
  nUnder : Nat
  deriving DecidableEq, Repr

/-- A VXE tile register (Table 9-1): type 0 FP32, 4 INT32; elements keyed row * 64 + column. -/
structure TileReg where
  full : Bool
  typ : Nat
  nr : Nat
  nc : Nat
  el : SMap Nat
  deriving DecidableEq, Repr

/-- An E_LOOKUP execution whose rows have not all arrived (R177). A position is its bag, its number and its class: 0 pad,
1 a row of zeros, row + 2 a row to read. `need` lists the reads that have not come back; `parts` holds what has come of a
remote read, by its tag, with byte offsets; `got` the rows, their side entries behind them. -/
structure Look where
  word : Nat
  entry : List Byte
  pos : List (Nat × Nat × Nat)
  need : List Nat
  tags : List (Nat × Nat)
  parts : SMap (List (Nat × List Byte))
  got : SMap (List Byte)
  deriving DecidableEq, Repr

/-! ### Tallies, code objects and streams (chapter 4) -/

/-- A tally (R108). -/
structure TallyV where
  val : W32
  sat : Bool
  deriving DecidableEq, Repr

/-- A live generation of a handle, with the header fields that a stream needs (R100, R115). -/
structure Gen where
  gen : Nat
  base : Nat
  build : Nat
  pins : Nat
  cls : Nat
  bodyLen : Nat
  crcOff : Nat
  /-- Body offsets of the entries, in table order. -/
  entries : List Nat
  apOff : Nat
  aps : Nat
  choiceOff : Nat
  choices : Nat
  needFp64 : Bool
  deriving DecidableEq, Repr

/-- A handle (R115, R127): owner 0 to 7 a function, 8 none; current generation, 0 for none. -/
structure Handle where
  owner : Nat
  current : Nat
  last : Nat
  gens : List Gen
  deriving DecidableEq, Repr

/-- One block held in an instruction cache (R118). -/
structure IcBlock where
  handle : Nat
  gen : Nat
  blk : Nat
  bytes : List Byte
  deriving DecidableEq, Repr

/-- A prefetch fill in flight (R118): the engine that started it, and the block and the cache that it is for. -/
structure Prefetch where
  engine : Nat
  cache : Nat
  handle : Nat
  gen : Nat
  blk : Nat
  deriving DecidableEq, Repr

/-- A break unit (R124). -/
structure BreakUnit where
  mode : Nat
  action : Nat
  queue : Nat
  tag : Nat
  mask : Nat
  count : Nat
  armed : Bool
  deriving DecidableEq, Repr

/-- A slot of the bundle in progress: kind 1 sync, 2 load A, 3 load B, 4 compute A, 5 compute B, 6 store, 7 scalar. -/
structure Slot where
  kind : Nat
  w : Nat
  deriving DecidableEq, Repr

/-- A signal that waits for its signal point (R110): once `armed`, it fires when none of the accesses in `tags` is
outstanding. -/
structure SigReq where
  tally : Nat
  inc : Nat
  onRead : Bool
  armed : Bool
  tags : List Nat
  deriving DecidableEq, Repr

/-- An open loop level (R113): the body offset of its first bundle, its count and its counter. -/
structure LoopFr where
  level : Nat
  body : Nat
  count : Nat
  cur : Nat
  deriving DecidableEq, Repr

/-- A wait of a bundle, and its verdict so far (R108, R109): 0 pending, 1 met, 2 its tally saturated. -/
structure WaitReq where
  binding : Nat
  cond : Nat
  value : Nat
  res : Nat
  deriving DecidableEq, Repr

/-- A remote access of an engine that has no answer yet (R367): `tag` names the request. -/
structure Remote where
  tag : Nat
  isRead : Bool
  addr : Nat
  len : Nat
  deriving DecidableEq, Repr

/-- A stream (R119). `queue` and `seq` name the command that started it. -/
structure Stream where
  queue : Nat
  seq : Nat
  fn : Nat
  handle : Nat
  gen : Nat
  /-- Body offset of the next bundle. -/
  pos : Nat
  waitLimit : Nat
  tallies : List Nat
  exps : List Nat
  /-- Global address of each bound descriptor, 0 for unbound, and the 128 bytes read at start. -/
  tdAddr : List Nat
  tds : List (List Byte)
  params : SMap Nat
  loops : List LoopFr
  /-- Levels opened with a count of 0, through whose bodies the engine only fetches (R113). -/
  skip : Nat
  /-- The bundle in progress: its head word, the waits still to meet, the slots still to issue. -/
  head : Option Nat
  waits : List WaitReq
  slots : List Slot
  /-- A loop opened by the bundle in progress begins at the next bundle. -/
  opened : Option LoopFr
  sigs : List SigReq
  /-- Code block whose demand fill the stream waits for. -/
  missing : Option Nat
  /-- Body offset of the next bundle chosen by S_CHOOSE (R122). -/
  chosen : Option Nat
  ending : Bool
  /-- Final status, when the stream has faulted or ended. -/
  final : Option Nat
  detail : Nat
  /-- NUM_FLAGS raised by the stream (R49). -/
  numFlags : Nat
  /-- Bindings whose write checks have been made (Table 4-12, order 9). -/
  checked : List Nat
  /-- Remote accesses in flight, and remote bytes that have returned (the byte plus one, by global address). -/
  remote : List Remote
  rbuf : SMap Nat
  /-- Bind slots that the stream's lookups have named (R168). -/
  bindSlots : List Nat
  /-- Freeze table snapshot of an MXE stream (R237). -/
  freeze : BitVec 256
  uncollated : Bool
  /-- MXE registers: accumulators, limit registers, the tile under check, statistics (R224, R235, R245, R240). -/
  accs : SMap Acc
  lims : SMap Nat
  tile : Option TileSt
  gstats : SMap GradStat
  /-- VXE registers: tiles, scalars, function tables (R251). -/
  tregs : SMap TileReg
  sregs : SMap Nat
  ftabs : SMap (List Nat)
  /-- Summary registers of a VXE or EBE, none while EMPTY (R251, R179). -/
  yregs : SMap (Option Summ)
  /-- The lookup in progress on an EBE. -/
  look : Option Look
  deriving DecidableEq, Repr

/-! ### Command queues (chapter 5) -/

/-- A fetched and parsed command. `status` is that of the parse checks. -/
structure Cmd where
  op : Nat
  ctl : Nat
  tag : Nat
  cseq : W32
  wait : Nat
  sig : Nat
  body : List Byte
  count : W64
  status : Nat
  detail : Nat
  /-- Break unit that halts the queue before or after this command (R124). -/
  brkBefore : Option Nat
  brkAfter : Option Nat
  /-- Every break unit that fired on the command. -/
  fired : List Nat
  deriving DecidableEq, Repr

/-- A dispatched command that is not done (R150). `engine` is DE_CLASS * 32 + instance, 0 for the hub. -/
structure Running where
  cmd : Cmd
  engine : Nat
  started : Bool
  final : Option Nat
  detail : Nat
  numFlags : Nat
  /-- The record has been written, at the point that CH_CCLASS gives (R152). -/
  recorded : Bool
  /-- The command wrote host memory, and the flushing read has returned (R454). -/
  hostWrote : Bool
  flushed : Bool
  /-- Writes of the command not yet acknowledged. -/
  unacked : Nat
  /-- Requests of the command to other modules, by tag. -/
  remote : List Remote
  rbuf : SMap Nat
  /-- Progress of a command that takes several events: what it holds is its opcode's matter. -/
  work : List Nat
  deriving DecidableEq, Repr

/-- Bytes of the own module that a command has written through a descriptor (R86): `pad` when TD_PAD_STORE = 1 there; `ended`
once the command is done, `others` the commands of other queues that ran beside it and still run. -/
structure Wrote where
  queue : Nat
  seq : Nat
  pad : Bool
  addr : Nat
  len : Nat
  ended : Bool
  others : List (Nat × Nat)
  deriving DecidableEq, Repr

/-- A command queue (R128, R132, R144, R153 to R156). -/
structure Queue where
  owner : Nat
  prio : Nat
  cqDev : Bool
  k : Nat
  j : Nat
  vector : H16
  ringBase : W64
  cqBase : W64
  limit : W32
  binds : List Nat
  exps : List Nat
  run : Nat
  haltSeq : W32
  haltStatus : Nat
  haltUnit : Nat
  haltCause : Nat
  cqFull : Bool
  cons : BitVec 24
  nextSeq : W32
  count : W64
  parsePt : BitVec 24
  parseSeq : W32
  /-- The doorbell held: producer index and sequence number (R144). -/
  bell : Option (BitVec 24 × W32)
  refetch : Nat
  backoff : Bool
  parsed : List Cmd
  running : List Running
  /-- Completion queue index and the consumer index that the host has returned (R153). -/
  cqIdx : BitVec 24
  cqCons : BitVec 24
  reserved : Nat
  /-- Break units that have already matched the command of this sequence number (R124). -/
  matched : List (Nat × W32)
  /-- Verdict so far on the wait of the next command: 0 pending, 1 met, 2 its tally saturated (R109, R132). -/
  waitRes : Nat
  deriving DecidableEq, Repr

/-! ### Memory tiers (chapter 12) -/

/-- Side-band of a line that has been written (R330). -/
structure SideBand where
  owner : Nat
  ver : Nat
  tier : Nat
  dirty : Bool
  deriving DecidableEq, Repr

/-- A region-table entry (R331): memory 2 HBM C0, 3 HBM C1, 4 Shelf. -/
structure Region where
  mem : Nat
  base : Nat
  size : Nat
  obj : Nat
  tier : Nat
  deriving DecidableEq, Repr

/-- A memory object (R334, R335, R340). -/
structure MemObj where
  flags : Nat
  slots : Nat
  size : Nat
  base : Nat
  cacheBase : Nat
  dead : Bool
  /-- DC_PLAN commands, by queue and sequence number, that hold a dead object's pages (R339). -/
  holders : List (Nat × Nat)
  /-- Slot directory: home page + 1, 0 for EMPTY. -/
  dir : SMap Nat
  /-- Dirty map: slots whose bit is set. -/
  dirty : SMap Bool
  /-- An uncorrectable directory or dirty map (R413). -/
  lost : Bool
  /-- DZ_MEM_FLUSH: flushing reads that are outstanding, the status of a write-back that failed, and the slots with their
  lines that are clean once every write-back is complete (R341). -/
  flushing : Nat
  flushSt : Nat
  flushSlots : List (Nat × List Nat)
  /-- Lines of the home, from its base, that have been written while a slot held their page (R342). -/
  clash : SMap Bool
  deriving DecidableEq, Repr

/-- Reserve, remap and retirement of one memory (R348 to R351). Pages are numbered from the memory's base. -/
structure MemPool where
  resv : Nat
  reserve : List Nat
  swaps : List (Nat × Nat)
  withdrawn : List Nat
  retired : List Nat
  marked : List Nat
  excluded : List Nat
  /-- ST_MEM_NOSPARE has been logged for the pages listed. -/
  nospare : List Nat
  deriving DecidableEq, Repr

/-- A plan that runs on an XFE (R343, R346). -/
structure Plan where
  queue : Nat
  seq : Nat
  list : Nat
  count : Nat
  tallies : List Nat
  exps : List Nat
  result : Nat
  next : Nat
  filled : Nat
  wb : Nat
  /-- 0 no entry in progress, 1 its write-backs or reads are outstanding, 2 what follows them is, 3 it waits for its tally. -/
  phase : Nat
  /-- The entry in progress, as read. -/
  entry : List Byte
  /-- Its accesses to other modules and to host memory that have no answer yet. -/
  remote : List Remote
  hostWait : List Remote
  /-- Its flushing reads of host memory that have not returned (R341). -/
  flush : Nat
  /-- Home bytes that have arrived, by offset in the object. -/
  rbuf : SMap Nat
  /-- Verdict so far on the wait in progress: 0 pending, 1 met, 2 its tally saturated (R109, R345). -/
  waitRes : Nat
  /-- Slots that are clean once their write-backs are complete: object, slot and lines (R341). -/
  cleans : List (Nat × Nat × List Nat)
  /-- FILL from another module or the host: the slots still to fill, each with its page. -/
  todo : List (Nat × Nat)
  /-- The slots that the plan has acted on: object, first slot and count (R346). -/
  touched : List (Nat × Nat × Nat)
  deriving DecidableEq, Repr

/-! ### Reading Room (chapter 11) -/

/-- A window of a virtual function (R311). -/
structure RrWindow where
  base : Nat
  size : Nat
  flags : Nat
  deriving DecidableEq, Repr
/-! ### Rhumb (chapter 13) -/

/-- A packet: the header fields of Table 13-6 and its payload. Directions are 0 plus, 1 minus. -/
structure Pkt where
  kind : Nat
  len : Nat
  maybe : Bool
  fixed : Bool
  vc : Nat
  hops : Nat
  rvalid : Bool
  runit : Nat
  rexp : Nat
  rdir : Bool
  rdim : Nat
  dst : Nat
  src : Nat
  tag : Nat
  /-- PH_BODY, bytes 16 to 27. -/
  body : List Byte
  payload : List Byte
  deriving DecidableEq, Repr

/-- A packet in a replay buffer: its link sequence number and how often it has been replayed (R361, R362). -/
structure Sent where
  lseq : Nat
  pkt : Pkt
  replays : Nat
  deriving DecidableEq, Repr

/-- A packet in an output queue: as it will leave, and as it stood before this hop, with the port it came in by
(20 for a packet of the module's own). -/
structure OutPkt where
  pkt : Pkt
  before : Pkt
  inPort : Nat
  deriving DecidableEq, Repr

/-- What a port has sent on its leg, oldest first: a packet after its link tag, or an idle or replay-request tag. -/
inductive PortOut where
  | packet (tag : Nat) (hdr payload : List Byte)
  | tag (tag : Nat)
  deriving DecidableEq, Repr

/-- A port (R355 to R364, R374). State in the order of Table 13-8 from 0. -/
structure Port where
  state : Nat
  reason : Nat
  /-- Lanes active and lanes retired, bit l for lane l. -/
  lanes : Nat
  retiredLanes : Nat
  lenCm : Nat
  media : Nat
  retrains : Nat
  /-- The partner's signal is present (R376), and the lanes have trained and SIGHT has been sent. -/
  signal : Bool
  trained : Bool
  /-- The partner's SIGHT bytes 0 to 59; empty for none. -/
  partner : List Byte
  /-- Sequence number of the next packet sent, and of the last accepted. -/
  txSeq : Nat
  rxSeq : Nat
  /-- Everything is discarded until the next replay (R361). -/
  discard : Bool
  replay : List Sent
  outq : List OutPkt
  cred0 : Nat
  cred1 : Nat
  /-- Credits to be returned in the next tag. -/
  owed0 : Nat
  owed1 : Nat
  tx : List PortOut
  /-- Codewords received, and the events of Table 13-5 inside their windows: positions of uncorrectable codewords,
  of corrected symbols by lane, and of retrains. -/
  cw : Nat
  badAt : List Nat
  fixAt : List (Nat × Nat × Nat)
  retrainAt : List Nat
  deriving DecidableEq, Repr

/-- The view of one ring (R380): unit and express legs 0 unknown, 1 up, 2 down, with their sequences. -/
structure Ring where
  unit : List Nat
  expr : List Nat
  unitSeq : List Nat
  exprSeq : List Nat
  deriving DecidableEq, Repr

/-- Who keeps a request until its response arrives (R367). -/
inductive Issuer where
  | stream (engine : Nat)
  | plan (xfe : Nat)
  | cmd (queue seq : Nat)
  | chan (channel : Nat)
  | flush (object : Nat)
  deriving DecidableEq, Repr

/-- An outstanding request: `off` is where its bytes belong for the issuer; `waiting` while it waits to be sent again. -/
structure Req where
  pkt : Pkt
  issuer : Issuer
  off : Nat
  resends : Nat
  waiting : Bool
  deriving DecidableEq, Repr

/-- The two pairs (ack-to, PH_TAG) of a fragment merged in transit (R405). -/
structure Relay where
  to1 : Nat
  tag1 : Nat
  to2 : Nat
  tag2 : Nat
  deriving DecidableEq, Repr

/-- The fabric side of the module. -/
structure Fabric where
  ports : SMap Port
  rings : List Ring
  /-- RHUMB_READY has been reached (R374). -/
  ready : Bool
  nextTag : Nat
  reqs : SMap (Option Req)
  /-- Packets delivered to the module, with their port, not yet acted on. -/
  inbox : List (Nat × Pkt)
  /-- Relay table, keyed by the tag of the merged fragment. -/
  relay : SMap (Option Relay)
  /-- Deterministic mode (R388). -/
  det : Bool
  deriving DecidableEq, Repr

/-! ### Embedding tables and row updates (chapters 6 and 7) -/

/-- One table number (Table 6-2): sides of 128 bytes, empty for EMPTY; active side 0 A, 1 B, 2 none; the armed step and
generation. -/
structure CatTable where
  a : List Byte
  b : List Byte
  active : Nat
  armed : Option (Nat × Nat)
  zeroHits : Nat
  zeroSat : Bool
  deriving DecidableEq, Repr

/-- A bind slot (R167): its step, and for each table the recorded side and generation. -/
structure BindSlot where
  bound : Bool
  step : Nat
  sides : SMap (Option (Nat × Nat))
  deriving DecidableEq, Repr

/-- A row read at its owner (R180, R213): `engine` is the EBE of the own module that asks, for the stream of command `cmd`,
else the request came with `tag` from `src`; `held` once it waits at a gate. -/
structure RowReq where
  engine : Option Nat
  cmd : Nat × Nat
  src : Nat
  tag : Nat
  table : Nat
  row : Nat
  gen : Nat
  step : Nat
  pf : Bool
  held : Bool
  deriving DecidableEq, Repr

/-- A merged-row record (Table 7-2); its columns are the pairs (s, c). -/
structure MRow where
  table : Nat
  row : Nat
  count : Nat
  gen : Nat
  flags : Nat
  step : Nat
  cols : List (Nat × Nat)
  deriving DecidableEq, Repr

/-- The combiner of an EBE (R191): state 0 EMPTY, 1 OPEN, 2 POISONED; records in order of insertion. -/
structure Combiner where
  state : Nat
  step : Nat
  spilled : Bool
  keys : List MRow
  spills : List MRow
  areaBase : Nat
  areaSize : Nat
  spillBase : Nat
  spillSize : Nat
  deriving DecidableEq, Repr

/-- A PUB entry (R205): the records kept for its key, with the coordinate each came from and the first columns that it has;
outside deterministic mode one record. `offs` the places of the records, as byte offsets in the PUB; `read` when the partial
norm has read the entry (R297). -/
structure PubEntry where
  parts : List (Nat × List Nat × MRow)
  offs : List Nat
  read : Bool
  deriving DecidableEq, Repr

/-- An update pair (R205, R215): its PUB, its journal and PUB_APPLIED; `rowsDone` the places that the rows of the step being
applied have been written to, with their former bytes; `dropped` the records that the pair has dropped, as source, key of the
record and the first columns of the fragments seen (R206). -/
structure Pair where
  pubBase : Nat
  pubSize : Nat
  jBase : Nat
  jSize : Nat
  je : Nat
  applied : Nat
  applying : Bool
  entries : List PubEntry
  rowsDone : List (Nat × List Byte)
  dropped : List (Nat × (Nat × Nat × Nat × Nat) × List Nat)
  deriving DecidableEq, Repr

/-! ### Dense parameters and versions (chapter 10) -/

/-- A slot that is not EMPTY (R275): L, T, RC and XRC. -/
structure VSlot where
  low : Nat
  top : Nat
  readers : Nat
  exact : Nat
  deriving DecidableEq, Repr

/-- A parameter (R272): its entry, the template descriptor that the firmware read, its slots, and for the step being applied
its target slot (0 A, 1 B), its source slot, what has been done of it, and the places written with their former bytes. -/
structure Param where
  entry : List Byte
  td : List Byte
  a : Option VSlot
  b : Option VSlot
  target : Option Nat
  src : Nat
  inPlace : Bool
  stats : Bool
  tiles : Nat
  undo : List (Nat × List Byte)
  deriving DecidableEq, Repr

/-- A versioned read that waits at its owner (R277): of the own module's channel, or a request from another module. -/
structure ShardReq where
  chan : Option Nat
  src : Nat
  tag : Nat
  param : Nat
  version : Nat
  off : Nat
  len : Nat
  vf : Bool
  deriving DecidableEq, Repr

/-- The verdict that the module acts on (R210, R281): kind 0 APPLY, 1 CLIP, 2 SKIP; `lost` when an apply has been abandoned
beyond recovery (R219, R287). -/
structure Act where
  step : Nat
  kind : Nat
  clip : Nat
  lost : Bool
  deriving DecidableEq, Repr

/-! ### Step guard (chapter 11) -/

/-- The guard's configuration with its copy of the group (R322). -/
structure GuardCfg where
  group : Nat
  base : Nat
  ext : Nat
  root : Nat
  clip : Nat
  skip : Nat
  alert : Nat
  limit : Nat
  deriving DecidableEq, Repr

/-- The norm reduction of one step at this node (R403): contributions in order of arrival, by member index. -/
structure NormNode where
  step : Nat
  got : List (Nat × List Byte)
  deriving DecidableEq, Repr

/-- The step guard of the module (R303 to R307, R321). Verdicts newest first; `submitted` the last step submitted, `normRead`
the last step whose items the partial norm has read (R297). -/
structure Guard where
  cfg : Option GuardCfg
  submitted : Nat
  normRead : Nat
  verdicts : List (List Byte)
  computed : List (List Byte)
  abandoned : List Nat
  hold : Bool
  skipRun : Nat
  late : Bool
  norms : List NormNode
  /-- Records dropped, by step (R206). -/
  drops : SMap Nat
  deriving DecidableEq, Repr

/-! ### Collectives (chapter 14) -/

/-- A group (R386): base coordinate, extents minus one in fields of four bits, root member. -/
structure Group where
  base : Nat
  ext : Nat
  root : Nat
  deriving DecidableEq, Repr

/-- A chunk in the reduction table (R397): the values that it holds, with the member each came from. -/
structure RsEntry where
  chunk : Nat
  got : List (Nat × List Nat)
  deriving DecidableEq, Repr

/-- An open channel (R390): its command, its group as it stands, its descriptors, and the state of its operation. -/
structure Chan where
  queue : Nat
  seq : Nat
  fn : Nat
  opseq : Nat
  group : Group
  body : List Byte
  dst : List Byte
  src : List Byte
  table : List RsEntry
  /-- Closed map (R398). -/
  closed : SMap Bool
  /-- Requests without an answer. -/
  sent : List Nat
  /-- Local shares of an all-gather, or local blocks, still to come: (offset in bytes, bytes). -/
  left : List (Nat × Nat)
  /-- ALLTOALL: rows that have come from each member, and the counts they gave, plus one; BARRIER: tokens. -/
  rows : SMap Nat
  counts : SMap Nat
  tokens : List Nat
  own : Nat
  reduced : Nat
  written : Nat
  dup : Nat
  resent : Nat
  nonfin : Nat
  /-- AGATHER: what stood, in the order of the writes, where the operation has written on the own module: (local address,
  bytes), R400. -/
  undo : List (Nat × List Byte)
  deriving DecidableEq, Repr

/-! ### The whole module -/

/-- Everything the manual gives the module but its fuses. Maps hold only entries that differ from the default named in
`Sys2Proof.Machine` by the definition of the same stem (`tally0` for tallies, `mailbox0` for mailboxes, and so on). -/
structure Dev where
  /-- Device memory by local address (R29); an unlisted byte reads as 0. -/
  mem : SMap Byte
  /-- Side-band by line number; none for a line not written since power-on. -/
  side : SMap (Option SideBand)
  pow : Power
  sx : Sextant
  log : Logbook
  lg : Ledger
  flash : Flash
  fw : Firmware
  sec : Security
  int : Integrity
  host : HostIf
  out : Outputs
  /-- Mailboxes 0 to 15 and the MCTP channel 16. -/
  mbox : SMap Mailbox
  /-- MCTP endpoint ID (R474). -/
  eid : Byte
  /-- Every 48-bit performance counter, keyed by the numbers of Machine/Ops.lean. -/
  pcs : SMap Pc
  /-- NUM_FLAGS of each engine, keyed DE_CLASS * 32 + instance (R48). -/
  numFlags : SMap W32
  tallies : SMap TallyV
  handles : SMap Handle
  /-- Instruction caches, keyed engine * 16 + set, most recently used block first; SCC n is engine 224 + n. -/
  icache : SMap (List IcBlock)
  /-- Prefetch fills in flight, oldest first (R118). -/
  prefetches : List Prefetch
  /-- SCC summary slots, keyed SCC * 32 + slot. -/
  sccSlots : SMap Summ
  breaks : SMap BreakUnit
  streams : SMap (Option Stream)
  queues : SMap (Option Queue)
  /-- What commands have written, as long as a command that runs beside the writer can overlap it (R86). -/
  wrote : List Wrote
  /-- The queue last served at each priority (R151). -/
  served : SMap Nat
  objs : SMap (Option MemObj)
  regions : List Region
  pools : SMap MemPool
  plans : SMap (Option Plan)
  /-- VER_COMMITTED, VER_LAST_STEP and VER_LAST_KIND (R274): kind 0 none, 1 commit, 2 skip. -/
  verCommitted : W64
  verLastStep : W64
  verLastKind : Nat
  /-- The function that each engine instance and SCC (class 7) is assigned to, 0 the physical function (R310). -/
  rrAssign : SMap Nat
  /-- Reading Room windows, keyed function * 16 + window: base, size, flags (R311). -/
  rrWindows : SMap RrWindow
  /-- Table masks of the virtual functions: the tables whose bit is set, keyed function * 4096 + table (R313). -/
  rrTables : SMap Bool
  /-- Tally ranges of the virtual functions, keyed function * 3 + domain: first index and count (R312). -/
  rrTallies : SMap (Nat × Nat)
  /-- How many streams and commands use a bind slot, keyed as `binds` (R168). -/
  bindsInUse : SMap Nat
  fab : Fabric
  /-- The model seed (R290). -/
  seed : W64
  /-- Scale registers, keyed engine * 4096 + number (Table 2-4). -/
  scales : SMap Nat
  /-- The freeze table (R237). -/
  freeze : BitVec 256
  /-- VXE instances in uncollated mode (R265). -/
  uncollated : List Nat
  /-- The Catalog (R160) and CAT_LAST_STEP (R164). -/
  tables : SMap CatTable
  catLastStep : Nat
  /-- Bind slots, keyed function * 16 + slot (R167). -/
  binds : SMap BindSlot
  /-- HRD entries, keyed set * 8 + way (R181), and regions, base and size, keyed die * 2 + tier (R183). -/
  hrd : SMap Nat
  hrdRegions : SMap (Nat × Nat)
  /-- EBE_RANGE_POS by instance (R188). -/
  rangePos : SMap Nat
  rowReqs : List RowReq
  /-- Combiners by EBE instance (R191). -/
  combs : SMap Combiner
  /-- EBE and UPE of each update pair (R203), and PUB_MAP (R204), empty while they stand as reset makes them. -/
  pairUnits : List (Nat × Nat)
  pubMap : List Nat
  pairs : SMap Pair
  params : SMap (Option Param)
  /-- Schedules, as their segments; empty for undefined (R288). -/
  scheds : SMap (List Byte)
  staleMax : Nat
  shardReqs : List ShardReq
  /-- Dense journals by UPE: base, entries, DJE (R283). -/
  djAreas : SMap (Nat × Nat × Nat)
  act : Option Act
  guard : Guard
  groups : SMap (Option Group)
  /-- Channel areas, base and size (R390). -/
  collAreas : SMap (Nat × Nat)
  chans : SMap (Option Chan)
  /-- The model's own counter of free values: it belongs to no register of the manual. -/
  freeIdx : Nat
  /-- The model's own: the reads that fail (R412) of the records that the message in progress reads; 0 between commands. -/
  readFails : Nat
  /-- Programming operations on the fuses that the command in progress has asked for; empty between commands. -/
  burns : List Burn
  deriving DecidableEq, Repr

/-- What a mailbox message's own chapter answers: a status and reply payload, or a reply that waits for an event. -/
structure DzRes where
  dev : Dev
  status : Nat
  payload : List Byte
  wait : Option Defer
  deriving DecidableEq, Repr

/-- Reasons for which the model stops with a fault: none, since every event of the manual leaves the part in a state
the manual describes. The one constructor is raised by no command; a step that answered it would be unsafe to read as
an effect of the part. -/
inductive Fault where
  | none
  deriving DecidableEq, Repr

/-- Reasons for which the model refuses a command. -/
inductive Refusal where
  /-- The command has no meaning yet. Raised by Machine/Dispatch.lean only; safe. -/
  | notModelled (mnemonic : String)
  /-- An access of the released debug window to the memory-mapped control range, whose contents no section of the
  manual gives (R445, Table 1-7). Raised by DEBUG_WINDOW_ACCESS; safe. -/
  | controlRange
  deriving DecidableEq, Repr

/-- The machine: the module, its fuses, and the queue of the commands that wait, first in first out. -/
structure State where
  dev : Dev
  otp : Otp
  pending : List Instr
  deriving DecidableEq, Repr

/-! ### Defaults and the state after reset -/

/-- A performance counter after reset (R505). -/
def pc0 : Pc := ⟨0, false⟩
/-- A rail before its first event. -/
def rail0 : RailSt := ⟨false, false, false, false, false, false, false⟩
/-- A site before its first fix. -/
def site0 : SiteSt := ⟨false, false, false, false, false, false, false, 0⟩
/-- A cage after reset: off. -/
def cage0 : CageSt := ⟨0, false, 255, 0, false, false⟩
/-- A unit after reset (R424). -/
def unit0 : UnitSt := ⟨0, 0, 0, 0, 0, false⟩
/-- A disabled aperture (R446). -/
def aperture0 : Aperture := ⟨false, 0⟩
/-- An MSI-X entry after reset: masked, as the standard resets it. -/
def msix0 : Msix := ⟨0, 0, true, false⟩
/-- A mailbox in module reset (Tables 17-2 and 17-3): OFFLINE, free to take any sequence number. -/
def mailbox0 : Mailbox := ⟨3, 0xFFFF, 0, 0, false, true, [], 0, none, none, []⟩
/-- A tally after reset (R108). -/
def tally0 : TallyV := ⟨0, false⟩
/-- A handle with no generation (R127). -/
def handle0 : Handle := ⟨8, 0, 0, []⟩
/-- A summary slot after reset (R121). -/
def summ0 : Summ := ⟨0, 0, false⟩
/-- A break unit after reset: off. -/
def break0 : BreakUnit := ⟨0, 0, 0, 0, 0, 0, false⟩
/-- A memory's reserve after reset (R348): MEM_RESV = 1,024, taken when the placement is rebuilt. -/
def pool0 : MemPool := ⟨1024, [], [], [], [], [], [], []⟩
/-- A port before Sighting: OFF, with the credits of an empty input buffer of 64 KiB per virtual channel (R372). -/
def port0 : Port :=
  { state := 0, reason := 0, lanes := 0, retiredLanes := 0, lenCm := 0, media := 0, retrains := 0, signal := false,
    trained := false, partner := [], txSeq := 0, rxSeq := 65535, discard := false, replay := [], outq := [],
    cred0 := 1024, cred1 := 1024, owed0 := 0, owed1 := 0, tx := [], cw := 0, badAt := [], fixAt := [], retrainAt := [] }
/-- A ring of which nothing is known. -/
def ring0 : Ring := ⟨List.replicate 16 0, List.replicate 16 0, List.replicate 16 0, List.replicate 16 0⟩
/-- The fabric after reset (R388: deterministic mode is clear). -/
def Fabric.reset : Fabric := ⟨[], List.replicate 5 ring0, false, 0, [], [], [], false⟩

/-- An accumulator at stream start: VOID (R224). -/
def acc0 : Acc := ⟨false, 0, [], [], [], false, 0, 0⟩
/-- A statistics accumulator that no drain has used. -/
def gstat0 : GradStat := ⟨false, [], 0, 0, 0, 0, 0⟩
/-- A tile register at stream start: EMPTY (R251). -/
def treg0 : TileReg := ⟨false, 0, 0, 0, []⟩

/-- A table number after reset (R164). -/
def table0 : CatTable := ⟨[], [], 2, none, 0, false⟩
/-- A bind slot that has never been bound. -/
def bind0 : BindSlot := ⟨false, 0, []⟩
/-- A combiner after reset (R191). -/
def comb0 : Combiner := ⟨0, 0, false, [], [], 0, 0, 0, 0⟩
/-- An update pair after reset (R205). -/
def pair0 : Pair := ⟨0, 0, 0, 0, 0, 0, false, [], [], []⟩
/-- The guard after reset: no configuration. -/
def Guard.reset : Guard := ⟨none, 0, 0, [], [], [], false, 0, false, [], []⟩

/-- An empty firmware slot (R479). -/
def slotEmpty : FwSlot := ⟨0, 0, 0, 0, 0, []⟩

/-- No Logbook destination: disabled (R433). -/
def dest0 : LogDest := ⟨false, 0, 0, zeros16, zeros16⟩

/-- The fuses of a part as the model presents one: an SHL-T4A-1536 (Tables 0-1, 0-2). -/
def Otp.reset : Otp where
  capEngines := 0xFFFFFFFFFFFFFFFF
  capUnits := 0x18011FFFFFFFFFFF
  vendorId := 0
  stepping := 0
  mac := 0
  rootHash := 0
  revoked := 0
  uds := 0
  kill := false
  arb0 := []
  arb1 := []
  arb2 := []

/-- Pins and start-up state of a module that is held in module reset with its rails up. -/
def Power.reset : Power where
  vin := true
  latched := false
  pwrGood := true
  modRst := false
  perst := false
  phase := .inReset
  shutdownPending := false
  strap1 := 0
  siteCode := 0
  siteInvalid := false
  sighted := false
  fwResetPending := false
  shelfPkgs := []
  hbmStacks := []
  fromPower := true
  lastChans := []

/-- Sextant after reset: every island at its maximum clock (R498), the grade's power as the cap (R500). -/
def Sextant.reset : Sextant where
  rails := []
  sites := []
  cages := []
  fixes := []
  groups := [⟨3600, 3600, 3600, 3600, 3600⟩, ⟨3600, 3600, 3600, 3600, 3600⟩, ⟨3600, 3600, 3600, 3600, 3600⟩,
    ⟨3600, 3600, 3600, 3600, 3600⟩, ⟨2400, 2400, 2400, 2400, 2400⟩, ⟨2400, 2400, 2400, 2400, 2400⟩,
    ⟨1800, 1800, 1800, 1800, 1800⟩]
  capW := 2400
  power := []
  vmax := []
  popFault := false

/-- The Logbook after power-on (Table 15-8: records from 0). -/
def Logbook.reset : Logbook := ⟨[], [], 0, [], [], dest0, false⟩

/-- The Ledger of a module that has recorded nothing. -/
def Ledger.reset : Ledger := ⟨false, [], [], [], 0, true, true, 0, 0, 0, true⟩

/-- A flash that meets R514 and holds nothing. -/
def Flash.reset : Flash where
  fits := true
  slot0 := slotEmpty
  slot1 := slotEmpty
  manifest0 := []
  manifest1 := []
  identCert := []
  katLib := []
  logDest := dest0
  copyA := ⟨[], []⟩
  copyB := ⟨[], []⟩
  badFw := false
  badKat := false
  badSec := false
  badA := false
  badB := false

/-- Firmware state after reset. -/
def Firmware.reset : Firmware := ⟨0, 255, false, 0xF0000000000⟩

/-- The security processor in module reset: measurement registers zero, no key, the debug lock engaged (R529, R534,
R537). -/
def Security.reset : Security where
  meas := List.replicate 8 0
  manifest := none
  udsCopy := none
  identKey := none
  aliasKey := none
  identPub := []
  aliasCert := []
  aliasSig := []
  challenge := none
  locked := true
  debugTaken := false
  serviceTaken := false
  error := false
  arbFull := false

/-- Integrity state after reset: k = 10, N = 16 (R428), no library, no capture, no vector. -/
def Integrity.reset : Integrity where
  units := []
  pageEvents := []
  pageFixes := []
  libVersion := 0
  k := 10
  n := 16
  capture := false
  vector := 0xFFFF
  specBase := 0
  specSize := 0
  specimen := none
  specCount := 0
  specMissed := 0
  injects := []
  noCommit := false

/-- The host interface after reset (Table 16-5, R446): the link is down. -/
def HostIf.reset : HostIf where
  dlUp := false
  everUp := false
  counting := false
  training := false
  rate := 0
  width := 0
  flit := false
  refused := []
  mse := []
  d3hot := []
  numVfs := 0
  vfEnable := false
  apertures := []
  msix := []
  msixEnable := []
  msixFnMask := []

/-- The module in module reset. -/
def Dev.reset : Dev where
  mem := []
  side := []
  pow := Power.reset
  sx := Sextant.reset
  log := Logbook.reset
  lg := Ledger.reset
  flash := Flash.reset
  fw := Firmware.reset
  sec := Security.reset
  int := Integrity.reset
  host := HostIf.reset
  out := ⟨[], [], []⟩
  mbox := []
  eid := 0
  pcs := []
  numFlags := []
  tallies := []
  handles := []
  icache := []
  prefetches := []
  sccSlots := []
  breaks := []
  streams := []
  queues := []
  wrote := []
  served := []
  objs := []
  regions := []
  pools := []
  plans := []
  verCommitted := 0
  verLastStep := 0
  verLastKind := 0
  rrAssign := []
  rrWindows := []
  rrTables := []
  rrTallies := []
  bindsInUse := []
  fab := Fabric.reset
  seed := 0
  scales := []
  freeze := 0
  uncollated := []
  tables := []
  catLastStep := 0
  binds := []
  hrd := []
  hrdRegions := []
  rangePos := []
  rowReqs := []
  combs := []
  pairUnits := []
  pubMap := []
  pairs := []
  params := []
  scheds := []
  staleMax := 0
  shardReqs := []
  djAreas := []
  act := none
  guard := Guard.reset
  groups := []
  collAreas := []
  chans := []
  freeIdx := 0
  readFails := 0
  burns := []

/-- The machine right after a module reset has begun: nothing waits. -/
def State.reset : State := ⟨Dev.reset, Otp.reset, []⟩

end Sys2Proof.Machine
end

