-- ==== Sys2Proof/Machine/Status.lean ====
section
/-!
DEFINITION. The status codes: Table 17-6 (R476), Table 18-8 (R501), Table 19-7 (R520) and Table 20-6 (R542).
Each name is the manual's, ST_X as stX.
-/

namespace Sys2Proof

/-- ST_OK. -/
def stOk : Nat := 0x0000
/-- ST_ADDR_UNMAPPED. -/
def stAddrUnmapped : Nat := 0x0001
/-- ST_CTL_LOST. -/
def stCtlLost : Nat := 0x0002
/-- ST_ENGINE_RANGE. -/
def stEngineRange : Nat := 0x0003
/-- ST_ENGINE_ABSENT. -/
def stEngineAbsent : Nat := 0x0004
/-- ST_ENGINE_RETIRED. -/
def stEngineRetired : Nat := 0x0005
/-- ST_ENGINE_DENIED. -/
def stEngineDenied : Nat := 0x0006
/-- ST_WAIT_LIMIT. -/
def stWaitLimit : Nat := 0x0007
/-- ST_TALLY_SAT. -/
def stTallySat : Nat := 0x0008
/-- ST_MBX_LEN. -/
def stMbxLen : Nat := 0x0101
/-- ST_MBX_CRC. -/
def stMbxCrc : Nat := 0x0102
/-- ST_MBX_PROTO. -/
def stMbxProto : Nat := 0x0103
/-- ST_MBX_SEQ. -/
def stMbxSeq : Nat := 0x0104
/-- ST_MBX_OPCODE. -/
def stMbxOpcode : Nat := 0x0105
/-- ST_MBX_DENIED. -/
def stMbxDenied : Nat := 0x0106
/-- ST_MBX_TIMEOUT. -/
def stMbxTimeout : Nat := 0x0107
/-- ST_MBX_PARAM. -/
def stMbxParam : Nat := 0x0108
/-- ST_TD_CRC. -/
def stTdCrc : Nat := 0x0201
/-- ST_TD_ALIGN. -/
def stTdAlign : Nat := 0x0202
/-- ST_LY_OP. -/
def stLyOp : Nat := 0x0203
/-- ST_TD_RSVD. -/
def stTdRsvd : Nat := 0x0204
/-- ST_TD_PACK. -/
def stTdPack : Nat := 0x0205
/-- ST_TD_SHAPE. -/
def stTdShape : Nat := 0x0206
/-- ST_TD_ALIAS. -/
def stTdAlias : Nat := 0x0207
/-- ST_TD_LIST. -/
def stTdList : Nat := 0x0208
/-- ST_TD_ORDER. -/
def stTdOrder : Nat := 0x0209
/-- ST_CODE_HDR. -/
def stCodeHdr : Nat := 0x0210
/-- ST_CODE_CRC. -/
def stCodeCrc : Nat := 0x0211
/-- ST_CODE_CAP. -/
def stCodeCap : Nat := 0x0212
/-- ST_CODE_SLOT. -/
def stCodeSlot : Nat := 0x0213
/-- ST_CODE_LOOP. -/
def stCodeLoop : Nat := 0x0214
/-- ST_CODE_BUILD. -/
def stCodeBuild : Nat := 0x0215
/-- ST_CODE_BUSY. -/
def stCodeBusy : Nat := 0x0216
/-- ST_CODE_NONE. -/
def stCodeNone : Nat := 0x0217
/-- ST_SP_CRC. -/
def stSpCrc : Nat := 0x0218
/-- ST_CODE_CLASS. -/
def stCodeClass : Nat := 0x0219
/-- ST_CODE_ENTRY. -/
def stCodeEntry : Nat := 0x021A
/-- ST_CHOICE_NONE. -/
def stChoiceNone : Nat := 0x021B
/-- ST_BK_DENIED. -/
def stBkDenied : Nat := 0x021C
/-- ST_SP_UNBOUND. -/
def stSpUnbound : Nat := 0x021D
/-- ST_CODE_DENIED. -/
def stCodeDenied : Nat := 0x021E
/-- ST_CMD_FORMAT. -/
def stCmdFormat : Nat := 0x0220
/-- ST_CMD_DENIED. -/
def stCmdDenied : Nat := 0x0221
/-- ST_DB_RANGE. -/
def stDbRange : Nat := 0x0222
/-- ST_STALE_RING. -/
def stStaleRing : Nat := 0x0223
/-- ST_Q_DENIED. -/
def stQDenied : Nat := 0x0224
/-- ST_Q_BUSY. -/
def stQBusy : Nat := 0x0225
/-- ST_Q_PARAM. -/
def stQParam : Nat := 0x0226
/-- ST_Q_STATE. -/
def stQState : Nat := 0x0227
/-- ST_Q_NONE. -/
def stQNone : Nat := 0x0228
/-- ST_COMB_STEP. -/
def stCombStep : Nat := 0x0230
/-- ST_COMB_FULL. -/
def stCombFull : Nat := 0x0231
/-- ST_COMB_STATE. -/
def stCombState : Nat := 0x0232
/-- ST_COMB_RESULT. -/
def stCombResult : Nat := 0x0233
/-- ST_COMB_BUSY. -/
def stCombBusy : Nat := 0x0234
/-- ST_COMB_PARAM. -/
def stCombParam : Nat := 0x0235
/-- ST_MX_FP64. -/
def stMxFp64 : Nat := 0x0240
/-- ST_MX_TYPE. -/
def stMxType : Nat := 0x0241
/-- ST_MX_SHAPE. -/
def stMxShape : Nat := 0x0242
/-- ST_MX_TILE. -/
def stMxTile : Nat := 0x0243
/-- ST_MX_ACC. -/
def stMxAcc : Nat := 0x0244
/-- ST_MX_SCALE. -/
def stMxScale : Nat := 0x0245
/-- ST_MX_LIMIT. -/
def stMxLimit : Nat := 0x0246
/-- ST_MX_DENIED. -/
def stMxDenied : Nat := 0x0247
/-- ST_MX_UNRESOLVED. -/
def stMxUnresolved : Nat := 0x0248
/-- ST_VX_TYPE. -/
def stVxType : Nat := 0x0250
/-- ST_VX_SHAPE. -/
def stVxShape : Nat := 0x0251
/-- ST_VX_REG. -/
def stVxReg : Nat := 0x0252
/-- ST_VX_FTAB. -/
def stVxFtab : Nat := 0x0253
/-- ST_VX_DENIED. -/
def stVxDenied : Nat := 0x0254
/-- ST_MEM_FLAGS. -/
def stMemFlags : Nat := 0x0301
/-- ST_MEM_TIER. -/
def stMemTier : Nat := 0x0302
/-- ST_MEM_FULL. -/
def stMemFull : Nat := 0x0303
/-- ST_MEM_NONE. -/
def stMemNone : Nat := 0x0304
/-- ST_MEM_DENIED. -/
def stMemDenied : Nat := 0x0305
/-- ST_MEM_NOSPARE. -/
def stMemNospare : Nat := 0x0306
/-- ST_PLAN_PARAM. -/
def stPlanParam : Nat := 0x0310
/-- ST_PLAN_CRC. -/
def stPlanCrc : Nat := 0x0311
/-- ST_PLAN_ENTRY. -/
def stPlanEntry : Nat := 0x0312
/-- ST_PLAN_OBJ. -/
def stPlanObj : Nat := 0x0313
/-- ST_PLAN_PIN. -/
def stPlanPin : Nat := 0x0314
/-- ST_STAGE_PARAM. -/
def stStageParam : Nat := 0x0320
/-- ST_STAGE_CRC. -/
def stStageCrc : Nat := 0x0321
/-- ST_HOST_ABORT. -/
def stHostAbort : Nat := 0x0322
/-- ST_HOST_LOST. -/
def stHostLost : Nat := 0x0323
/-- ST_HOST_PARAM. -/
def stHostParam : Nat := 0x0324
/-- ST_HOST_DENIED. -/
def stHostDenied : Nat := 0x0325
/-- ST_CAT_ENTRY. -/
def stCatEntry : Nat := 0x0401
/-- ST_CAT_GEN. -/
def stCatGen : Nat := 0x0402
/-- ST_CAT_BUSY. -/
def stCatBusy : Nat := 0x0403
/-- ST_CAT_NONE. -/
def stCatNone : Nat := 0x0404
/-- ST_CAT_LATE. -/
def stCatLate : Nat := 0x0405
/-- ST_CAT_DENIED. -/
def stCatDenied : Nat := 0x0406
/-- ST_EMB_STEP. -/
def stEmbStep : Nat := 0x0410
/-- ST_EMB_SHAPE. -/
def stEmbShape : Nat := 0x0411
/-- ST_EMB_NOTABLE. -/
def stEmbNotable : Nat := 0x0412
/-- ST_EMB_GEN. -/
def stEmbGen : Nat := 0x0413
/-- ST_EMB_RANGE. -/
def stEmbRange : Nat := 0x0414
/-- ST_EMB_GATE. -/
def stEmbGate : Nat := 0x0415
/-- ST_HRD_BUSY. -/
def stHrdBusy : Nat := 0x0420
/-- ST_HRD_LIST. -/
def stHrdList : Nat := 0x0421
/-- ST_HRD_REGION. -/
def stHrdRegion : Nat := 0x0422
/-- ST_VER_PARAM. -/
def stVerParam : Nat := 0x0501
/-- ST_VER_WAIT. -/
def stVerWait : Nat := 0x0502
/-- ST_VER_GONE. -/
def stVerGone : Nat := 0x0503
/-- ST_VER_READERS. -/
def stVerReaders : Nat := 0x0504
/-- ST_VER_RELEASE. -/
def stVerRelease : Nat := 0x0505
/-- ST_VER_STEP. -/
def stVerStep : Nat := 0x0506
/-- ST_VER_ABANDON. -/
def stVerAbandon : Nat := 0x0507
/-- ST_VER_STATE. -/
def stVerState : Nat := 0x0508
/-- ST_PARAM_ENTRY. -/
def stParamEntry : Nat := 0x0510
/-- ST_PARAM_BUSY. -/
def stParamBusy : Nat := 0x0511
/-- ST_SCHED_PARAM. -/
def stSchedParam : Nat := 0x0512
/-- ST_PARAM_DENIED. -/
def stParamDenied : Nat := 0x0513
/-- ST_PUB_BUSY. -/
def stPubBusy : Nat := 0x0520
/-- ST_PUB_PARAM. -/
def stPubParam : Nat := 0x0521
/-- ST_UPD_DENIED. -/
def stUpdDenied : Nat := 0x0522
/-- ST_JOURNAL_LOST. -/
def stJournalLost : Nat := 0x0523
/-- ST_GUARD_CONFIG. -/
def stGuardConfig : Nat := 0x0530
/-- ST_GUARD_PARAM. -/
def stGuardParam : Nat := 0x0531
/-- ST_GUARD_STEP. -/
def stGuardStep : Nat := 0x0532
/-- ST_GUARD_DUP. -/
def stGuardDup : Nat := 0x0533
/-- ST_GUARD_WAIT. -/
def stGuardWait : Nat := 0x0534
/-- ST_GUARD_LATE. -/
def stGuardLate : Nat := 0x0535
/-- ST_GUARD_BUSY. -/
def stGuardBusy : Nat := 0x0536
/-- ST_GUARD_DROPPED. -/
def stGuardDropped : Nat := 0x0537
/-- ST_GUARD_SKIPRUN. -/
def stGuardSkiprun : Nat := 0x0538
/-- ST_RR_WINDOW. -/
def stRrWindow : Nat := 0x0540
/-- ST_RR_RESOURCE. -/
def stRrResource : Nat := 0x0541
/-- ST_RR_BUSY. -/
def stRrBusy : Nat := 0x0542
/-- ST_RR_PARAM. -/
def stRrParam : Nat := 0x0543
/-- ST_EXPORT_PARAM. -/
def stExportParam : Nat := 0x0544
/-- ST_STEP_DENIED. -/
def stStepDenied : Nat := 0x0545
/-- ST_RH_NOTREADY. -/
def stRhNotready : Nat := 0x0601
/-- ST_RH_UNREACH. -/
def stRhUnreach : Nat := 0x0602
/-- ST_RH_LINK_LOST. -/
def stRhLinkLost : Nat := 0x0603
/-- ST_RH_TIMEOUT. -/
def stRhTimeout : Nat := 0x0604
/-- ST_RH_SITE. -/
def stRhSite : Nat := 0x0605
/-- ST_RH_PORT. -/
def stRhPort : Nat := 0x0606
/-- ST_RH_STATE. -/
def stRhState : Nat := 0x0607
/-- ST_RH_DENIED. -/
def stRhDenied : Nat := 0x0608
/-- ST_COLL_PARAM. -/
def stCollParam : Nat := 0x0610
/-- ST_COLL_GROUP. -/
def stCollGroup : Nat := 0x0611
/-- ST_COLL_AREA. -/
def stCollArea : Nat := 0x0612
/-- ST_COLL_SHAPE. -/
def stCollShape : Nat := 0x0613
/-- ST_COLL_WAIT. -/
def stCollWait : Nat := 0x0614
/-- ST_COLL_CLOSED. -/
def stCollClosed : Nat := 0x0615
/-- ST_COLL_FORMAT. -/
def stCollFormat : Nat := 0x0616
/-- ST_COLL_FULL. -/
def stCollFull : Nat := 0x0617
/-- ST_COLL_MODE. -/
def stCollMode : Nat := 0x0618
/-- ST_COLL_DENIED. -/
def stCollDenied : Nat := 0x0619
/-- ST_KAT_FAIL. -/
def stKatFail : Nat := 0x0701
/-- ST_KAT_LIB. -/
def stKatLib : Nat := 0x0702
/-- ST_INT_PARAM. -/
def stIntParam : Nat := 0x0703
/-- ST_INT_DENIED. -/
def stIntDenied : Nat := 0x0704
/-- ST_FW_IMAGE. -/
def stFwImage : Nat := 0x0B01
/-- ST_FW_SIG. -/
def stFwSig : Nat := 0x0B02
/-- ST_FW_ROLLBACK. -/
def stFwRollback : Nat := 0x0B03
/-- ST_FW_STATE. -/
def stFwState : Nat := 0x0B04
/-- ST_FW_FLASH. -/
def stFwFlash : Nat := 0x0B05
/-- ST_FW_NONE. -/
def stFwNone : Nat := 0x0B06
/-- ST_FW_REJECTED. -/
def stFwRejected : Nat := 0x0B07
/-- ST_DBG_LOCKED. -/
def stDbgLocked : Nat := 0x0B08
/-- ST_DBG_PARAM. -/
def stDbgParam : Nat := 0x0B09
/-- ST_SX_PARAM. -/
def stSxParam : Nat := 0x0801
/-- ST_SX_DENIED. -/
def stSxDenied : Nat := 0x0802
/-- ST_SX_SOURCE. -/
def stSxSource : Nat := 0x0803
/-- ST_SX_POP. -/
def stSxPop : Nat := 0x0804
/-- ST_SX_RAIL_WARN. -/
def stSxRailWarn : Nat := 0x0805
/-- ST_SX_RAIL_FAULT. -/
def stSxRailFault : Nat := 0x0806
/-- ST_SX_THERM_WARN. -/
def stSxThermWarn : Nat := 0x0807
/-- ST_SX_THERM_TRIP. -/
def stSxThermTrip : Nat := 0x0808
/-- ST_SX_CAGE. -/
def stSxCage : Nat := 0x0809
/-- ST_SX_STACK. -/
def stSxStack : Nat := 0x080A
/-- ST_LG_PARAM. -/
def stLgParam : Nat := 0x0901
/-- ST_LG_DENIED. -/
def stLgDenied : Nat := 0x0902
/-- ST_LG_FLASH. -/
def stLgFlash : Nat := 0x0903
/-- ST_LG_THRESHOLD. -/
def stLgThreshold : Nat := 0x0904
/-- ST_LG_SATURATED. -/
def stLgSaturated : Nat := 0x0905
/-- ST_LG_FULL. -/
def stLgFull : Nat := 0x0906
/-- ST_SEC_PARAM. -/
def stSecParam : Nat := 0x0A01
/-- ST_SEC_DENIED. -/
def stSecDenied : Nat := 0x0A02
/-- ST_SEC_TOKEN. -/
def stSecToken : Nat := 0x0A03
/-- ST_SEC_KEY. -/
def stSecKey : Nat := 0x0A04
/-- ST_SEC_SIG. -/
def stSecSig : Nat := 0x0A05
/-- ST_SEC_UNLOCKED. -/
def stSecUnlocked : Nat := 0x0A06
/-- ST_SEC_NOIDENT. -/
def stSecNoident : Nat := 0x0A07
/-- ST_SEC_ERROR. -/
def stSecError : Nat := 0x0A08
/-- ST_SEC_SELFTEST. -/
def stSecSelftest : Nat := 0x0A09
/-- ST_SEC_ARB_FULL. -/
def stSecArbFull : Nat := 0x0A0A
/-- ST_SEC_ROLLBACK. -/
def stSecRollback : Nat := 0x0A0B
/-- ST_SEC_FLASH. -/
def stSecFlash : Nat := 0x0A0C

end Sys2Proof
end

