-- ==== Sys2Proof/Machine/Ops.lean ====
section
/-!
DEFINITION. The named operations that every family uses: performance counters (R505), presence and use of units (R4, R8,
R424), the local address map (R29 to R34, R327 to R329), device memory with its side-band (R330, R331), tallies (R108,
R109), MSI-X (R449) and writes to host memory (R454).
-/

namespace Sys2Proof.Machine

/-- The outcome of a command whose effect on the module is `f`; the programming operations that `f` asked for are then
carried out on the fuses (R533, R536). -/
def settleOtp (o : Otp) : List Burn → Otp
  | [] => o
  | .kill :: t => settleOtp { o with kill := true } t
  | .arb c v :: t =>
    settleOtp (if c = 0 then (if o.arb0.length < 128 then { o with arb0 := o.arb0 ++ [v] } else o)
      else if c = 1 then (if o.arb1.length < 32 then { o with arb1 := o.arb1 ++ [v] } else o)
      else (if o.arb2.length < 32 then { o with arb2 := o.arb2 ++ [v] } else o)) t

/-- Carry out an effect on the module, then the programming operations it asked for. The queue is untouched. -/
def settle (f : Otp → Dev → Dev) (s : State) : State :=
  { s with dev := { f s.otp s.dev with burns := [] }, otp := settleOtp s.otp (f s.otp s.dev).burns }

/-- The answer of a command that always goes on. -/
def runDev (f : Otp → Dev → Dev) (s : State) : Host.Outcome State Fault Refusal := .next (settle f s)

/-! ### Performance counters -/

/-- Add to a performance counter (R505): the sum modulo 2^48, and the overflow bit when it passes 2^48 - 1. -/
def pcBump (p : Pc) (n : Nat) : Pc :=
  ⟨BitVec.ofNat 48 (p.val.toNat + n), p.ovf || decide (2 ^ 48 ≤ p.val.toNat + n)⟩

/-- Add `n` to counter `key` of the module. -/
def pcAdd (d : Dev) (key n : Nat) : Dev := { d with pcs := smMod pc0 d.pcs key (fun p => pcBump p n) }

/-- Counter `key`. -/
def pcGet (d : Dev) (key : Nat) : Pc := smGet pc0 d.pcs key

/-- The 6 bytes of a counter in a reply. -/
def pcBytes (d : Dev) (key : Nat) : List Byte := natLe 6 (pcGet d key).val.toNat

/-- The overflow bits of counters `key` to `key + n - 1`, counter `key` at bit 0. -/
def pcOvf (d : Dev) (key n : Nat) : Nat := ofBits ((List.range n).map (fun i => (pcGet d (key + i)).ovf))

/-- INT_PC_CTLFIX (R438). -/
def kCtlfix : Nat := 0
/-- INT_PC_REREAD. -/
def kReread : Nat := 1
/-- INT_PC_DISAGREE. -/
def kDisagree : Nat := 2
/-- INT_PC_LANEMISS. -/
def kLanemiss : Nat := 3
/-- INT_PC_LOGSENT. -/
def kLogsent : Nat := 4
/-- INT_PC_LOGLOST. -/
def kLoglost : Nat := 5
/-- HOST_PC_TXBYTES (R460); RXBYTES, REPLAY, LINKDOWN and BAR2REF follow. -/
def kHostTx : Nat := 6
/-- HOST_PC_RXBYTES. -/
def kHostRx : Nat := 7
/-- HOST_PC_REPLAY. -/
def kHostReplay : Nat := 8
/-- HOST_PC_LINKDOWN. -/
def kHostDown : Nat := 9
/-- HOST_PC_BAR2REF. -/
def kHostRef : Nat := 10
/-- SX_PC_FIXES (R502). -/
def kSxFixes : Nat := 11
/-- SX_PC_LIMITED. -/
def kSxLimited : Nat := 12
/-- VER_PC_STALL (R294). -/
def kVerStall : Nat := 13
/-- VER_PC_INPLACE. -/
def kVerInplace : Nat := 14
/-- RH_PC_BADKIND (R384). -/
def kBadKind : Nat := 15
/-- RH_PC_UNDELIV. -/
def kUndeliv : Nat := 16
/-- First of the collective counters of R409. -/
def kColl : Nat := 20
/-- First of the guard counters of R321. -/
def kGuard : Nat := 30
/-- MBX_PC_REQ of a channel; REJECT and RETRY follow (R485). -/
def kMbx (ch : Nat) : Nat := 100 + 3 * ch
/-- MEM_PC_SBFIX of a controller: HBM stacks 0 to 7, then Shelf packages 0 to 11 (R353). -/
def kSbfix (c : Nat) : Nat := 200 + c
/-- Hit counter of a break unit (R124). -/
def kHits (u : Nat) : Nat := 300 + u
/-- DQ_PC_REFETCH of a queue; WAITCYC follows (R158). -/
def kQueue (q : Nat) : Nat := 1000 + 2 * q
/-- First counter of an engine, 32 numbers each: ENG_PC_BUNDLES, IMISS, WAIT (R118), then those of its class. -/
def kEng (e : Nat) : Nat := 10000 + 32 * e
/-- First counter of a port (R384). -/
def kPort (p : Nat) : Nat := 30000 + 16 * p
/-- First counter of an update pair (R222). -/
def kPair (p : Nat) : Nat := 40000 + 8 * p

/-! ### Free values -/

/-- Step the model's own counter of free values. -/
def bump (d : Dev) : Dev := { d with freeIdx := d.freeIdx + 1 }

/-! ### Units -/

/-- The key of an engine: DE_CLASS * 32 + instance. -/
def ek (cls inst : Nat) : Nat := cls * 32 + inst

/-- Instances of a class (Table 5-5): 32 MXE and EBE, 16 VXE and XFE, 8 UPE and LYE. -/
def classLimit (cls : Nat) : Nat :=
  if cls = 1 ∨ cls = 3 then 32 else if cls = 2 ∨ cls = 6 then 16 else if cls = 4 ∨ cls = 5 then 8 else 0

/-- The compute die of an instance (R7, R136). -/
def dieOf (cls inst : Nat) : Nat := inst / (classLimit cls / 2)

/-- The presence masks show the instance (Table 0-2); LYE and XFE are never fused (R4). -/
def present (o : Otp) (cls inst : Nat) : Bool :=
  decide (inst < classLimit cls) &&
    (if cls = 1 then o.capEngines.toNat.testBit inst
     else if cls = 2 then o.capUnits.toNat.testBit inst
     else if cls = 3 then o.capEngines.toNat.testBit (32 + inst)
     else if cls = 4 then o.capUnits.toNat.testBit (16 + inst)
     else decide (cls = 5 ∨ cls = 6))

/-- CAP_GRADE (Table 0-2): 1 T4A, 2 T4B, 3 T4C. -/
def grade (o : Otp) : Nat := bits o.capUnits.toNat 48 8

/-- The FP64 datapath is present (Table 0-2). -/
def hasFp64 (o : Otp) : Bool := o.capUnits.toNat.testBit 44

/-- Port `p` is present (Table 0-2). -/
def portPresent (o : Otp) (p : Nat) : Bool := decide (p < 20) && o.capUnits.toNat.testBit (24 + p)

/-- The fault state of a unit. -/
def unitGet (d : Dev) (u : Nat) : UnitSt := smGet unit0 d.int.units u

/-- Replace the fault state of a unit. -/
def unitSet (d : Dev) (u : Nat) (v : UnitSt) : Dev :=
  { d with int := { d.int with units := smSet unit0 d.int.units u v } }

/-- The key of a Collator. -/
def collKey (die : Nat) : Nat := 224 + die

/-- The unit is RETIRED (R424). -/
def retired (d : Dev) (u : Nat) : Bool := (unitGet d u).state == 2

/-- The engine is in the usable set (R8, R426). -/
def usable (o : Otp) (d : Dev) (cls inst : Nat) : Bool :=
  present o cls inst && !retired d (ek cls inst) && !(cls == 1 && retired d (collKey (dieOf cls inst)))

/-- A 32-bit mask over the instances of a class. -/
def classMask (cls : Nat) (f : Nat → Bool) : Nat := ofBits ((List.range (classLimit cls)).map f)

/-- INT_RETIRE_ENGINES or INT_SUSPECT_ENGINES, for unit state `st` (Table 15-6). -/
def intEngines (o : Otp) (d : Dev) (st : Nat) : Nat :=
  classMask 1 (fun i => present o 1 i && (unitGet d (ek 1 i)).state == st) +
    (classMask 3 (fun i => present o 3 i && (unitGet d (ek 3 i)).state == st)) <<< 32

/-- INT_RETIRE_UNITS or INT_SUSPECT_UNITS (Table 15-6). -/
def intUnits (o : Otp) (d : Dev) (st : Nat) : Nat :=
  classMask 2 (fun i => present o 2 i && (unitGet d (ek 2 i)).state == st) +
    (classMask 4 (fun i => present o 4 i && (unitGet d (ek 4 i)).state == st)) <<< 16 +
    (ofBits [(unitGet d (collKey 0)).state == st, (unitGet d (collKey 1)).state == st]) <<< 32

/-! ### Addresses -/

/-- The module's own coordinate, bits [63:44] of its global addresses (R33, R373). -/
def ownCoord (d : Dev) : Nat := d.pow.siteCode.toNat % 2 ^ 20

/-- Bits [63:44] of a global address. -/
def coordOf (ga : Nat) : Nat := (ga % 2 ^ 64) >>> 44

/-- Bits [43:0] of a global address. -/
def localOf (ga : Nat) : Nat := ga % 2 ^ 44

/-- The global address names this module (R34). -/
def isOwn (d : Dev) (ga : Nat) : Bool := coordOf ga == ownCoord d

/-- Bases of the local address map (Table 1-7). -/
def sramBase (die : Nat) : Nat := die * 0x8000000
/-- Base of a die's HBM range. -/
def hbmBase (die : Nat) : Nat := 0x8000000000 + die * 0x4000000000
/-- Base of the Shelf window. -/
def shelfBase : Nat := 0x10000000000
/-- Base of the memory-mapped control range. -/
def controlBase : Nat := 0xF0000000000

/-- The pool of a memory: 2 HBM C0, 3 HBM C1, 4 Shelf (R354). -/
def poolGet (d : Dev) (m : Nat) : MemPool := smGet pool0 d.pools m

/-- The usable pseudo-channels of a die, as keys pc * 4 + stack in increasing order (R327, R350, R496). -/
def hbmChannels (d : Dev) (die : Nat) : List Nat :=
  (List.range 256).filter (fun c =>
    d.pow.hbmStacks.getD (die * 4 + c % 4) false && !((poolGet d (2 + die)).excluded.contains c))

/-- The populated packages' sizes in bytes (R495). -/
def shelfSizes (d : Dev) : List Nat := (d.pow.shelfPkgs.filter (· != 0)).map (· * 2 ^ 34)

/-- The smallest element of a list, 0 for none. -/
def listMin : List Nat → Nat
  | [] => 0
  | [x] => x
  | x :: t => min x (listMin t)

/-- The populated bytes of memory selector `m` (R30, R328, R329, R354). -/
def populated (d : Dev) (m : Nat) : Nat :=
  if m ≤ 1 then 0x8000000
  else if m = 2 then (hbmChannels d 0).length * 2 ^ 30
  else if m = 3 then (hbmChannels d 1).length * 2 ^ 30
  else if m = 4 then (shelfSizes d).length * listMin (shelfSizes d)
  else 0

/-- The base of memory selector `m`. -/
def memBase (m : Nat) : Nat := if m ≤ 1 then sramBase m else if m ≤ 3 then hbmBase (m - 2) else shelfBase

/-- The bytes `a` to `a + n - 1` lie inside memory selector `m`. -/
def inMem (d : Dev) (m a n : Nat) : Bool :=
  decide (memBase m ≤ a) && decide (a + n ≤ memBase m + populated d m)

/-- R31: the access names no byte, or its bytes lie wholly in one populated range that the data paths reach (R32). -/
def mapped (d : Dev) (a n : Nat) : Bool :=
  n == 0 || (List.range 5).any (fun m => inMem d m a n)

/-- The memory selector that holds local address `a`. -/
def memOf (a : Nat) : Nat :=
  if a < 0x8000000 then 0 else if a < 0x10000000 then 1
  else if hbmBase 0 ≤ a ∧ a < hbmBase 1 then 2
  else if hbmBase 1 ≤ a ∧ a < shelfBase then 3
  else if shelfBase ≤ a ∧ a < 0x30000000000 then 4 else 5

/-- The bytes lie wholly in the populated HBM of one die. -/
def inHbm (d : Dev) (a n : Nat) : Bool := inMem d 2 a n || inMem d 3 a n

/-- R31 for a global range on the own module. -/
def ownMapped (d : Dev) (ga n : Nat) : Bool := isOwn d ga && mapped d (localOf ga) n

/-! ### Device memory -/

/-- One byte of device memory. -/
def byteAt (d : Dev) (a : Nat) : Byte := smGet 0 d.mem a

/-- `n` bytes of device memory from local address `a`. -/
def memRead (d : Dev) (a n : Nat) : List Byte := (List.range n).map (fun i => byteAt d (a + i))

/-- A little-endian number of `n` bytes in device memory. -/
def memNat (d : Dev) (a n : Nat) : Nat := leNat (memRead d a n)

/-- The region that holds a local address (R331). -/
def regionAt (d : Dev) (a : Nat) : Option Region :=
  d.regions.find? (fun r => decide (r.base ≤ a) && decide (a < r.base + r.size))

/-- The line lies in an HBM hot area that DZ_HRD_REGION has set (R183, Table 12-6). -/
def hotLine (d : Dev) (line : Nat) : Bool :=
  [1, 3].any (fun k =>
    let r := smGet (0, 0) d.hrdRegions k
    decide (r.1 < line * 64 + 64) && decide (line * 64 < r.1 + r.2))

/-- The side-band that a controller writes with a line (R331): a hot area's lines are HOT, inside an object too (Table 12-6;
DEDUCED, log 155). -/
def sideOf (d : Dev) (line : Nat) : SideBand :=
  let ver := d.verCommitted.toNat % 65536
  let tier := fun n => if hotLine d line then 3 else n
  match regionAt d (line * 64) with
  | none => ⟨0, ver, tier 0, false⟩
  | some r => ⟨r.obj, ver, tier r.tier, r.tier == 2⟩

/-- What a write to a line does to the object that has it: in a cache region it sets the slot's bit in the dirty map (R331), in
the home region it is noted when a slot holds the page (R342). -/
def lineWritten (ob : MemObj) (tier off : Nat) : MemObj :=
  if tier = 2 then { ob with dirty := smSet false ob.dirty (off / 4096) true }
  else if ob.dir.any (fun e => e.2 == off / 4096 + 1) then { ob with clash := smSet false ob.clash (off / 64) true }
  else ob

/-- The note of a write to a line in the object of its region. -/
def markDirty (d : Dev) (line : Nat) : Dev :=
  match regionAt d (line * 64) with
  | none => d
  | some r => { d with objs := smMod none d.objs r.obj (fun o => o.map (fun ob => lineWritten ob r.tier (line * 64 - r.base))) }

/-- Write the side-band of one line, if it lies in HBM or the Shelf. -/
def writeSide (d : Dev) (line : Nat) : Dev :=
  if line * 64 < hbmBase 0 then d
  else markDirty { d with side := smSet none d.side line (some (sideOf d line)) } line

/-- The lines that bytes `a` to `a + n - 1` touch. -/
def linesOf (a n : Nat) : List Nat :=
  if n = 0 then [] else (List.range ((a + n - 1) / 64 - a / 64 + 1)).map (fun i => a / 64 + i)

/-- Write bytes at local address `a`; partial lines are merged (R331). -/
def memWrite (d : Dev) (a : Nat) (bs : List Byte) : Dev :=
  (linesOf a bs.length).foldl writeSide { d with mem := smSetList 0 d.mem a bs }

/-- Write zero to `n` bytes at `a`. -/
def memZero (d : Dev) (a n : Nat) : Dev :=
  (linesOf a n).foldl writeSide
    { d with mem := d.mem.filter (fun c => decide (c.1 < a) || decide (a + n ≤ c.1)) }

/-- A free choice among `n` things, the `j`-th that an act makes whose free values have number `seed`. -/
def freePick (seed j n : Nat) : Nat := (Config.freeCount (seed * 4294967296 + j)).toNat % n

/-- Undefined bytes (R18): byte `j` is byte `j` of one of the values involved, each byte by a choice of its own. -/
def mixBytes (seed j0 n : Nat) (vs : List (List Byte)) : List Byte :=
  (List.range n).map (fun j => (vs.getD (freePick seed (j0 + j) vs.length) []).getD j 0)

/-- An undefined number of `n` bytes (R18). -/
def mixNat (seed j0 n : Nat) (vs : List Nat) : Nat := leNat (mixBytes seed j0 n (vs.map (natLe n)))

/-- The `n` bytes from `a` on become undefined (R18): each is what stands there or the byte of one of `vs`. -/
def memMix (d : Dev) (a n : Nat) (vs : List (List Byte)) : Dev :=
  bump (memWrite d a (mixBytes d.freeIdx 0 n (memRead d a n :: vs)))

/-- The `n` bytes from `a` on become undefined where a value involved never came to the module: they are free (log 85). -/
def memLoose (d : Dev) (a n : Nat) : Dev :=
  bump (memWrite d a ((List.range n).map (fun i => Config.freeByte (d.freeIdx * 4294967296 + i))))

/-! ### Tallies -/

/-- A tally reference names a tally (Table 4-11): its domain is not 3, its reserved bits are zero, and a hub index is
below 256. -/
def tallyRefOk (r : Nat) : Bool :=
  decide (r < 65536) && bits r 14 2 != 3 && bits r 10 4 == 0 && !(bits r 14 2 == 2 && decide (256 ≤ bits r 0 10))

/-- The key of a tally: domain * 1024 + index. -/
def tallyKey (r : Nat) : Nat := bits r 14 2 * 1024 + bits r 0 10

/-- The tally that a reference names. -/
def tallyGet (d : Dev) (r : Nat) : TallyV := smGet tally0 d.tallies (tallyKey r)

/-- A signal (R109): add, or saturate and set TALLY_SAT. -/
def tallyAddV (t : TallyV) (inc : Nat) : TallyV :=
  if t.val.toNat + inc < 2 ^ 32 then ⟨BitVec.ofNat 32 (t.val.toNat + inc), t.sat⟩ else ⟨0xFFFFFFFF, true⟩

/-- What a wait finds (R108, R109): 0 not met, 1 met, 2 a saturated tally or a target above 0xFFFF_FFFF. -/
def waitTest (t : TallyV) (e cond v : Nat) : Nat :=
  if t.sat || decide (2 ^ 32 ≤ e + v) then 2
  else if cond = 3 then (if t.val.toNat = e + v then 1 else 0)
  else if e + v ≤ t.val.toNat then 1 else 0

/-- The verdict on a wait whose verdict so far is `res`: one that was met stays met (R109). -/
def waitStill (res : Nat) (t : TallyV) (e cond v : Nat) : Nat := if res = 0 then waitTest t e cond v else res

/-- The expectation after a wait that was met: AT_LEAST_ADV sets it to the target (R108). -/
def waitExp (e cond v : Nat) : Nat := if cond = 2 then e + v else e

/-! ### The host link -/

/-- An enabled function claims memory requests: the module is host-ready, the link is up, the function exists, its Memory
Space Enable is set, and it is not in D3hot (R560, R457). -/
def claimed (d : Dev) (fn : Nat) : Bool :=
  d.pow.phase == .hostReady && d.host.dlUp && (fn == 0 || (d.host.vfEnable && decide (fn ≤ d.host.numVfs))) &&
    d.host.mse.contains fn && !d.host.d3hot.contains fn

/-- MSI-X vectors of a function (R449). -/
def vectorCount (fn : Nat) : Nat := if fn = 0 then 1152 else 128

/-- Put something on the host link. -/
def hostPut (d : Dev) (o : HostOut) : Dev := { d with out := { d.out with host := d.out.host ++ [o] } }

/-- A write to host memory through the egress queue (R454). -/
def hostWrite (d : Dev) (fn addr : Nat) (bs : List Byte) : Dev :=
  pcAdd (hostPut d (.memWrite fn addr bs)) kHostTx bs.length

/-- Send a function's MSI-X vector (R449): nothing while MSI-X is disabled; a masked vector becomes pending. -/
def msixSend (d : Dev) (fn vec : Nat) : Dev :=
  if vec < vectorCount fn ∧ d.host.msixEnable.contains fn then
    let e := smGet msix0 d.host.msix (fn * 2048 + vec)
    if e.masked || d.host.msixFnMask.contains fn then
      { d with host := { d.host with msix := smSet msix0 d.host.msix (fn * 2048 + vec) { e with pend := true } } }
    else hostPut d (.msix fn vec e.addr e.data)
  else d

end Sys2Proof.Machine
end

