-- ==== Sys2Proof/Machine/Ledger.lean ====
section
/-!
DEFINITION. The Logbook's records (R433 to R436, R563) and the Ledger: counters with their one-time events, the event
log, counter frames, and the retirements read from them (R507 to R519, R424, R425).
-/

namespace Sys2Proof.Machine

/-! ### Logbook records -/

/-- Severity of a type-6 record (Table 15-11): 0 information, 1 transient, 2 permanent, 3 lost. -/
def severity6 (st : Nat) : Nat :=
  if [stJournalLost, stHostLost, stSxRailFault, stSxThermTrip].contains st then 3
  else if [stMemNospare, stRhSite, stFwRejected, stSxPop, stSxCage, stSxStack, stLgFlash, stLgFull, stSecSelftest,
    stSecArbFull].contains st then 2
  else if [stGuardLate, stGuardSkiprun, stSxRailWarn, stSxThermWarn].contains st then 1
  else 0

/-- A record is detected (R434): it takes the next LB_SEQ and the stamp in force and waits to be sent. -/
def logRec (d : Dev) (ltype sev island unitKind unit st detail : Nat) (injected : Bool) (body : List Byte) : Dev :=
  let r : LogRec := ⟨ltype, sev + 4 * injected.toNat, island, unitKind, unit, st, d.log.nextSeq, d.lg.stamp,
    Config.freeTime d.freeIdx, detail, body⟩
  bump { d with log := { d.log with queued := d.log.queued ++ [r], nextSeq := d.log.nextSeq + 1 } }

/-- An event of another chapter (type 6), from the control cores, about the module or the unit named. -/
def log6 (d : Dev) (st unitKind unit : Nat) : Dev := logRec d 6 (severity6 st) 11 unitKind unit st 0 false []

/-- The modified EUI-64 link-local address of the part's MAC address (R433). -/
def linkLocal (mac : BitVec 48) : List Byte :=
  let m := natBe 6 mac.toNat
  [0xFE, 0x80, 0, 0, 0, 0, 0, 0, m.getD 0 0 ^^^ 2, m.getD 1 0, m.getD 2 0, 0xFF, 0xFE, m.getD 3 0, m.getD 4 0, m.getD 5 0]

/-- The source address in use (R433). -/
def logSource (o : Otp) (d : Dev) : List Byte :=
  if d.log.dest.src.all (· == 0) then linkLocal o.mac else d.log.dest.src

/-- Put something on the management port. -/
def mgmtPut (d : Dev) (m : MgmtOut) : Dev := { d with out := { d.out with mgmt := d.out.mgmt ++ [m] } }

/-- Send one record as a datagram, or hold it while the link is down; without a destination it stays in the ring only
(R433, R435). -/
def logSend (o : Otp) (d : Dev) (r : LogRec) : Dev :=
  if !d.log.dest.enable then d
  else if d.log.linkUp then
    pcAdd (mgmtPut d (.datagram d.log.dest.dst d.log.dest.port.toNat (logSource o d) d.log.dest.hopLimit.toNat r))
      kLogsent 1
  else { d with log := { d.log with held := d.log.held ++ [r] } }

/-- Keep a record in the ring; a full ring loses its oldest record (R435). -/
def ringPut (d : Dev) (r : LogRec) : Dev :=
  if d.log.ring.length < 2048 then { d with log := { d.log with ring := d.log.ring ++ [r] } }
  else pcAdd { d with log := { d.log with ring := d.log.ring.drop 1 ++ [r] } } kLoglost 1

/-! ### Ledger counters -/

/-- The threshold of a Ledger counter (Table 19-2). -/
def lgThreshold (i : Nat) : Option Nat :=
  if i = 0 then some 100000 else if i = 2 then some 100 else if i = 3 then some 10000
  else if i = 4 then some (2 ^ 20) else if i = 5 then some 8 else if i = 6 then some 4096
  else if i = 7 then some 4 else if i = 8 then some 1000 else if i = 9 then some 10000
  else if i = 10 then some 81920000 else if i = 11 then some 163840000 else if i = 12 then some 81920000
  else if 13 ≤ i ∧ i ≤ 15 then some (2 ^ 50) else none

/-- Counter `i` as it stands, uncommitted increments included. -/
def lgGet (d : Dev) (i : Nat) : W64 := smGet 0 d.lg.counts i

/-- Saturating increment (R507). -/
def lgBump (d : Dev) (i n : Nat) : Dev :=
  { d with lg := { d.lg with counts := smSet 0 d.lg.counts i (BitVec.ofNat 64 (satAdd 64 (lgGet d i).toNat n)) } }

/-- Insert an entry by its number, once. -/
def evMerge : List EvEntry → List EvEntry → List EvEntry
  | [], ys => ys
  | x :: xs, ys => evMerge xs
      (if ys.any (fun y => y.eseq == x.eseq) then ys
       else ys.takeWhile (fun y => decide (y.eseq < x.eseq)) ++ x :: ys.dropWhile (fun y => decide (y.eseq < x.eseq)))

/-- The event log: the union of the two copies in the order of EV_SEQ (R517). -/
def lgEvents (d : Dev) : List EvEntry := evMerge d.flash.copyA.events d.flash.copyB.events

/-- The number of the next event entry. -/
def evNext (d : Dev) : Nat := (((lgEvents d).getLast?).map (fun e => e.eseq + 1)).getD 0

/-- A Ledger copy is out of use for the run, because an erase or program failed through its retries (R518). -/
def lgDropBad (d : Dev) : Dev :=
  let d := if d.flash.badA && d.lg.aUp then log6 { d with lg := { d.lg with aUp := false } } stLgFlash 7 0 else d
  if d.flash.badB && d.lg.bUp then log6 { d with lg := { d.lg with bUp := false } } stLgFlash 7 0 else d

/-- Write one entry to the copies that stand (R516), within the space of R519. -/
def evPut (d : Dev) (kind sub unit value : Nat) : Dev :=
  let d := lgDropBad d
  let n := (lgEvents d).length
  if !(d.lg.aUp || d.lg.bUp) then d
  else if 49152 ≤ n then
    if d.lg.fullLogged < 2 then log6 { d with lg := { d.lg with fullLogged := 2 } } stLgFull 7 0 else d
  else if 40960 ≤ n ∧ ¬[2, 3, 4, 5, 8].contains kind then
    if d.lg.fullLogged < 1 then log6 { d with lg := { d.lg with fullLogged := 1 } } stLgFull 7 0 else d
  else
    let e : EvEntry := ⟨kind, sub, unit, evNext d, d.lg.stamp, (lgGet d 0).toNat % 2 ^ 32,
      Config.freeTime d.freeIdx, value⟩
    let fl := d.flash
    bump { d with flash := { fl with
      copyA := if d.lg.aUp then { fl.copyA with events := fl.copyA.events ++ [e] } else fl.copyA,
      copyB := if d.lg.bUp then { fl.copyB with events := fl.copyB.events ++ [e] } else fl.copyB } }

/-- An entry, with the stamp entry before the first entry that refers to a stamp (R512). -/
def evAppend (d : Dev) (kind sub unit value : Nat) : Dev :=
  if d.lg.stamp ≠ 0 ∧ !d.lg.stampWritten then
    evPut (evPut { d with lg := { d.lg with stampWritten := true } } 1 0 0 d.lg.stampValue.toNat) kind sub unit value
  else evPut d kind sub unit value

/-- The one-time events of a counter (R507), the threshold first. -/
def lgCheck (d : Dev) (i : Nat) : Dev :=
  let v := (lgGet d i).toNat
  let d := match lgThreshold i with
    | some t =>
      if t ≤ v ∧ ¬d.lg.thr.contains i then
        evAppend (log6 { d with lg := { d.lg with thr := d.lg.thr ++ [i] } } stLgThreshold 7 0) 9 1 i v
      else d
    | none => d
  if v = 2 ^ 64 - 1 ∧ ¬d.lg.maxed.contains i then
    evAppend (log6 { d with lg := { d.lg with maxed := d.lg.maxed ++ [i] } } stLgSaturated 7 0) 9 2 i v
  else d

/-- Whether an island of R509 is powered: it is not fused off, and a Shelf controller is not in reset (R28, R495). -/
def islandOn (o : Otp) (n : Nat) : Bool :=
  if n < 32 then present o 1 n else if n < 48 then present o 2 (n - 32) else if n < 80 then present o 3 (n - 48)
  else if n < 88 then present o 4 (n - 80) else if 141 ≤ n then grade o != 3 else true

/-- The island counters gain the powered cycles since they were last brought up to date (R509): free values. -/
def lgIslands (o : Otp) (d : Dev) : Dev :=
  bump ((List.range 153).foldl (fun d n =>
    if islandOn o n then lgCheck (lgBump d (17 + n) (Config.freeCycles d.freeIdx n).toNat) (17 + n) else d) d)

/-- Write the next frame to each copy that stands (R516). -/
def lgWrite (d : Dev) : Dev :=
  let d := lgDropBad d
  if !(d.lg.aUp || d.lg.bUp) then d
  else
    let d := lgBump d 10 (d.lg.aUp.toNat + d.lg.bUp.toNat)
    let f : LgFrame := ⟨d.lg.commit + 1, d.lg.counts, d.lg.thr, d.lg.maxed⟩
    let fl := d.flash
    { d with
      lg := { d.lg with commit := d.lg.commit + 1 },
      flash := { fl with
        copyA := if d.lg.aUp then { fl.copyA with frames := (f :: fl.copyA.frames).take 256 } else fl.copyA,
        copyB := if d.lg.bUp then { fl.copyB with frames := (f :: fl.copyB.frames).take 256 } else fl.copyB } }

/-- Commit the counters (R516). -/
def lgCommit (o : Otp) (d : Dev) : Dev :=
  if d.lg.loaded then lgCheck (lgWrite (lgIslands o d)) 10 else d

/-- The counters that may lose what was added since the last commit: island cycles, stress units, thermal excursions (R516). -/
def lgLossy (i : Nat) : Bool := i == 3 || (decide (13 ≤ i) && i != 16)

/-- Add to a Ledger counter. The counters are committed with a one-time event, and with every addition that R516 does not let an
input loss take (R507, R516). -/
def lgAdd (o : Otp) (d : Dev) (i n : Nat) : Dev :=
  if !d.lg.loaded then d
  else
    let d' := lgCheck (lgBump d i n) i
    if lgLossy i ∧ d'.lg.thr.length = d.lg.thr.length ∧ d'.lg.maxed.length = d.lg.maxed.length then d' else lgCommit o d'

/-- Enter an event in the event log and commit the counters (R511, R516). -/
def lgEvent (o : Otp) (d : Dev) (kind sub unit value : Nat) : Dev :=
  if d.lg.loaded then lgCommit o (evAppend d kind sub unit value) else d

/-- The frame with the highest commit number in either copy (R517). -/
def lgBest (d : Dev) : Option LgFrame :=
  match d.flash.copyA.frames.head?, d.flash.copyB.frames.head? with
  | some a, some b => some (if a.commit < b.commit then b else a)
  | some a, none => some a
  | none, b => b

/-- The firmware takes the Ledger from the flash (R517); what was not committed is lost. -/
def lgLoad (d : Dev) : Dev :=
  let l : Ledger := match lgBest d with
    | some f => { Ledger.reset with loaded := true, counts := f.counts, thr := f.thr, maxed := f.maxed, commit := f.commit }
    | none => { Ledger.reset with loaded := true }
  { d with lg := l }

/-! ### Retirement -/

/-- LB_ISLAND of a unit (Table 15-8, Table 1-4). -/
def unitIsland (u : Nat) : Nat := if 224 ≤ u then 9 else u / 32

/-- LB_UNIT_KIND and LB_UNIT of a unit. -/
def unitLb (u : Nat) : Nat × Nat := if 224 ≤ u then (2, u - 224) else (1, u)

/-- The combiner of an EBE is emptied (R202, R422); its areas stay. -/
def combEmpty (d : Dev) (n : Nat) : Dev :=
  { d with combs := smMod comb0 d.combs n (fun c =>
      { c with state := 0, step := 0, spilled := false, keys := [], spills := [] }) }

/-- A unit is retired (R424, R425): it leaves the usable set, and the Ledger and the Logbook record it. An EBE loses its
combiner (R422). -/
def retireUnit (o : Otp) (d : Dev) (u : Nat) : Dev :=
  let d := unitSet d u { unitGet d u with state := 2 }
  let d := if u / 32 = 3 then combEmpty d (u % 32) else d
  let d := logRec d 2 2 (unitIsland u) (unitLb u).1 (unitLb u).2 stEngineRetired 0 false []
  let d := lgAdd o d 7 1
  if 224 ≤ u then lgEvent o d 4 (u - 224) 0 0 else lgEvent o d 3 0 u 0

/-- One event of a unit, and its consequence (R424): SUSPECT at the first, RETIRED at the threshold. -/
def unitEvent (o : Otp) (d : Dev) (u threshold n : Nat) : Dev :=
  let v := unitGet d u
  let d := unitSet d u { v with events := v.events + n, state := if v.state = 0 then 1 else v.state,
                                clean := 0 }
  if v.state ≠ 2 ∧ threshold ≤ v.events + n then retireUnit o d u else d

/-- One operation of a unit; at the window's end both counts return to zero (R424). -/
def unitOp (d : Dev) (u window n : Nat) : Dev :=
  let v := unitGet d u
  if window ≤ v.ops + n then unitSet d u { v with ops := 0, events := 0 } else unitSet d u { v with ops := v.ops + n }

/-- Load the retirements from the event log (R425, R511): kinds 3 and 4 retire, kind 8 clears. -/
def loadRetired (d : Dev) : Dev :=
  (lgEvents d).foldl (fun d e =>
    if e.kind = 3 then unitSet d e.unit { unitGet d e.unit with state := 2 }
    else if e.kind = 4 then unitSet d (collKey e.sub) { unitGet d (collKey e.sub) with state := 2 }
    else if e.kind = 8 then unitSet d e.unit unit0
    else d) d

/-! ### Fixes -/

/-- Record a fix (R492): its number is one more than the last of its kind and source. -/
def putFix (d : Dev) (kind source flags : Nat) (body : List Byte) : Dev :=
  let k := kind * 256 + source
  let n : W64 := match smGet none d.sx.fixes k with
    | some f => f.fseq + 1
    | none => 0
  let f : FixRec := ⟨flags, d.lg.stamp, Config.freeTime d.freeIdx, n, padTo 36 body⟩
  pcAdd (bump { d with sx := { d.sx with fixes := smSet none d.sx.fixes k (some f) } }) kSxFixes 1

end Sys2Proof.Machine
end

