-- ==== Sys2Proof/Machine/Arrays.lean ====
section
/-!
DEFINITION. The control arrays at use (R411, R413, R439), and the acts on tallies with the waits that they wake (R109).
-/

namespace Sys2Proof.Machine

/-! ### Tallies -/

/-- The wait that a stream has pending, after tally `k` has become `t`. -/
def streamSees (k : Nat) (t : TallyV) (v : Stream) : Stream :=
  match v.waits with
  | w :: rest =>
    if tallyKey (nth v.tallies w.binding) = k then
      { v with waits := { w with res := waitStill w.res t (nth v.exps w.binding) w.cond w.value } :: rest }
    else v
  | [] => v

/-- The wait of a queue's next command, after tally `k` has become `t`. -/
def queueSees (k : Nat) (t : TallyV) (v : Queue) : Queue :=
  match v.parsed with
  | c :: _ =>
    let b := bits c.wait 11 3
    if bits c.wait 14 2 ≠ 0 ∧ tallyKey (v.binds.getD b 0xFFFF) = k then
      { v with waitRes := waitStill v.waitRes t (nth v.exps b) (bits c.wait 14 2) (bits c.wait 0 11) }
    else v
  | [] => v

/-- The wait of a plan's entry in progress, after tally `k` has become `t`. -/
def planSees (k : Nat) (t : TallyV) (p : Plan) : Plan :=
  let w := fld p.entry 4 4
  let b := bits w 27 3
  if p.phase = 3 ∧ tallyKey (nth p.tallies b) = k then
    { p with waitRes := waitStill p.waitRes t (nth p.exps b) (bits w 30 2) (bits w 0 24) }
  else p

/-- One act on a tally: it takes its new value, and every wait that is pending on it is evaluated (R109). -/
def tallyStore (d : Dev) (k : Nat) (t : TallyV) : Dev :=
  { d with tallies := smSet tally0 d.tallies k t,
           streams := d.streams.map (fun p => (p.1, p.2.map (streamSees k t))),
           queues := d.queues.map (fun p => (p.1, p.2.map (queueSees k t))),
           plans := d.plans.map (fun p => (p.1, p.2.map (planSees k t))) }

/-! ### Errors in control arrays -/

/-- The island class of a control array, in the model's numbering: 0 tallies, 1 HRD entries, 2 combiner directories, 3 slot
directories, 4 dirty maps, 5 Catalog side states, 6 version slot state, 7 version record, 8 reduction and relay tables,
9 router header state, 10 saturated-position bits, 11 stored Catalog and parameter entries. -/
def arrayIsland (a : Nat) : Nat := if a = 0 then 7 else if a = 1 then 8 else if a = 2 then 3 else if a = 10 then 1 else 10

/-- What an uncorrectable error in entry `i` of array `a` does to the module (R413); in arrays 8 to 10 it is the command or
stream that read the entry which fails. -/
def arrayLose (d : Dev) (a i : Nat) : Dev :=
  if a = 0 then tallyStore d i ⟨0xFFFFFFFF, true⟩
  else if a = 1 then { d with hrd := smSet 0 d.hrd i 0 }
  else if a = 2 then { d with combs := smMod comb0 d.combs i (fun c => { c with state := 2 }) }
  else if a = 3 ∨ a = 4 then
    let f : MemObj → MemObj := fun ob => { ob with lost := true }
    { d with objs := smMod none d.objs i (fun x => x.map f) }
  else if a = 5 ∨ a = 6 ∨ a = 7 ∨ a = 11 then { d with int := { d.int with noCommit := true } }
  else d

/-- An error of `n` bits has been found in array `a`: counted and corrected, or logged as lost (R413, R438). -/
def ctlNote (d : Dev) (a n : Nat) (injected : Bool) : Dev :=
  if n = 1 then
    let d := pcAdd d kCtlfix 1
    if injected then logRec d 1 1 (arrayIsland a) 6 a stOk 0 true [] else d
  else logRec d 3 3 (arrayIsland a) 6 a stCtlLost 0 injected []

/-- The module reads entry `i` of array `a`: a flip that DZ_INT_INJECT has set there is found (R413, R439). The second
component says that the entry is lost. -/
def ctlUse (d : Dev) (a i : Nat) : Dev × Bool :=
  match d.int.injects.find? (fun x => (x.kind == 1 || x.kind == 2) && x.unit == a && x.index == i) with
  | none => (d, false)
  | some x =>
    let d := ctlNote { d with int := { d.int with injects := d.int.injects.erase x } } a x.kind true
    if x.kind = 2 then (arrayLose d a i, true) else (d, false)

/-- The tally that a reference names is read. -/
def tallyLook (d : Dev) (r : Nat) : Dev := (ctlUse d 0 (tallyKey r)).1

/-- A signal (R109): add an increment to the tally that a reference names. -/
def tallyAdd (d : Dev) (r inc : Nat) : Dev :=
  tallyStore (tallyLook d r) (tallyKey r) (tallyAddV (tallyGet (tallyLook d r) r) inc)

end Sys2Proof.Machine
end

