-- ==== Sys2Proof/Machine/Dz.lean ====
section
/-!
DEFINITION. What every mailbox message's meaning uses: the sender that a channel stands for, the answers, and the form
checks (R462, R561, R562).
-/

namespace Sys2Proof.Machine

/-- The function whose mailbox a channel is: channels 0 to 8 the physical function, 8 + v virtual function v; the MCTP
channel 16 speaks for no function and is numbered 0 here (R462). -/
def fnOf (ch : Nat) : Nat := if ch ≤ 8 then 0 else if ch ≤ 15 then ch - 8 else 0

/-- The channel is a virtual function's mailbox. -/
def isVf (ch : Nat) : Bool := decide (9 ≤ ch) && decide (ch ≤ 15)

/-- ST_OK with a reply payload. -/
def dzOk (d : Dev) (p : List Byte) : DzRes := ⟨d, stOk, p, none⟩

/-- A failing status: nothing changed, no payload. -/
def dzErr (d : Dev) (st : Nat) : DzRes := ⟨d, st, [], none⟩

/-- A reply that waits for an event (R471). -/
def dzWait (d : Dev) (w : Defer) : DzRes := ⟨d, stOk, [], some w⟩

/-- A message that only the physical function and the MCTP channel may send. -/
def dzPf (ch : Nat) (d : Dev) (denied : Nat) (r : DzRes) : DzRes := if isVf ch then dzErr d denied else r

/-- A check of R561: its failure gives the status, otherwise the rest is done. -/
def dzNeed (d : Dev) (ok : Bool) (st : Nat) (r : DzRes) : DzRes := if ok then r else dzErr d st

/-- The status of the first check that fails. -/
def firstBad : List (Bool × Nat) → Nat
  | [] => stOk
  | (ok, st) :: t => if ok then firstBad t else st

end Sys2Proof.Machine
end

