-- ==== Sys2Proof/Machine/Almanac.lean ====
section
/-!
DEFINITION. The calendar and the Ledger's messages: Almanac stamps (R512), counter and event reads, the commit timer
(R516), and DZ_PC_OVF_CLEAR (R506, R521).
-/

namespace Sys2Proof.Machine

/-- The 64 bytes of an event-log entry (Table 19-3). -/
def evBytes (e : EvEntry) : List Byte :=
  sealRec (natLe 1 e.kind ++ natLe 1 e.sub ++ natLe 2 e.unit ++ natLe 4 e.eseq ++ natLe 4 e.stamp ++ natLe 4 e.power ++
    natLe 8 e.since.toNat ++ natLe 8 e.value ++ zeros 28)

/-- DZ_ALMANAC_SET (R512): the stamp takes the next index and is in force at once. -/
def hAlmanacSet (ch : Nat) (p : List Byte) (o : Otp) (d : Dev) : DzRes :=
  dzPf ch d stLgDenied <|
  let d := lgAdd o d 16 1
  let n := (lgGet d 16).toNat
  let d := { d with lg := { d.lg with stamp := n % 2 ^ 32, stampValue := BitVec.ofNat 64 (fld p 0 8), stampWritten := false } }
  dzOk (bump d) (natLe 4 n ++ zeros 4 ++ natLe 8 (Config.freeTime d.freeIdx).toNat)

/-- DZ_LEDGER_READ. -/
def hLedgerRead (ch : Nat) (p : List Byte) (o : Otp) (d : Dev) : DzRes :=
  dzPf ch d stLgDenied <|
  let i := fld p 0 1
  let n := fld p 1 1
  dzNeed d (zeroAt p 2 6 && decide (i < 170) && decide (1 ≤ n ∧ n ≤ 170 - i)) stLgParam <|
  let d := lgIslands o d
  dzOk d (natLe 8 d.lg.commit ++ (List.range n).flatMap (fun j => natLe 8 (lgGet d (i + j)).toNat) ++
    (List.range n).flatMap (fun j => natLe 1 (ofBits [d.lg.thr.contains (i + j), d.lg.maxed.contains (i + j)])))

/-- DZ_LEDGER_EVENTS. -/
def hLedgerEvents (ch : Nat) (p : List Byte) (_o : Otp) (d : Dev) : DzRes :=
  dzPf ch d stLgDenied <|
  let i := fld p 0 4
  let n := fld p 4 1
  dzNeed d (zeroAt p 5 3 && decide (1 ≤ n ∧ n ≤ 60)) stLgParam <|
  dzOk d (natLe 4 (evNext d) ++ natLe 4 (lgEvents d).length ++
    ((lgEvents d).filter (fun e => decide (i ≤ e.eseq ∧ e.eseq < i + n))).flatMap evBytes)

/-- DZ_LEDGER_COMMIT (R516, R518). -/
def hLedgerCommit (ch : Nat) (_p : List Byte) (o : Otp) (d : Dev) : DzRes :=
  dzPf ch d stLgDenied <|
  let d := lgCommit o d
  dzNeed d (d.lg.aUp || d.lg.bUp) stLgFlash <|
  dzOk d (natLe 8 d.lg.commit)

/-- DZ_PC_OVF_CLEAR (R506): every overflow bit of the module, as one act. -/
def hPcOvfClear (ch : Nat) (_p : List Byte) (_o : Otp) (d : Dev) : DzRes :=
  dzPf ch d stLgDenied <|
  dzOk { d with pcs := d.pcs.filterMap (fun c => if c.2.val = 0 then none else some (c.1, { c.2 with ovf := false })) } []

/-- The firmware runs (R516, R435). -/
def fwRuns (d : Dev) : Bool := d.pow.phase == .firmware || d.pow.phase == .hostReady

/-- LEDGER_COMMIT_TIMER (R516). -/
def ledgerTimerDev (o : Otp) (d : Dev) : Dev := if fwRuns d then lgCommit o d else d

/-- LEDGER_COMMIT_TIMER. -/
def execLedgerCommitTimer (s : State) : Host.Outcome State Fault Refusal := runDev ledgerTimerDev s

end Sys2Proof.Machine
end

