-- ==== Sys2Proof/Machine/Mgmt.lean ====
section
/-!
DEFINITION. The Logbook on the management port (R433 to R436), specimen fragments (R431, R432), and the integrity
messages of Table 15-10 that need no known-answer run.
-/

namespace Sys2Proof.Machine

/-! ### Sending -/

/-- LOGBOOK_SEND (R435, R436): the oldest record waiting goes into the ring and out on the port, with the vector of
DZ_INT_CONFIG for types 1 to 3; a permanent or lost record is due for a repeat. -/
def logbookSendDev (o : Otp) (d : Dev) : Dev :=
  match d.log.queued with
  | [] => d
  | r :: t =>
    if ¬fwRuns d then d
    else
      let d := ringPut { d with log := { d.log with queued := t } } r
      let d := if 1 ≤ r.ltype ∧ r.ltype ≤ 3 ∧ d.int.vector ≠ 0xFFFF then msixSend d 0 d.int.vector.toNat else d
      let d := logSend o d r
      if 2 ≤ r.flags % 4 then { d with log := { d.log with repeats := d.log.repeats ++ [{ r with flags := r.flags ||| 8 }] } }
      else d

/-- LOGBOOK_SEND. -/
def execLogbookSend (s : State) : Host.Outcome State Fault Refusal := runDev logbookSendDev s

/-- LOGBOOK_REPEAT (R435): the same record with the repeat flag. -/
def logbookRepeatDev (o : Otp) (d : Dev) : Dev :=
  match d.log.repeats with
  | [] => d
  | r :: t => if fwRuns d then logSend o { d with log := { d.log with repeats := t } } r else d

/-- LOGBOOK_REPEAT. -/
def execLogbookRepeat (s : State) : Host.Outcome State Fault Refusal := runDev logbookRepeatDev s

/-- MANAGEMENT_LINK_UP (R435): the records held while the link was down are sent, in order. -/
def managementLinkUpDev (o : Otp) (d : Dev) : Dev :=
  if d.pow.phase = .off then d
  else d.log.held.foldl (logSend o) { d with log := { d.log with linkUp := true, held := [] } }

/-- MANAGEMENT_LINK_UP. -/
def execManagementLinkUp (s : State) : Host.Outcome State Fault Refusal := runDev managementLinkUpDev s

/-- ICMPV6_ECHO_REQUEST (R433): answered for the module's own addresses. -/
def echoDev (src dst : List Byte) (ident sqn : Nat) (data : List Byte) (o : Otp) (d : Dev) : Dev :=
  if fwRuns d && d.log.linkUp && (dst == logSource o d || dst == linkLocal o.mac) then
    mgmtPut d (.echoReply src dst ident sqn data)
  else d

/-- ICMPV6_ECHO_REQUEST. -/
def execIcmpv6EchoRequest (src dst : List Byte) (ident sqn : Nat) (data : List Byte) (s : State) :
    Host.Outcome State Fault Refusal := runDev (echoDev src dst ident sqn data) s

/-- NEIGHBOR_DISCOVERY (R433): a solicitation of one of the module's own addresses is answered. -/
def neighborDev (src target : List Byte) (o : Otp) (d : Dev) : Dev :=
  if fwRuns d && d.log.linkUp && (target == logSource o d || target == linkLocal o.mac) then
    mgmtPut d (.advert src target o.mac)
  else d

/-- NEIGHBOR_DISCOVERY. -/
def execNeighborDiscovery (src target : List Byte) (s : State) : Host.Outcome State Fault Refusal :=
  runDev (neighborDev src target) s

/-! ### Specimens -/

/-- The number of fragments of a specimen: at most 1,000 data bytes each (Table 15-8). -/
def specFrags (sp : Specimen) : Nat := ceilDiv sp.bytes.length 1000

/-- SPECIMEN_FRAGMENT_SEND (R432): the next fragment, behind every record of a fault or event; the specimen is released
with its last fragment. -/
def specimenFragmentDev (o : Otp) (d : Dev) : Dev :=
  match d.int.specimen with
  | none => d
  | some sp =>
    if ¬fwRuns d ∨ d.log.queued ≠ [] then d
    else
      let body := natLe 8 sp.number ++ natLe 4 sp.next ++ natLe 4 (specFrags sp) ++ natLe 8 (sp.next * 1000) ++
        (sp.bytes.drop (sp.next * 1000)).take 1000
      let r : LogRec := ⟨4, 0, 9, 2, 0, 0, d.log.nextSeq, d.lg.stamp, Config.freeTime d.freeIdx, 0, body⟩
      let d := bump { d with log := { d.log with nextSeq := d.log.nextSeq + 1 } }
      let d := logSend o d r
      let rest := if sp.next + 1 < specFrags sp then some { sp with next := sp.next + 1 } else none
      { d with int := { d.int with specimen := rest } }

/-- SPECIMEN_FRAGMENT_SEND. -/
def execSpecimenFragmentSend (s : State) : Host.Outcome State Fault Refusal := runDev specimenFragmentDev s

/-- Capture a specimen (R431): only with capture on and an area set. The copy goes into the area; one that does not fit, or that
comes while another is held, is only counted. -/
def captureSpecimen (d : Dev) (bs : List Byte) : Dev :=
  if !d.int.capture || d.int.specSize == 0 then d
  else if d.int.specimen = none ∧ bs.length ≤ d.int.specSize then
    let d := memWrite d d.int.specBase bs
    { d with int := { d.int with specimen := some ⟨d.int.specCount, bs, 0⟩, specCount := d.int.specCount + 1 } }
  else { d with int := { d.int with specMissed := d.int.specMissed + 1 } }

/-- What the record of a case says of its specimen: the count of those not captured, where this is one of them (R431). -/
def specNote (before after : Dev) : List Byte :=
  if before.int.specMissed = after.int.specMissed then [] else natLe 8 after.int.specMissed

/-! ### Messages -/

/-- The header of a Logbook record followed by its body and CRC (Table 15-8). -/
def logBytes (d : Dev) (r : LogRec) : List Byte :=
  let h := natLe 4 0x4C425A44 ++ [1] ++ natLe 1 r.ltype ++ natLe 1 r.flags ++ natLe 1 r.island ++
    natLe 4 (ownCoord d) ++ natLe 1 r.unitKind ++ natLe 1 r.unit ++ natLe 2 r.status ++ natLe 8 r.lseq.toNat ++
    natLe 4 r.stamp ++ natLe 8 r.since.toNat ++ natLe 8 r.detail ++ natLe 2 r.body.length ++ zeros 2 ++ r.body
  sealRec h

/-- A sender that only the physical function's mailboxes serve, and for three messages MCTP (R439). -/
def intPf (ch : Nat) (d : Dev) (r : DzRes) : DzRes := dzPf ch d stIntDenied r

/-- DZ_INT_STATUS. -/
def hIntStatus (ch : Nat) (_p : List Byte) (o : Otp) (d : Dev) : DzRes :=
  intPf ch d <|
  dzOk d (natLe 8 (intEngines o d 2) ++ natLe 8 (intUnits o d 2) ++ natLe 8 (intEngines o d 1) ++
    natLe 8 (intUnits o d 1) ++ (List.range 6).flatMap (fun i => pcBytes d (kCtlfix + i)) ++
    natLe 1 (pcOvf d kCtlfix 6) ++ zeros 3 ++ natLe 4 d.int.libVersion ++ natLe 1 d.int.k ++ natLe 1 d.int.n ++ zeros 2)

/-- DZ_INT_CONFIG (R428, R431, R436). -/
def hIntConfig (ch : Nat) (p : List Byte) (_o : Otp) (d : Dev) : DzRes :=
  intPf ch d <|
  let v := fld p 4 2
  dzNeed d (decide (fld p 0 1 ≤ 20) && decide (1 ≤ fld p 1 1) && decide (fld p 2 1 < 2) && zeroAt p 3 1 &&
    zeroAt p 6 2 && (v == 0xFFFF || decide (v < 1152))) stIntParam <|
  dzOk { d with int := { d.int with k := fld p 0 1, n := fld p 1 1, capture := fld p 2 1 == 1,
                                    vector := BitVec.ofNat 16 v } } []

/-- DZ_INT_UNIT. -/
def hIntUnit (ch : Nat) (p : List Byte) (o : Otp) (d : Dev) : DzRes :=
  intPf ch d <|
  let kind := fld p 0 1
  let u := fld p 1 1
  let cls := u / 32
  dzNeed d (zeroAt p 2 6 && (kind == 1 || kind == 2) &&
    (if kind = 1 then decide (1 ≤ cls ∧ cls ≤ 4) && decide (u % 32 < classLimit cls) else decide (u < 2))) stIntParam <|
  dzNeed d (kind == 2 || present o cls (u % 32)) stEngineAbsent <|
  let v := unitGet d (if kind = 1 then u else collKey u)
  dzOk d (natLe 1 v.state ++ natLe 1 v.events ++ natLe 1 v.clean ++ zeros 5 ++ natLe 8 v.ops ++ natLe 8 v.lastKat.toNat)

/-- DZ_LOG_DEST (R433): stored in the flash. -/
def hLogDest (ch : Nat) (p : List Byte) (o : Otp) (d : Dev) : DzRes :=
  intPf ch d <|
  let src := (p.drop 8).take 16
  dzNeed d (decide (fld p 0 1 < 2) && zeroAt p 4 4 && fld p 2 2 != 0 && src.headD 0 != 0xFF) stIntParam <|
  let t : LogDest := ⟨fld p 0 1 == 1, p.getD 1 0, BitVec.ofNat 16 (fld p 2 2), src, (p.drop 24).take 16⟩
  let d := lgAdd o { d with log := { d.log with dest := t }, flash := { d.flash with logDest := t } } 12 1
  dzOk d (natBe 6 o.mac.toNat ++ zeros 2 ++ logSource o d)

/-- DZ_LOG_READ (R435). -/
def hLogRead (ch : Nat) (p : List Byte) (_o : Otp) (d : Dev) : DzRes :=
  intPf ch d <|
  let i := fld p 0 8
  let n := fld p 8 1
  dzNeed d (decide (1 ≤ n ∧ n ≤ 3) && zeroAt p 9 7) stIntParam <|
  let oldest := match d.log.ring with
    | r :: _ => r.lseq.toNat
    | [] => d.log.nextSeq.toNat
  dzOk d (natLe 8 oldest ++ natLe 8 d.log.nextSeq.toNat ++
    (d.log.ring.filter (fun r => decide (i ≤ r.lseq.toNat ∧ r.lseq.toNat < i + n))).flatMap (logBytes d))

/-- DZ_SPEC_AREA (R431). -/
def hSpecArea (ch : Nat) (p : List Byte) (_o : Otp) (d : Dev) : DzRes :=
  intPf ch d <|
  let a := fld p 0 8
  let n := fld p 8 8
  dzNeed d (isMul a 4096 && isMul n 4096) stIntParam <|
  dzNeed d (n == 0 || inHbm d a n) stAddrUnmapped <|
  dzOk { d with int := { d.int with specBase := a, specSize := n } } []

/-- DZ_INT_INJECT (R439): kinds 1 to 5, held until the fault can strike; the control arrays are numbered as at `arrayIsland`. -/
def hIntInject (ch : Nat) (p : List Byte) (o : Otp) (d : Dev) : DzRes :=
  intPf ch d <|
  let kind := fld p 0 1
  let u := fld p 1 1
  let cls := u / 32
  dzNeed d (zeroAt p 2 2 && decide (1 ≤ kind ∧ kind ≤ 5) && (decide (kind ≤ 2) || zeroAt p 4 4) &&
    (decide (2 < kind) || decide (u < 12)) && (kind != 3 || cls == 1) && (kind != 4 || (cls == 2 || cls == 3)) &&
    (!(kind == 3 || kind == 4) || decide (u % 32 < classLimit cls)) && (kind != 5 || decide (u < 20))) stIntParam <|
  dzNeed d (!(kind == 3 || kind == 4) || present o cls (u % 32)) stEngineAbsent <|
  dzOk { d with int := { d.int with injects := d.int.injects ++ [⟨kind, u, fld p 4 4⟩] } } []

/-- Take the first injected fault of a kind and unit, if one is held. -/
def takeInject (d : Dev) (kind u : Nat) : Bool × Dev :=
  if d.int.injects.any (fun i => i.kind == kind && i.unit == u) then
    let hit := fun i : Inject => !(i.kind == kind && i.unit == u)
    let rest := d.int.injects.takeWhile hit ++ (d.int.injects.dropWhile hit).drop 1
    (true, { d with int := { d.int with injects := rest } })
  else (false, d)

end Sys2Proof.Machine
end

