-- ==== Sys2Proof/Machine/Flags.lean ====
section
/-!
DEFINITION. NUM_MODE and the numeric flags (R47 to R49), and every conversion that sets them: operands as they are read
(R55), the last narrowing to a floating-point format (R50 to R52, R55, R56), conversions to integers (R57), requantisation
(R58), embedding row codes (R63, R65) and blockwise INT8 (R71).
-/

namespace Sys2Proof.Machine

/-! ### The flags (Table 2-3) -/

/-- ESC_BAD. -/
def fEscBad : Nat := 0x100
/-- ESC_FULL. -/
def fEscFull : Nat := 0x80
/-- NF_IN. -/
def fNfIn : Nat := 0x40
/-- NF_GEN. -/
def fNfGen : Nat := 0x20
/-- SAT_F. -/
def fSatF : Nat := 0x10
/-- SAT_I. -/
def fSatI : Nat := 0x08
/-- FLUSH_OUT. -/
def fFlushOut : Nat := 0x04
/-- FLUSH_IN. -/
def fFlushIn : Nat := 0x02

/-- A value with the flags that making it raised. -/
abbrev Flagged := Nat × Nat

/-- Raise flags in an engine's NUM_FLAGS register (R48). -/
def raiseFlags (d : Dev) (e fl : Nat) : Dev :=
  { d with numFlags := smMod 0 d.numFlags e (fun v => v ||| BitVec.ofNat 32 fl) }

/-! ### NUM_MODE (Table 2-2) -/

/-- The mode's RND field and reserved bits are defined (R47). -/
def modeOk (m : Nat) : Bool := decide (m < 16) && decide (m % 4 < 2)
/-- NUM_MODE.SAT. -/
def modeSat (m : Nat) : Bool := m.testBit 3
/-- NUM_MODE.SUBN. -/
def modeSubn (m : Nat) : Bool := m.testBit 2
/-- NUM_MODE.RND is stochastic. -/
def modeStoch (m : Nat) : Bool := m % 4 == 1

/-- The rounding that a mode directs for a value of a sign, with the hash of the element (R50, R52). -/
def modeRound (m hash : Nat) (neg : Bool) : RMode := if modeStoch m then .stoch neg hash else .even

/-! ### Operands and narrowing -/

/-- An operand as it is read (R55, R56): a subnormal becomes zero of its sign when SUBN = 0; NaN and infinity set NF_IN. -/
def readOp (f : Fmt) (m raw : Nat) : FVal × Nat :=
  if fIsSub f raw && !modeSubn m then (.fin (raw.testBit (f.eb + f.fb)) 0 0, fFlushIn)
  else (fDecode f raw, if fIsFinite f raw then 0 else fNfIn)

/-- The code of an overflow (R56). -/
def overflowCode (f : Fmt) (m : Nat) (neg : Bool) : Flagged :=
  if modeSat m then (fmtMax f neg, fSatF) else (fmtInf f neg, fNfGen)

/-- The last narrowing of a value to a format (R50, R52, R55, R56). -/
def narrow (f : Fmt) (m hash : Nat) (v : FVal) : Flagged :=
  match v with
  | .nan => (fmtNaN f, 0)
  | .inf neg => (fmtInf f neg, 0)
  | .fin neg k e =>
    if k = 0 then (fmtZero f neg, 0)
    else
      let r := fRound f (modeRound m hash neg) k e
      if fOver f r then overflowCode f m neg
      else
        let c := fPack f neg r
        if fIsSub f c && !modeSubn m then (fmtZero f neg, fFlushOut) else (c, 0)

/-- A value that leaves an accumulator or is moved whole: what it holds is no operand that SUBN flushes (R44, R55), a
non-finite one sets NF_IN (R56), and the last narrowing follows the mode. -/
def leaveAcc (f : Fmt) (m hash : Nat) (v : FVal) : Flagged :=
  let r := narrow f m hash v
  (r.1, r.2 ||| (if fvIsFin v then 0 else fNfIn))

/-- A value rounded to odd in a wider format (R51); none when a finite value lies beyond it. -/
def toOdd (f : Fmt) (v : FVal) : Option FVal :=
  match v with
  | .fin _ 0 _ => some v
  | .fin neg k e =>
    if fvLt (fDecode f (fmtMax f false)) (.fin false k e) then none
    else
      let r := fRound f .odd k e
      some (.fin neg r.q r.u)
  | _ => some v

/-- A narrowing through an intermediate format rounded to odd (R51). -/
def narrowVia (mid f : Fmt) (m hash : Nat) (v : FVal) : Flagged :=
  if mid = f then narrow f m hash v
  else match toOdd mid v with
    | some w => narrow f m hash w
    | none => overflowCode f m (fvNeg v)

/-- Saturate an integer to a range (R57). -/
def satInt (lo hi x : Int) : Int × Nat := if x < lo then (lo, fSatI) else if hi < x then (hi, fSatI) else (x, 0)

/-- The range of a signed integer of `n` bits. -/
def intLo (n : Nat) : Int := -((2 ^ (n - 1) : Nat) : Int)
/-- The upper bound of a signed integer of `n` bits. -/
def intHi (n : Nat) : Int := (2 ^ (n - 1) : Nat) - 1

/-- Conversion to an integer of range `lo` to `hi` (R57). -/
def toInt (m hash : Nat) (lo hi : Int) (v : FVal) : Int × Nat :=
  match v with
  | .nan => (0, fNfIn)
  | .inf neg => (if neg then lo else hi, fNfIn)
  | .fin neg k e => satInt lo hi (sgn neg (roundInt (modeRound m hash neg) k e))

/-! ### Element types (Table 3-3) -/

/-- Bits of an element type. -/
def etBits (t : Nat) : Nat :=
  if t = 0 ∨ t = 4 then 32 else if t = 1 ∨ t = 2 then 16 else if t = 3 ∨ t = 7 then 64 else if t = 5 then 8 else 4

/-- The type is a floating-point type. -/
def etFloat (t : Nat) : Bool := decide (t ≤ 3)

/-- The floating-point format of a type. -/
def etFmt (t : Nat) : Fmt := if t = 0 then fp32 else if t = 1 then bf16 else if t = 2 then fp16 else fp64

/-- The pairs of types that a conversion may join (R94): INT64 gives only INT64 and INT32, and only integers become
INT64. -/
def cvtAllowed (src dst : Nat) : Bool :=
  src == dst || (if src = 7 then dst == 4 else if dst = 7 then !etFloat src else true)

/-- The conversion of one element between types that differ (R94); equal types copy the bits. The escape codes of a source with
TD_ESC = 1 convert as the ordinary values −128 and −8 (DESIGN CHOICE, log 143). -/
def cvtElem (src dst m hash raw : Nat) : Flagged :=
  if src = dst then (raw, 0)
  else if etFloat src then
    let x := readOp (etFmt src) m raw
    if etFloat dst then
      let r := if src = 3 then narrowVia fp32 (etFmt dst) m hash x.1 else narrow (etFmt dst) m hash x.1
      (r.1, r.2 ||| x.2)
    else
      let n := etBits dst
      let r := toInt m hash (intLo n) (intHi n) x.1
      (ofSigned n r.1, r.2 ||| x.2)
  else
    let v := toSigned (etBits src) raw
    if etFloat dst then narrow (etFmt dst) m hash (fvInt v)
    else
      let n := etBits dst
      let r := satInt (intLo n) (intHi n) v
      (ofSigned n r.1, r.2)

/-- An element of a floating-point type widened exactly to FP32 (FP64 is narrowed by no caller). -/
def widen32 (t raw : Nat) : Nat := if t = 1 then bf16to32 raw else if t = 2 then fp16to32 raw else raw

/-! ### Requantisation (R58, R59) -/

/-- R58: the accumulator scaled, shifted with halves toward plus infinity, offset and saturated. -/
def requant (a : Int) (scale : Nat) (lo hi : Int) : Int × Nat :=
  let mult := toSigned 32 (scale % 2 ^ 32)
  let s := bits scale 32 6
  let z := toSigned 8 (bits scale 40 8)
  let p := a * mult
  let p := if s = 0 then p else (p + (2 ^ (s - 1) : Nat)) / (2 ^ s : Nat)
  satInt lo hi (p + z)

/-! ### FP32 steps with their flags (R48, R56) -/

/-- The flags of one FP32 step: NF_IN for an operand that is NaN or infinite; NF_GEN for a NaN from operands none of which
is one, or an infinity from finite operands. -/
def stepFlags (ops : List Nat) (r : Nat) : Nat :=
  let nan := fun x => fvIsNaN (fDecode fp32 x)
  (if ops.any (fun x => !finF x) then fNfIn else 0) |||
    (if (nan r && !ops.any nan) || (!nan r && !finF r && ops.all finF) then fNfGen else 0)

/-- A step of two operands. -/
def fl2 (g : Nat → Nat → Nat) (a b : Flagged) : Flagged :=
  (g a.1 b.1, a.2 ||| b.2 ||| stepFlags [a.1, b.1] (g a.1 b.1))

/-- A step of three operands. -/
def fl3 (g : Nat → Nat → Nat → Nat) (a b c : Flagged) : Flagged :=
  (g a.1 b.1 c.1, a.2 ||| b.2 ||| c.2 ||| stepFlags [a.1, b.1, c.1] (g a.1 b.1 c.1))

/-- A step of one operand. -/
def fl1 (g : Nat → Nat) (a : Flagged) : Flagged := (g a.1, a.2 ||| stepFlags [a.1] (g a.1))

/-- A value that raises no flag of its own. -/
def fl0 (a : Nat) : Flagged := (a, 0)

/-- A value divided by an exact integer, with one rounding (R194, R297). -/
def divIntF (a : Flagged) (n : Nat) : Flagged :=
  let r := fEnc fp32 (fvDiv (fDecode fp32 a.1) (fvInt n))
  (r, a.2 ||| stepFlags [a.1] r)

/-- `acc_add` of R195 with its flags; the sum alone decides them. -/
def accAddFl (a : (Nat × Nat) × Nat) (x : Nat) : (Nat × Nat) × Nat :=
  (accAdd a.1 x, a.2 ||| stepFlags [a.1.1, x] (addF a.1.1 x))

/-- `acc_merge` of R195 with its flags. -/
def accMergeFl (a b : Nat × Nat) : (Nat × Nat) × Nat :=
  (accMerge a b, stepFlags [a.1, b.1] (addF a.1 b.1))

/-! ### Embedding row codes (R60 to R65) -/

/-- Code `j` of a row's codes: 8-bit, or packed 4-bit (R67). -/
def rowCode (four : Bool) (codes : List Byte) (j : Nat) : Nat :=
  if four then bits (codes.getD (j / 2) 0).toNat (4 * (j % 2)) 4 else (codes.getD j 0).toNat

/-- The escape code. -/
def escCode (four : Bool) : Nat := if four then 8 else 0x80

/-- SIDE_INDEX of a header (Table 2-5). -/
def sideIndex (h : Nat) : Nat := bits h 36 28

/-- ESC_COUNT of a header, values above 4 treated as 4 (R63). -/
def escCount (h : Nat) : Nat := min 4 (bits h 32 4)

/-- Decode a row of `n` elements (R63, R64): `side` is its side-list entry, none when SIDE_INDEX names none. -/
def rowDecodeGo (four : Bool) (h : Nat) (codes : List Byte) (side : Option (List Byte)) :
    Nat → Nat → Nat → List Nat × Nat
  | 0, _, _ => ([], 0)
  | n + 1, j, k =>
    let c := rowCode four codes j
    if c = escCode four then
      let r := rowDecodeGo four h codes side n (j + 1) (k + 1)
      match side with
      | some s =>
        if k < escCount h then
          let x := fld s (4 * k) 4
          (x :: r.1, r.2 ||| (if finF x then 0 else fNfIn))
        else (0 :: r.1, r.2 ||| fEscBad)
      | none => (0 :: r.1, r.2 ||| fEscBad)
    else
      let v := fl3 fmaF (fl0 (fp16to32 (h % 65536))) (fl0 (ofIntF (toSigned (if four then 4 else 8) c)))
        (fl0 (fp16to32 (bits h 16 16)))
      let r := rowDecodeGo four h codes side n (j + 1) k
      (v.1 :: r.1, r.2 ||| v.2)

/-- Decode a row: its FP32 elements and the flags. -/
def rowDecode (four : Bool) (h : Nat) (codes : List Byte) (side : Option (List Byte)) (n : Nat) : List Nat × Nat :=
  rowDecodeGo four h codes side n 0 0

/-- One element of R65 before its escape is decided: the ordinary code, or the rank of an out-of-range element (class 2
NaN, 1 infinity, 0 finite, with its magnitude) and the bound it takes without an escape. -/
structure EncElem where
  code : Option Int
  cls : Nat
  mag : FVal
  bound : Int
  flags : Nat
  deriving DecidableEq, Repr

/-- The flags of a step on exact values (R48, R56): NF_IN for an operand that is NaN or infinite, NF_GEN for a NaN from
operands none of which is one, or an infinity from finite operands. -/
def exactFlags (a b r : FVal) : Nat :=
  (if fvIsFin a && fvIsFin b then 0 else fNfIn) |||
    (if fvIsNaN r then (if fvIsNaN a || fvIsNaN b then 0 else fNfGen)
     else if !fvIsFin r && fvIsFin a && fvIsFin b then fNfGen else 0)

/-- t = x - OFFSET and q = t / SCALE, each rounded to odd, then an integer (R65). A value beyond FP32 is an element beyond
the code range and raises no flag of its own (R51). -/
def encElem (four : Bool) (h m hash x : Nat) : EncElem :=
  let lim : Int := if four then 7 else 127
  let op := readOp fp32 m x
  let off := fDecode fp16 (bits h 16 16)
  let sc := fDecode fp16 (h % 65536)
  let t := fvSub op.1 off
  let t' := toOdd fp32 t
  let q := fvDiv (t'.getD t) sc
  let fl := op.2 ||| exactFlags op.1 off t ||| exactFlags (t'.getD t) sc q
  let bound := fun (neg : Bool) => if neg then -lim else lim
  match q with
  | .nan => ⟨none, 2, .nan, 0, fl⟩
  | .inf neg => ⟨none, 1, .inf false, bound neg, fl⟩
  | .fin neg _ _ =>
    match t', toOdd fp32 q with
    | some _, some (.fin n k e) =>
      let i := sgn n (roundInt (modeRound m hash n) k e)
      if -lim ≤ i ∧ i ≤ lim then ⟨some i, 0, fvAbs q, 0, fl⟩
      else ⟨none, 0, .fin false k e, bound n, fl⟩
    | _, _ => ⟨none, 0, fvAbs q, bound neg, fl⟩

/-- The rank order of R65: NaN first, then infinities, then the larger magnitude, then the lower column. -/
def encBefore (a b : Nat × EncElem) : Bool :=
  if a.2.cls ≠ b.2.cls then decide (b.2.cls < a.2.cls)
  else if fvLt b.2.mag a.2.mag then true
  else if fvLt a.2.mag b.2.mag then false
  else decide (a.1 ≤ b.1)

/-- The columns that take an escape slot: the first four in rank order. -/
def encEscapes (els : List (Nat × EncElem)) : List Nat :=
  (((els.filter (fun e => e.2.code.isNone)).mergeSort encBefore).take 4).map (·.1)

/-- The packed codes of a row (R67). -/
def packCodes (four : Bool) (codes : List Nat) : List Byte :=
  if four then (List.range (codes.length / 2)).map (fun i => BitVec.ofNat 8 (nth codes (2 * i) + 16 * nth codes (2 * i + 1)))
  else codes.map (BitVec.ofNat 8)

/-- Encode FP32 values into a row (R65): the new header, the packed codes, the side entry when the row has one, and the
flags. `hash` gives the hash of a column. -/
def rowEncode (four : Bool) (h m : Nat) (hasSide : Bool) (hash : Nat → Nat) (xs : List Nat) :
    Nat × List Byte × List Byte × Nat :=
  let els := (List.range xs.length).map (fun j => (j, encElem four h m (hash j) (nth xs j)))
  let esc := if hasSide then encEscapes els else []
  let code := fun (e : Nat × EncElem) => match e.2.code with
    | some i => ofSigned (if four then 4 else 8) i
    | none => if esc.contains e.1 then escCode four else ofSigned (if four then 4 else 8) e.2.bound
  let cols := (List.range xs.length).filter (fun j => esc.contains j)
  let side := padTo 16 (cols.flatMap (fun j => natLe 4 (nth xs j)))
  let fl := els.foldl (fun a e => a ||| e.2.flags |||
    (if e.2.code.isNone && !esc.contains e.1 then fEscFull else 0)) 0
  (setBits h 32 4 cols.length, packCodes four (els.map code), side, fl)

/-! ### Gradient formats (R69 to R71) -/

/-- The maximum magnitude of a list of finite values. -/
def maxAbs (l : List FVal) : FVal := l.foldl (fun a v => if fvLt a (fvAbs v) then fvAbs v else a) (.fin false 0 0)

/-- Encode a block of INT8B64 (R71) from its values, each with whether it overflowed FP32 on its way (R51: its code is then
the bound of its sign, with SAT_I, which is all that the overflow raises, also where it makes b infinite): codes, scale and
flags. NUM_MODE.SUBN does not act on b, which rounds to nearest even whatever the mode holds (DEDUCED, log 141). -/
def blockValues (m : Nat) (hash : Nat → Nat) (vs : List (FVal × Bool)) : List Nat × Nat × Nat :=
  if vs.any (fun v => !fvIsFin v.1) then (vs.map (fun _ => 0), fmtNaN fp32, fNfIn)
  else if vs.all (fun v => fvIsZero v.1) then (vs.map (fun _ => 0), 0, 0)
  else
    let b := fEnc fp32 (fvDiv (maxAbs (vs.map (·.1))) (fvInt 127))
    let el := (List.range vs.length).map (fun j =>
      let v := vs.getD j (.nan, false)
      let q := fvDiv v.1 (fDecode fp32 b)
      match v.2, toOdd fp32 q with
      | false, some w =>
        let r := toInt m (hash j) (-127) 127 w
        (r.1, r.2 ||| if finF b then exactFlags v.1 (fDecode fp32 b) q else 0)
      | _, _ => ((if fvNeg v.1 then -127 else 127 : Int), fSatI))
    (el.map (fun r => ofSigned 8 r.1), b, el.foldl (fun a r => a ||| r.2) 0)

/-- Encode a block of FP32 values in INT8B64 (R71), its operands read under a mode (R55). -/
def blockEncode (m : Nat) (hash : Nat → Nat) (xs : List Nat) : List Nat × Nat × Nat :=
  let ops := xs.map (readOp fp32 m)
  let r := blockValues m hash (ops.map (fun o => (o.1, false)))
  (r.1, r.2.1, r.2.2 ||| (if xs.all finF then ops.foldl (fun a o => a ||| o.2) 0 else 0))

/-- Decode one INT8B64 code (R71). -/
def blockDecode (code scale : Nat) : Nat := mulF (ofIntF (toSigned 8 code)) scale

/-- The FP32 bits of 2 to an integer power from -64 to 64. -/
def pow2F (k : Int) : Nat := ((127 + k).toNat) * 2 ^ 23

/-- FP16 with scale (R70): g times 2^k rounded once. -/
def scaledEncode (m hash : Nat) (k : Int) (x : Nat) : Flagged :=
  let o := readOp fp32 m x
  let r := narrow fp16 m hash (fvMul o.1 (fDecode fp32 (pow2F k)))
  (r.1, r.2 ||| o.2)

/-- FP16 with scale decoded: times 2^-k in FP32. -/
def scaledDecode (k : Int) (raw : Nat) : Nat := mulF (fp16to32 raw) (pow2F (-k))

end Sys2Proof.Machine
end

