-- ==== Sys2Proof/Machine/Queue.lean ====
section
/-!
DEFINITION. Command queues (chapter 5): doorbells (R142 to R144), fetch and the re-fetch rule (R145), parse checks (R147),
dispatch (R149, R151), completion (R150, R152, R153), halt and restart (R154 to R156), break units (R124) and the queue
messages (R159).
-/

namespace Sys2Proof.Machine

/-! ### Access -/

/-- Queue `q`, if it exists. -/
def qGet (d : Dev) (q : Nat) : Option Queue := smGet none d.queues q

/-- Replace queue `q`. -/
def qSet (d : Dev) (q : Nat) (v : Queue) : Dev := { d with queues := smSet none d.queues q (some v) }

/-- Change queue `q`, if it exists. -/
def qMod (d : Dev) (q : Nat) (f : Queue → Queue) : Dev :=
  match qGet d q with
  | some v => qSet d q (f v)
  | none => d

/-- Reads a global address as a local one when a virtual function may use it: the window check of R311 for `fn`, with
`wr` for a write. The physical function is not bound. -/
def windowOk (d : Dev) (fn ga n : Nat) (wr : Bool) : Bool :=
  fn == 0 || n == 0 || (isOwn d ga && (List.range 16).any (fun w =>
    let x := smGet ⟨0, 0, 0⟩ d.rrWindows (fn * 16 + w)
    (if wr then x.flags == 2 else x.flags == 1 || x.flags == 2) &&
      decide (x.base ≤ localOf ga) && decide (localOf ga + n ≤ x.base + x.size)))

/-- A tally reference lies inside the ranges of a function (R312). -/
def tallyInRange (d : Dev) (fn r : Nat) : Bool :=
  fn == 0 || (let x := smGet (0, 0) d.rrTallies (fn * 3 + bits r 14 2)
              decide (x.1 ≤ bits r 0 10) && decide (bits r 0 10 < x.1 + x.2))

/-! ### Completion records (R152, R153) -/

/-- Completion entries neither reserved nor waiting for the driver. -/
def cqFree (v : Queue) : Nat := 2 ^ v.j - subMod (2 ^ 24) v.cqIdx.toNat v.cqCons.toNat - v.reserved

/-- CQ_PHASE of the next record. -/
def cqPhase (v : Queue) : Bool := v.cqIdx.toNat / 2 ^ v.j % 2 == 0

/-- The 32 bytes of a completion record (Table 5-13). -/
def cqRecord (v : Queue) (sq tag op st detail flags : Nat) (count : W64) (halted : Bool) : List Byte :=
  sealRec (natLe 4 sq ++ natLe 2 tag ++ natLe 1 op ++ natLe 1 (ofBits [cqPhase v, halted]) ++ natLe 2 st ++
    natLe 2 detail ++ natLe 4 flags ++ natLe 8 count.toNat ++ zeros 4)

/-- The completion entry's address. -/
def cqAddr (v : Queue) : Nat := v.cqBase.toNat + 32 * (v.cqIdx.toNat % 2 ^ v.j)

/-- A completion ring in device memory lies inside an RW window of the virtual function that owns the queue (R311). -/
def cqWindow (d : Dev) (v : Queue) : Bool := !v.cqDev || windowOk d v.owner v.cqBase.toNat (32 * 2 ^ v.j) true

/-- Write a completion record, to host memory or to device memory, and send the queue's vector when asked or when the
status is not ST_OK (R153). A virtual function's record that lies outside its windows writes no byte (R311; DEDUCED, log
151). -/
def cqWrite (d : Dev) (q : Nat) (v : Queue) (sq tag op st detail flags : Nat) (count : W64) (halted irq : Bool) : Dev :=
  let a := cqAddr v
  let bs := cqRecord v sq tag op st detail flags count halted
  let d := if !v.cqDev then hostWrite d v.owner a bs else if windowOk d v.owner a 32 true then memWrite d (localOf a) bs else d
  let d := qMod d q (fun v => { v with cqIdx := v.cqIdx + 1 })
  if (irq || st != stOk) && v.vector != 0xFFFF then msixSend d v.owner v.vector.toNat else d

/-! ### Halt (R154) -/

/-- A draining queue with nothing dispatched and not done is halted. -/
def qDrain (v : Queue) : Queue := if v.run = 2 ∧ v.running = [] then { v with run := 3 } else v

/-- A halting cause: only the first is recorded. Commands parsed and not dispatched are discarded, and the parse point,
the parse sequence and the command count go back. -/
def qHaltV (v : Queue) (cause st unit : Nat) (sq : W32) : Queue :=
  if v.run = 1 then
    let cnt := match v.parsed with
      | c :: _ => c.count
      | [] => v.count
    qDrain { v with run := 2, haltCause := cause, haltStatus := st, haltUnit := unit, haltSeq := sq,
                    reserved := v.reserved - v.parsed.length, parsed := [], parsePt := v.cons,
                    parseSeq := v.nextSeq, count := cnt, refetch := 0, backoff := false, waitRes := 0 }
  else v

/-- A command that fired break units is discarded and will be parsed again: a unit in count mode is armed again, unless it
is the one that caused the halt, and no unit counts the command twice (R124, R154; DEDUCED, log 152). -/
def unfire (q : Nat) (causes : List Nat) (d : Dev) (c : Cmd) : Dev :=
  (c.fired.filter (fun u => !causes.contains u)).foldl (fun d u =>
    let b := smGet break0 d.breaks u
    let d := if b.mode = 1 ∧ b.queue = q ∧ b.count = c.count.toNat then
        { d with breaks := smSet break0 d.breaks u { b with armed := true } } else d
    if b.action = 2 then qMod d q (fun v => { v with matched := v.matched ++ [(u, c.cseq)] }) else d) d

/-- DQ_PC_WAITCYC counts the cycles that the next command has waited on its tally, a free value (R158). -/
def waitCount (d : Dev) (q : Nat) (c : Cmd) : Dev :=
  if bits c.wait 14 2 = 0 then d else bump (pcAdd d (kQueue q + 1) (Config.freeCount d.freeIdx).toNat)

/-- Halt queue `q`: the next command's wait is over, and what was parsed is discarded. -/
def qHalt (d : Dev) (q cause st unit : Nat) (sq : W32) : Dev :=
  match qGet d q with
  | none => d
  | some v =>
    if v.run ≠ 1 then d
    else
      let d := v.parsed.foldl (unfire q (if cause = 2 then [unit] else [])) d
      let d := match v.parsed with
        | c :: _ => waitCount d q c
        | [] => d
      qMod d q (fun v => qHaltV v cause st unit sq)

/-- A record for a queue that halts with no command parsed: CQ_SEQ is the parse sequence (Table 5-13). -/
def qHaltNoCmd (d : Dev) (q : Nat) (v : Queue) (st detail : Nat) : Dev :=
  qHalt (cqWrite d q v v.parseSeq.toNat 0 0xFF st detail 0 v.count (v.run == 1) false) q 1 st 0 v.parseSeq

/-! ### Doorbells -/

/-- Distance from DQ_CONS to a producer index. -/
def bellDist (v : Queue) (prod : BitVec 24) : Nat := subMod (2 ^ 24) prod.toNat v.cons.toNat

/-- The reads of `n` units from unit index `u` on (R128): two where they wrap past the end of the ring. -/
def ringReads (v : Queue) (u n : Nat) : List (Nat × Nat) :=
  let i := u % 2 ^ v.k
  ([(v.ringBase.toNat + 64 * i, 64 * min n (2 ^ v.k - i)), (v.ringBase.toNat, 64 * (n - (2 ^ v.k - i)))]).filter (fun r => r.2 != 0)

/-- The front end reads units of the ring over the host link. -/
def ringFetch (d : Dev) (v : Queue) (u n : Nat) : Dev :=
  (ringReads v u n).foldl (fun d r => hostPut d (.memRead v.owner r.1 r.2)) d

/-- Units from the parse point to the doorbell held. -/
def unitsLeft (v : Queue) : Nat :=
  match v.bell with
  | some (b, _) => if bellDist v b = 0 then 0 else subMod (2 ^ 24) b.toNat v.parsePt.toNat
  | none => 0

/-- The front end may read the queue's units: it runs, no back-off is on, and a completion entry is free (R145, R153). -/
def mayFetch (v : Queue) : Bool := v.run == 1 && !v.backoff && cqFree v != 0

/-- Read what a doorbell, a restart or freed completion entries make ready: the units to the doorbell held. -/
def fetchFrom (d : Dev) (v : Queue) : Dev := if mayFetch v then ringFetch d v v.parsePt.toNat (unitsLeft v) else d

/-- Read the units that a new doorbell adds to those that `v` has read. -/
def fetchMore (d : Dev) (v w : Queue) : Dev :=
  if mayFetch w then ringFetch d w (v.parsePt.toNat + unitsLeft v) (unitsLeft w - unitsLeft v) else d

/-- HUB_DQ_DOORBELL (R143, R144): the units up to the doorbell are read (R145). -/
def doorbellDev (fn : Nat) (val : W64) (_o : Otp) (d : Dev) : Dev :=
  if !claimed d fn then d
  else
    let q := bits val.toNat 56 8
    let prod := BitVec.ofNat 24 (bits val.toNat 32 24)
    let sq := BitVec.ofNat 32 val.toNat
    match qGet d q with
    | none => d
    | some v =>
      if v.owner ≠ fn then d
      else
        let n := bellDist v prod
        let held := match v.bell with
          | some (b, _) => bellDist v b
          | none => 0
        if n = 0 ∨ n ≤ held then d
        else if 2 ^ v.k < n then
          if v.run = 1 then qHaltNoCmd d q v stDbRange 0 else d
        else
          let w := { v with bell := some (prod, sq) }
          fetchMore (qSet d q w) v w

/-- HUB_DQ_DOORBELL. -/
def execHubDqDoorbell (fn : Nat) (val : W64) (s : State) : Host.Outcome State Fault Refusal :=
  runDev (doorbellDev fn val) s

/-- HUB_DQ_CQ_DOORBELL (R153). -/
def cqDoorbellDev (fn : Nat) (val : W64) (_o : Otp) (d : Dev) : Dev :=
  if !claimed d fn then d
  else
    let q := bits val.toNat 56 8
    let cons := BitVec.ofNat 24 val.toNat
    match qGet d q with
    | none => d
    | some v =>
      if v.owner ≠ fn then d
      else
        let n := subMod (2 ^ 24) cons.toNat v.cqCons.toNat
        if 1 ≤ n ∧ n ≤ subMod (2 ^ 24) v.cqIdx.toNat v.cqCons.toNat then
          let w := { v with cqCons := cons }
          let w := { w with cqFull := w.cqFull && cqFree w == 0 }
          let d := qSet d q w
          if cqFree v = 0 then fetchFrom d w else d
        else d

/-- HUB_DQ_CQ_DOORBELL. -/
def execHubDqCqDoorbell (fn : Nat) (val : W64) (s : State) : Host.Outcome State Fault Refusal :=
  runDev (cqDoorbellDev fn val) s

/-! ### Parse checks (Table 5-11) -/

/-- Whether an opcode is defined (Table 5-4). -/
def opDefined (op : Nat) : Bool :=
  [0x00, 0x01, 0x02, 0x03, 0x04, 0x05, 0x20, 0x21, 0x22, 0x28, 0x30, 0x31, 0x32, 0x38, 0x40].contains op ||
    (decide (0x10 ≤ op) && decide (op ≤ 0x17))

/-- A virtual function may issue the opcode (Table 5-4). -/
def opVf (op : Nat) : Bool := decide (op ≤ 0x05) || (decide (0x10 ≤ op) && decide (op ≤ 0x17)) || op == 0x20

/-- Units of an opcode with the body given (Table 5-4, R140). -/
def opUnits (op : Nat) (body : List Byte) : Nat :=
  if op = 0x03 then ceilDiv (32 + fld body 8 2) 64 else if op = 0x38 then 2 else 1

/-- The engine classes that an opcode allows (R138, R139, R429, R450); none for a command of the hub. -/
def opClasses (op : Nat) : List Nat :=
  if op = 0x01 ∨ op = 0x40 then [1, 2, 3, 4] else if op = 0x02 ∨ op = 0x04 ∨ op = 0x05 then [6]
  else if op = 0x28 then [3] else []

/-- The reserved body fields that R147 assigns to the parse check. -/
def bodyReserved (op : Nat) (b : List Byte) : Bool :=
  if op = 0x00 then zeroAt b 0 48
  else if op = 0x01 then zeroAt b 1 7 && zeroAt b 16 32
  else if op = 0x02 then zeroAt b 1 7 && zeroAt b 24 24
  else if op = 0x03 then zeroAt b 10 6 && decide (1 ≤ fld b 8 2) && decide (fld b 8 2 ≤ 192)
  else if op = 0x20 then decide (fld b 0 1 < 16) && zeroAt b 1 7 && zeroAt b 16 32
  else if op = 0x21 then zeroAt b 12 4 && zeroAt b 24 24
  else if op = 0x22 then decide (fld b 0 2 < 4096) && zeroAt b 4 4 && zeroAt b 16 32
  else if op = 0x28 then decide (fld b 1 1 < 2) && zeroAt b 2 6 && zeroAt b 24 24
  else if op = 0x31 then zeroAt b 8 8 && zeroAt b 24 24
  else if op = 0x40 then decide (fld b 1 1 < 4) && zeroAt b 4 4 && zeroAt b 16 32
  else true

/-- The engine byte of a command: DC_ENGINE, 0xA0 + n for DC_LAYOUT, none for a command of the hub. -/
def cmdEngine (op : Nat) (body : List Byte) : Option Nat :=
  if 0x10 ≤ op ∧ op ≤ 0x17 then some (0xA0 + (op - 0x10))
  else if opClasses op = [] then none else some (fld body 0 1)

/-- Check 1 of Table 5-11. -/
def formatOk (v : Queue) (op ctl wait sig units : Nat) (body : List Byte) : Bool :=
  opDefined op && opUnits op body == units && !ctl.testBit 7 && !ctl.testBit 4 && bits ctl 2 2 != 3 &&
  (bits wait 14 2 == 0 || v.binds.getD (bits wait 11 3) 0xFFFF != 0xFFFF) &&
  (!sig.testBit 15 || v.binds.getD (bits sig 12 3) 0xFFFF != 0xFFFF) &&
  (match cmdEngine op body with
   | some e => decide (0x10 ≤ op ∧ op ≤ 0x17) || (opClasses op).contains (e / 32)
   | none => true) &&
  bodyReserved op body

/-- The result addresses of DC_VERDICT_WAIT and DC_KAT, whose chapters name no status for a breach (R17, R147): zero, or a
multiple of 32 on the own module. -/
def resultOk (d : Dev) (op : Nat) (body : List Byte) : Bool :=
  let a := if op = 0x31 then fld body 16 8 else if op = 0x40 then fld body 8 8 else 0
  a == 0 || (isMul a 32 && isOwn d a)

/-- The parse checks, in table order: status and CQ_DETAIL. -/
def parseCheck (o : Otp) (d : Dev) (v : Queue) (op ctl wait sig units : Nat) (body : List Byte) : Nat × Nat :=
  if !formatOk v op ctl wait sig units body || !resultOk d op body then (stCmdFormat, 0)
  else if v.owner ≠ 0 ∧ !opVf op then (stCmdDenied, 0)
  else match cmdEngine op body with
    | none => (stOk, 0)
    | some e =>
      let cls := e / 32
      let inst := e % 32
      if classLimit cls ≤ inst then (stEngineRange, e)
      else if !present o cls inst then (stEngineAbsent, e)
      else if !usable o d cls inst then (stEngineRetired, e)
      else if smGet 0 d.rrAssign (ek cls inst) ≠ v.owner then (stEngineDenied, e)
      else (stOk, 0)

/-- Those checks, then the window check of a virtual function's completion ring (R311). -/
def parseStatus (o : Otp) (d : Dev) (v : Queue) (op ctl wait sig units : Nat) (body : List Byte) : Nat × Nat :=
  let x := parseCheck o d v op ctl wait sig units body
  if x.1 = stOk ∧ !cqWindow d v then (stRrWindow, 0) else x

/-! ### Break units (R124) -/

/-- A unit matches the command parsed with this count, tag and sequence number. -/
def breakHit (v : Queue) (q u : Nat) (b : BreakUnit) (cnt : W64) (tag : Nat) (sq : W32) : Bool :=
  b.queue == q && !(v.matched.contains (u, sq)) &&
    ((b.mode == 1 && b.armed && b.count == cnt.toNat) || (b.mode == 2 && (tag ^^^ b.tag) &&& b.mask == 0))

/-- The units that fire, in number order. -/
def breakHits (d : Dev) (v : Queue) (q : Nat) (cnt : W64) (tag : Nat) (sq : W32) : List Nat :=
  (List.range 16).filter (fun u => breakHit v q u (smGet break0 d.breaks u) cnt tag sq)

/-- A fired unit disarms in count mode and counts a hit in action 2. -/
def breakFire (d : Dev) (u : Nat) : Dev :=
  let b := smGet break0 d.breaks u
  let d := if b.mode = 1 then { d with breaks := smSet break0 d.breaks u { b with armed := false } } else d
  if b.action = 2 then pcAdd d (kHits u) 1 else d

/-! ### Fetch -/

/-- The verdict on the wait of a queue's next command (R109, R132, R133): 0 pending, 1 met, 2 its tally saturated. -/
def cmdWait (d : Dev) (v : Queue) (c : Cmd) : Nat :=
  let b := bits c.wait 11 3
  if bits c.wait 14 2 = 0 then 1
  else waitStill v.waitRes (tallyGet d (v.binds.getD b 0xFFFF)) (nth v.exps b) (bits c.wait 14 2) (bits c.wait 0 11)

/-- The wait of the command that is now next in its queue is evaluated (R133). -/
def headWait (d : Dev) (q : Nat) : Dev :=
  match qGet d q with
  | none => d
  | some v =>
    match v.parsed with
    | [] => d
    | c :: _ =>
      if bits c.wait 14 2 = 0 then d
      else
        let d := tallyLook d (v.binds.getD (bits c.wait 11 3) 0xFFFF)
        qMod d q (fun v => { v with waitRes := cmdWait d v c })

/-- The head of the parsed commands takes effect when it cannot be dispatched: a rejected command passes DQ_CONS, writes
its record and halts the queue (R148); a break before dispatch halts it with the command still to come (R124). -/
def settleHead (d : Dev) (q : Nat) : Dev :=
  match qGet d q with
  | none => d
  | some v =>
    match v.parsed with
    | [] => d
    | c :: rest =>
      if v.run ≠ 1 then d
      else if c.status ≠ stOk then
        let v' := { v with cons := v.cons + BitVec.ofNat 24 (bits c.ctl 0 2 + 1), nextSeq := v.nextSeq + 1,
                           parsed := rest, reserved := v.reserved - 1 }
        let d := cqWrite (qSet d q v') q v' c.cseq.toNat c.tag c.op c.status c.detail 0 c.count true false
        qHalt d q 1 c.status 0 c.cseq
      else match c.brkBefore with
        | some u => qHalt (qSet d q { v with matched := v.matched ++ [(u, c.cseq)] }) q 2 0 u v.nextSeq
        | none => headWait d q

/-- The queue has units to fetch (R145, R153). -/
def fetchable (v : Queue) : Bool :=
  v.run == 1 && !v.backoff &&
    (match v.bell with
     | some (b, _) => subMod (2 ^ 24) b.toNat v.parsePt.toNat != 0 && decide (bellDist v b ≠ 0)
     | none => false) &&
    v.parsed.all (fun c => c.status == stOk && c.brkBefore == none)

/-- The checks of R145 on the units read. -/
def fetchOk (v : Queue) (data : List Byte) : Bool :=
  let units := bits (fld data 1 1) 0 2 + 1
  match v.bell with
  | none => false
  | some (b, sq) =>
    let room := subMod (2 ^ 24) b.toNat v.parsePt.toNat
    fld data 4 4 == v.parseSeq.toNat && decide (64 * units ≤ data.length) &&
    fld data 12 4 == crc32c (data.take 12 ++ (data.take (64 * units)).drop 16) &&
    decide (units ≤ room) && (units != room || fld data 4 4 == sq.toNat)

/-- The command that the units hold, with its parse checks and break units. -/
def parseCmd (o : Otp) (d : Dev) (q : Nat) (v : Queue) (data : List Byte) : Cmd :=
  let ctl := fld data 1 1
  let units := bits ctl 0 2 + 1
  let body := (data.take (64 * units)).drop 16
  let pc := parseStatus o d v (fld data 0 1) ctl (fld data 8 2) (fld data 10 2) units body
  let hits := breakHits d v q v.count (fld data 2 2) (BitVec.ofNat 32 (fld data 4 4))
  let act := fun a => hits.find? (fun u => (smGet break0 d.breaks u).action == a)
  { op := fld data 0 1, ctl := ctl, tag := fld data 2 2, cseq := BitVec.ofNat 32 (fld data 4 4),
    wait := fld data 8 2, sig := fld data 10 2, body := body, count := v.count, status := pc.1, detail := pc.2,
    brkBefore := act 0, brkAfter := act 1, fired := hits }

/-- COMMAND_FETCH (R145, R147, R124): the units arrive, are checked, and the command is parsed and reserves a completion
entry; a failed check starts a back-off, or halts the queue after the eighth re-fetch. -/
def commandFetchDev (q : Nat) (data : List Byte) (o : Otp) (d : Dev) : Dev :=
  match qGet d q with
  | none => d
  | some v =>
    if d.pow.phase ≠ .hostReady ∨ !fetchable v then d
    else if cqFree v = 0 then qSet d q { v with cqFull := true }
    else
      let d := pcAdd d kHostRx data.length
      if !fetchOk v data then
        if v.refetch < 8 then qSet d q { v with refetch := v.refetch + 1, backoff := true }
        else qHaltNoCmd d q v stStaleRing 9
      else
        let c := parseCmd o d q v data
        let hits := breakHits d v q v.count c.tag c.cseq
        let d := hits.foldl breakFire d
        let v' := { v with refetch := 0, parsed := v.parsed ++ [c], count := v.count + 1, reserved := v.reserved + 1,
                           parsePt := v.parsePt + BitVec.ofNat 24 (bits c.ctl 0 2 + 1), parseSeq := v.parseSeq + 1 }
        settleHead (qSet d q { v' with cqFull := cqFree v' == 0 }) q

/-- COMMAND_FETCH. -/
def execCommandFetch (q : Nat) (data : List Byte) (s : State) : Host.Outcome State Fault Refusal :=
  runDev (commandFetchDev q data) s

/-- A ring fetch that completes with Unsupported Request or Completer Abort, or times out (R459). -/
def fetchAbort (d : Dev) (q : Nat) : Dev :=
  match qGet d q with
  | none => d
  | some v => if fetchable v then qHaltNoCmd d q v stHostAbort 0 else d

/-- REFETCH_BACKOFF_EXPIRY (R145, R158): the command's units are read again, at most four since its header cannot be
trusted (DESIGN CHOICE, log 153). -/
def backoffExpiryDev (q : Nat) (_o : Otp) (d : Dev) : Dev :=
  match qGet d q with
  | none => d
  | some v =>
    if v.run = 1 ∧ v.backoff then
      ringFetch (pcAdd (qSet d q { v with backoff := false }) (kQueue q) 1) v v.parsePt.toNat (min 4 (unitsLeft v))
    else d

/-- REFETCH_BACKOFF_EXPIRY. -/
def execRefetchBackoffExpiry (q : Nat) (s : State) : Host.Outcome State Fault Refusal := runDev (backoffExpiryDev q) s

/-! ### Dispatch (R149, R151, R133) -/

/-- The engine key of a command's target: the hub is 0, the HRD, which one DC_HRD_WRITE uses at a time, 240 (R185), and
channel n 256 + n (R390). -/
def cmdTarget (c : Cmd) : Nat :=
  match cmdEngine c.op c.body with
  | some e => e
  | none => if c.op = 0x21 then 240 else if c.op = 0x38 then 256 + bits (fld c.body 1 1) 0 4 else 0

/-- Some queue runs a command on the engine. -/
def engineBusy (d : Dev) (e : Nat) : Bool :=
  e != 0 && d.queues.any (fun p => match p.2 with
    | some v => v.running.any (fun r => r.engine == e)
    | none => false)

/-- The bind slot of a DC_EMB_BIND is not in use (R168). -/
def bindReady (d : Dev) (v : Queue) (c : Cmd) : Bool :=
  c.op != 0x20 || smGet 0 d.bindsInUse (v.owner * 16 + fld c.body 0 1) == 0

/-- The conditions of R149 that wait without limit; a due engine first runs its tests (R428), and a VC_ACQUIRE that waits
holds its queue (R279). -/
def orderReady (d : Dev) (v : Queue) (c : Cmd) : Bool :=
  !engineBusy d (cmdTarget c) && !(cmdTarget c != 0 && decide (cmdTarget c < 240) && (unitGet d (cmdTarget c)).due) &&
  (!c.ctl.testBit 5 || v.running == []) &&
  v.running.all (fun r => !r.cmd.ctl.testBit 5) && v.running.all (fun r => r.cmd.op != 0x03) &&
  v.running.all (fun r => !(r.cmd.op == 0x32 && fld r.cmd.body 0 1 == 2 && r.final.isNone))

/-- The front end has something to do with the queue's next command: dispatch it, or fail it for its tally. -/
def ready (d : Dev) (v : Queue) : Bool :=
  v.run == 1 && (match v.parsed with
    | c :: _ => cmdWait d v c == 2 || (cmdWait d v c == 1 && bindReady d v c && orderReady d v c)
    | [] => false)

/-- The queue that the front end serves next (R151): the highest priority first, round robin within one. -/
def nextQueue (d : Dev) : Option Nat :=
  let qs := d.queues.filterMap (fun p => match p.2 with
    | some v => if ready d v then some (p.1, v.prio) else none
    | none => none)
  let pr := listMin (qs.map (·.2))
  let same := (qs.filter (fun p => p.2 == pr)).map (·.1)
  let last := smGet 0 d.served pr
  match same.find? (fun q => decide (last ≤ q)) with
  | some q => some q
  | none => same.head?

/-- A command held by a failed wait (R133): its record is written and the queue halts with the command to come. -/
def holdFail (d : Dev) (q : Nat) (v : Queue) (c : Cmd) (st : Nat) : Dev :=
  let d := cqWrite d q v c.cseq.toNat c.tag c.op st 0 0 c.count true false
  qHalt d q 1 st 0 c.cseq

/-- The commands of other queues that run, by queue and sequence number. -/
def runsBeside (d : Dev) (q : Nat) : List (Nat × Nat) :=
  d.queues.flatMap (fun p => match p.2 with
    | some v => if p.1 = q then [] else v.running.map (fun r => (p.1, r.cmd.cseq.toNat))
    | none => [])

/-- A command that is done: what it wrote counts for the commands that run beside it, until they are done (R86). -/
def wroteEnd (d : Dev) (q sq : Nat) : Dev :=
  let beside := runsBeside d q
  let f : Wrote → Wrote := fun w =>
    if w.ended then { w with others := w.others.filter (· != (q, sq)) }
    else if w.queue = q ∧ w.seq = sq then { w with ended := true, others := beside } else w
  { d with wrote := (d.wrote.map f).filter (fun w => !w.ended || w.others != []) }

/-- Dispatch the head of a queue (R146, R149): E[b] advances, DQ_CONS passes the command, the command runs. -/
def dispatchHead (d : Dev) (q : Nat) (v : Queue) (c : Cmd) (rest : List Cmd) : Dev :=
  let b := bits c.wait 11 3
  let cond := bits c.wait 14 2
  let r : Running := ⟨c, cmdTarget c, false, none, 0, 0, false, false, false, 0, [], [], []⟩
  let v' := { v with cons := v.cons + BitVec.ofNat 24 (bits c.ctl 0 2 + 1), nextSeq := v.nextSeq + 1, parsed := rest,
                     running := v.running ++ [r], waitRes := 0,
                     exps := if cond = 0 then v.exps else setAt v.exps b (waitExp (nth v.exps b) cond (bits c.wait 0 11)) }
  let d := { d with served := smSet 0 d.served v.prio (q + 1) }
  settleHead (qSet (waitCount d q c) q v') q

/-- COMMAND_DISPATCH (R149, R133, R151). A DC_EMB_BIND or DC_CAT_SWITCH is dispatched and performed in one act, by its own
command (R167). -/
def commandDispatchDev (_o : Otp) (d : Dev) : Dev :=
  match nextQueue d with
  | none => d
  | some q =>
    match qGet d q with
    | none => d
    | some v =>
      match v.parsed with
      | [] => d
      | c :: rest =>
        if cmdWait d v c = 2 then holdFail d q v c stTallySat
        else if c.op = 0x20 ∨ c.op = 0x22 then d
        else dispatchHead d q v c rest

/-- COMMAND_DISPATCH. -/
def execCommandDispatch (s : State) : Host.Outcome State Fault Refusal := runDev commandDispatchDev s

/-- DQ_WAIT_LIMIT_EXPIRY (R133): the tally wait or the bind-slot condition of the queue's next command is not met. -/
def waitLimitDev (q : Nat) (_o : Otp) (d : Dev) : Dev :=
  match qGet d q with
  | none => d
  | some v =>
    match v.parsed with
    | [] => d
    | c :: _ =>
      if v.run = 1 ∧ (cmdWait d v c = 0 ∨ (cmdWait d v c = 1 ∧ !bindReady d v c)) then holdFail d q v c stWaitLimit else d

/-- DQ_WAIT_LIMIT_EXPIRY. -/
def execDqWaitLimitExpiry (q : Nat) (s : State) : Host.Outcome State Fault Refusal := runDev (waitLimitDev q) s

/-! ### Running commands -/

/-- The running command with a sequence number. -/
def runGet (v : Queue) (sq : Nat) : Option Running := v.running.find? (fun r => r.cmd.cseq.toNat == sq)

/-- Change the running command with a sequence number. -/
def runMod (d : Dev) (q sq : Nat) (f : Running → Running) : Dev :=
  qMod d q (fun v => { v with running := v.running.map (fun r => if r.cmd.cseq.toNat = sq then f r else r) })

/-- The status of a command is final. -/
def cmdFinal (d : Dev) (q sq st detail : Nat) : Dev :=
  runMod d q sq (fun r => { r with started := true, final := some st, detail := detail })

/-- The first command of queue `q` with opcode `op` that has been dispatched and not begun. -/
def fresh (d : Dev) (q : Nat) (op : Nat → Bool) : Option (Queue × Running) :=
  match qGet d q with
  | none => none
  | some v => (v.running.find? (fun r => op r.cmd.op && !r.started)).map (fun r => (v, r))

/-- Begin the first dispatched command of queue `q` whose opcode satisfies `op`: `f` carries it out. -/
def onFresh (d : Dev) (q : Nat) (op : Nat → Bool) (f : Dev → Queue → Running → Dev) : Dev :=
  match fresh d q op with
  | none => d
  | some (v, r) => f (runMod d q r.cmd.cseq.toNat (fun r => { r with started := true })) v r

/-- A command is done (R150). -/
def runDone (r : Running) : Bool :=
  r.final.isSome && r.unacked == 0 && r.remote == [] && (!r.hostWrote || r.flushed)

/-- Write a running command's record, and halt its queue when its status is not ST_OK. -/
def runRecord (d : Dev) (q : Nat) (r : Running) : Dev :=
  match qGet d q with
  | none => d
  | some v =>
    let st := r.final.getD stOk
    let v' := { v with reserved := v.reserved - 1 }
    let d := cqWrite (qSet d q v') q v' r.cmd.cseq.toNat r.cmd.tag r.cmd.op st r.detail r.numFlags r.cmd.count
      (st != stOk && v.run == 1) (r.cmd.ctl.testBit 6)
    let d := runMod d q r.cmd.cseq.toNat (fun r => { r with recorded := true })
    if st = stOk then d else qHalt d q 1 st 0 r.cmd.cseq

/-- The end of a done command: its signal, its record if still due, its place among the running commands, and a break
after completion (R134, R150, R152, R124). -/
def runEnd (d : Dev) (q : Nat) (v : Queue) (r : Running) : Dev :=
  let ok := r.final == some stOk
  let d := if ok && r.cmd.sig.testBit 15 then
      tallyAdd d (v.binds.getD (bits r.cmd.sig 12 3) 0) (bits r.cmd.sig 0 12 + 1) else d
  let d := if !r.recorded && !(ok && bits r.cmd.ctl 2 2 == 2) then runRecord d q r else d
  let d := if !r.recorded && ok && bits r.cmd.ctl 2 2 == 2 then qMod d q (fun v => { v with reserved := v.reserved - 1 }) else d
  let d := qMod d q (fun v => { v with running := v.running.filter (fun x => x.cmd.cseq != r.cmd.cseq) })
  let d := wroteEnd d q r.cmd.cseq.toNat
  let d := match r.cmd.brkAfter with
    | some u => qMod (qHalt d q 3 0 u r.cmd.cseq) q (fun v => { v with matched := v.matched ++ [(u, r.cmd.cseq)] })
    | none => d
  qMod d q qDrain

/-- The end of a command (R150, R152): the record of class CC_PATH, or of a failure, once the status is final; the rest once the
command is done. -/
def commandEnd (q : Nat) (sq : W32) (d : Dev) : Dev :=
  match qGet d q with
  | none => d
  | some v =>
    match runGet v sq.toNat with
    | none => d
    | some r =>
      if r.final = none then d
      else if runDone r then runEnd d q v r
      else if !r.recorded && (r.final != some stOk || bits r.cmd.ctl 2 2 == 0) then runRecord d q r
      else d

/-- DC_NOP (R137): no effect of its own. -/
def dcNopDev (q : Nat) (_o : Otp) (d : Dev) : Dev :=
  onFresh d q (· == 0x00) (fun d _ r => cmdFinal d q r.cmd.cseq.toNat stOk 0)

/-- DC_NOP. -/
def execDcNop (q : Nat) (s : State) : Host.Outcome State Fault Refusal := runDev (dcNopDev q) s

/-- DC_INLINE (R140, R141). -/
def dcInlineDev (q : Nat) (_o : Otp) (d : Dev) : Dev :=
  onFresh d q (· == 0x03) (fun d v r =>
    let dst := fld r.cmd.body 0 8
    let n := fld r.cmd.body 8 2
    if !windowOk d v.owner dst n true then cmdFinal d q r.cmd.cseq.toNat stRrWindow 0
    else if !ownMapped d dst n then cmdFinal d q r.cmd.cseq.toNat stAddrUnmapped 0
    else cmdFinal (memWrite d (localOf dst) ((r.cmd.body.drop 16).take n)) q r.cmd.cseq.toNat stOk 0)

/-- DC_INLINE. -/
def execDcInline (q : Nat) (s : State) : Host.Outcome State Fault Refusal := runDev (dcInlineDev q) s

/-! ### Registers and messages -/

/-- HUB_DQ_STATE_q (Table 5-14). -/
def dqState (v : Queue) : Nat :=
  v.haltSeq.toNat <<< 32 + v.haltStatus <<< 16 + v.haltUnit <<< 12 + v.haltCause <<< 8 + v.cqFull.toNat <<< 2 + v.run

/-- HUB_DQ_CONS_q (Table 5-15). -/
def dqCons (v : Queue) : Nat := v.cons.toNat <<< 32 + v.nextSeq.toNat

/-- Form and object checks that the queue messages share (R159): the queue of the request, if the sender may name it. -/
def withQueue (ch : Nat) (d : Dev) (p : List Byte) (form : Bool) (f : Queue → DzRes) : DzRes :=
  let q := fld p 0 1
  dzNeed d form stQParam <|
  match qGet d q with
  | some v => if isVf ch && v.owner != fnOf ch then dzErr d stQDenied else f v
  | none => dzErr d (if isVf ch then stQDenied else stQNone)

/-- A vector number is one of the function's, or none. -/
def vectorOk (fn v : Nat) : Bool := v == 0xFFFF || decide (v < vectorCount fn)

/-- DZ_QUEUE_CREATE (R159). -/
def hQueueCreate (ch : Nat) (p : List Byte) (_o : Otp) (d : Dev) : DzRes :=
  dzPf ch d stQDenied <|
  let q := fld p 0 1
  let fn := fld p 1 1
  let k := fld p 3 1
  let j := fld p 4 1
  let base := fld p 8 8
  let cq := fld p 16 8
  let dev := (fld p 2 1).testBit 2
  let refs := (List.range 8).map (fun i => fld p (32 + 2 * i) 2)
  dzNeed d (decide (fn < 8) && decide (fld p 2 1 < 8) && zeroAt p 5 1 && decide (6 ≤ k ∧ k ≤ 20) &&
    decide (6 ≤ j ∧ j ≤ 20) && isMul base 4096 && isMul cq 4096 && vectorOk fn (fld p 6 2) &&
    refs.all (fun r => r == 0xFFFF || tallyRefOk r) && (!dev || isOwn d cq)) stQParam <|
  dzNeed d (refs.all (fun r => r == 0xFFFF || tallyInRange d fn r) && (!dev || mapped d (localOf cq) (32 * 2 ^ j))) stQParam <|
  dzNeed d (qGet d q == none) stQBusy <|
  let sq := BitVec.ofNat 32 (fld p 24 4)
  let v : Queue :=
    { owner := fn, prio := bits (fld p 2 1) 0 2, cqDev := dev, k := k, j := j, vector := BitVec.ofNat 16 (fld p 6 2),
      ringBase := BitVec.ofNat 64 base, cqBase := BitVec.ofNat 64 cq, limit := BitVec.ofNat 32 (fld p 28 4),
      binds := refs, exps := (List.range 8).map (fun i => fld p (48 + 4 * i) 4), run := 1, haltSeq := 0,
      haltStatus := 0, haltUnit := 0, haltCause := 0, cqFull := false, cons := 0, nextSeq := sq, count := 0,
      parsePt := 0, parseSeq := sq, bell := none, refetch := 0, backoff := false, parsed := [], running := [],
      cqIdx := 0, cqCons := 0, reserved := 0, matched := [], waitRes := 0 }
  dzOk (qSet d q v) []

/-- DZ_QUEUE_DESTROY. -/
def hQueueDestroy (ch : Nat) (p : List Byte) (_o : Otp) (d : Dev) : DzRes :=
  dzPf ch d stQDenied <|
  withQueue ch d p (zeroAt p 1 7) fun v =>
  dzNeed d (v.run == 3) stQState <|
  dzOk { d with queues := smSet none d.queues (fld p 0 1) none } []

/-- DZ_QUEUE_HALT (R154): the reply waits until the queue is HALTED. -/
def hQueueHalt (ch : Nat) (p : List Byte) (_o : Otp) (d : Dev) : DzRes :=
  withQueue ch d p (zeroAt p 1 7) fun v =>
  let q := fld p 0 1
  let d := qHalt d q 4 0 0 v.nextSeq
  match qGet d q with
  | some w => if w.run = 3 then dzOk d (natLe 8 (dqState w)) else dzWait d (.queueHalt q)
  | none => dzOk d (zeros 8)

/-- DZ_QUEUE_RESTART (R156). -/
def hQueueRestart (ch : Nat) (p : List Byte) (_o : Otp) (d : Dev) : DzRes :=
  let mode := fld p 1 1
  withQueue ch d p (decide (mode < 2) && zeroAt p 2 2 && zeroAt p 7 1) fun v =>
  dzNeed d (v.run == 3) stQState <|
  let v := if mode = 1 then
      { v with cons := BitVec.ofNat 24 (fld p 4 4), nextSeq := BitVec.ofNat 32 (fld p 8 4),
               parsePt := BitVec.ofNat 24 (fld p 4 4), parseSeq := BitVec.ofNat 32 (fld p 8 4) } else v
  let v := { v with run := 1, haltSeq := 0, haltStatus := 0, haltUnit := 0, haltCause := 0 }
  dzOk (fetchFrom (qSet d (fld p 0 1) v) v) []

/-- DZ_QUEUE_QUERY. -/
def hQueueQuery (ch : Nat) (p : List Byte) (_o : Otp) (d : Dev) : DzRes :=
  withQueue ch d p (zeroAt p 1 7) fun v =>
  let q := fld p 0 1
  let held := match v.bell with
    | some (b, sq) => b.toNat <<< 32 + sq.toNat
    | none => 0
  dzOk d (natLe 8 (dqState v) ++ natLe 8 (dqCons v) ++ natLe 8 v.count.toNat ++
    (List.range 8).flatMap (fun i => natLe 4 (nth v.exps i)) ++ pcBytes d (kQueue q) ++ zeros 2 ++
    pcBytes d (kQueue q + 1) ++ zeros 2 ++ natLe 8 held)

/-- DZ_QUEUE_EXPECT. -/
def hQueueExpect (ch : Nat) (p : List Byte) (_o : Otp) (d : Dev) : DzRes :=
  let b := fld p 1 1
  withQueue ch d p (decide (b < 8) && zeroAt p 2 2) fun v =>
  dzNeed d (v.run == 3) stQState <|
  dzOk (qSet d (fld p 0 1) { v with exps := setAt v.exps b (fld p 4 4) }) []

end Sys2Proof.Machine
end

