-- ==== Sys2Proof/Machine/Memory.lean ====
section
/-!
DEFINITION. Memory objects and pages (chapter 12): allocation and release (R334 to R339), reserves and page retirement
(R348 to R351), reads of control records with their retries (R412), write-backs of cache lines (R340, R341), and the
memory messages of Table 12-14.
-/

namespace Sys2Proof.Machine

/-! ### Objects -/

/-- An object by number. -/
def objGet (d : Dev) (n : Nat) : Option MemObj := smGet none d.objs n
/-- Replace an object. -/
def objSet (d : Dev) (n : Nat) (v : Option MemObj) : Dev := { d with objs := smSet none d.objs n v }
/-- MA_TIER. -/
def maTier (f : Nat) : Nat := bits f 0 3
/-- MA_DIE. -/
def maDie (f : Nat) : Nat := bits f 3 2
/-- MA_CACHE. -/
def maCache (f : Nat) : Nat := bits f 5 2
/-- MA_PLAN. -/
def maPlan (f : Nat) : Bool := f.testBit 7
/-- MA_PIN. -/
def maPin (f : Nat) : Bool := f.testBit 8
/-- MA_RR. -/
def maRr (f : Nat) : Nat := bits f 9 3

/-- The ranges of a memory that are not free: objects, caches, reserve pages and withdrawn pages. -/
def usedRanges (d : Dev) (m : Nat) : List (Nat × Nat) :=
  d.objs.flatMap (fun p => match p.2 with
    | none => []
    | some ob =>
      (if maTier ob.flags ≤ 2 ∧ memOf ob.base = m then [(ob.base, ob.size)] else []) ++
      (if maCache ob.flags ≠ 0 ∧ memOf ob.cacheBase = m then [(ob.cacheBase, ob.slots * 4096)] else [])) ++
  ((poolGet d m).reserve ++ (poolGet d m).withdrawn).map (fun pg => (memBase m + pg * 4096, 4096))

/-- The free bytes of a memory. -/
def freeBytes (d : Dev) (m : Nat) : Nat := populated d m - ((usedRanges d m).map (·.2)).foldl (· + ·) 0

/-- Two ranges share a byte. -/
def overlaps (a n b m : Nat) : Bool := decide (a < b + m) && decide (b < a + n)

/-- The range is free and populated. -/
def isFree (d : Dev) (m a n : Nat) : Bool :=
  inMem d m a n && (usedRanges d m).all (fun r => !overlaps a n r.1 r.2)

/-- The lowest free range of `n` bytes (R337). -/
def lowestFree (d : Dev) (m n : Nat) : Option Nat :=
  let c := (memBase m :: (usedRanges d m).map (fun r => r.1 + r.2)).filter (fun a => isFree d m a n)
  if c = [] then none else some (listMin c)

/-- The `n` highest pages below page `pg` that are free, the highest first. -/
def topFree (free : Nat → Bool) : Nat → Nat → List Nat
  | 0, _ => []
  | pg + 1, n => if n = 0 then [] else if free pg then pg :: topFree free pg (n - 1) else topFree free pg n

/-- The memory that an object of a tier, or a cache, goes to (R337): of two dies the one with more free bytes, C0 when
both have the same. -/
def chooseMem (d : Dev) (tier die : Nat) : Nat :=
  let one := fun x => if tier = 0 then x else 2 + x
  if tier = 2 then 4
  else if die < 2 then one die
  else if freeBytes d (one 0) < freeBytes d (one 1) then one 1 else one 0

/-- The region table that a memory's objects use: an object in a die's SRAM takes an entry of that die's HBM table (R331, R334;
DEDUCED, log 165). -/
def regionTable (m : Nat) : Nat := if m ≤ 1 then m + 2 else m

/-- Room in the region table of a memory (R331, R334). -/
def regionRoom (d : Dev) (m : Nat) : Bool := decide ((d.regions.filter (fun r => r.mem == regionTable m)).length < 4096)

/-- Add a region-table entry. -/
def regionAdd (d : Dev) (m base size obj tier : Nat) : Dev :=
  { d with regions := d.regions ++ [⟨regionTable m, base, size, obj, tier⟩] }

/-- The lowest object number not in use. -/
def freeObj (d : Dev) : Option Nat := (List.range 65535).map (· + 1) |>.find? (fun n => objGet d n == none)

/-- The flag checks of R336. -/
def allocFlagsOk (f slots size base : Nat) : Bool :=
  decide (f < 4096) && decide (maCache f < 3) && decide (maDie f < 3) && decide (maTier f < 5) &&
  !(maCache f != 0 && decide (maTier f ≤ 1)) && !(maCache f == 2 && maTier f == 2) &&
  !(maCache f != 0 && !maPlan f) && !(maPin f && maCache f == 0) &&
  size != 0 && isMul size 4096 &&
  (if maCache f = 0 then slots == 0
   else decide (1 ≤ slots ∧ slots ≤ 2 ^ 20) && (!maPin f || slots == size / 4096)) &&
  (if maTier f = 3 ∨ maTier f = 4 then isMul base 4096 else base == 0)

/-- Place an object, and then its cache (R334, R337). -/
def placeObject (d : Dev) (f slots size base : Nat) : Option (Dev × Nat × MemObj) :=
  match freeObj d with
  | none => none
  | some n =>
    let m := chooseMem d (maTier f) (maDie f)
    let home := if maTier f ≤ 2 then (if regionRoom d m then lowestFree d m size else none) else some base
    match home with
    | none => none
    | some b =>
      let ob : MemObj := ⟨f, slots, size, b, 0, false, [], [], [], false, 0, 0, [], []⟩
      let d1 := objSet d n (some ob)
      let d1 := if maTier f ≤ 2 then regionAdd d1 m b size n 1 else d1
      if maCache f = 0 then some (d1, n, ob)
      else
        let cm := chooseMem d1 (maCache f) (maDie f)
        match (if regionRoom d1 cm then lowestFree d1 cm (slots * 4096) else none) with
        | none => none
        | some c =>
          let ob := { ob with cacheBase := c }
          some (regionAdd (objSet d1 n (some ob)) cm c (slots * 4096) n 2, n, ob)

/-- Zero an object that serves a Reading Room, and its cache (R338). -/
def zeroObject (d : Dev) (ob : MemObj) : Dev :=
  if maRr ob.flags = 0 then d
  else
    let d := if maTier ob.flags ≤ 2 then memZero d ob.base ob.size else d
    if maCache ob.flags ≠ 0 then memZero d ob.cacheBase (ob.slots * 4096) else d

/-- A message that only the physical function may send (R354). -/
def memPf (ch : Nat) (d : Dev) (r : DzRes) : DzRes := dzPf ch d stMemDenied r

/-- DZ_MEM_ALLOC (R336 to R338). -/
def hMemAlloc (ch : Nat) (p : List Byte) (o : Otp) (d : Dev) : DzRes :=
  memPf ch d <|
  let f := fld p 0 4
  let slots := fld p 4 4
  let size := fld p 8 8
  let base := fld p 16 8
  dzNeed d (allocFlagsOk f slots size base) stMemFlags <|
  dzNeed d (!(grade o == 3 && (maTier f == 2 || maCache f == 2))) stMemTier <|
  match placeObject d f slots size base with
  | none => dzErr d stMemFull
  | some (d, n, ob) =>
    dzOk (zeroObject d ob) (natLe 2 n ++ zeros 6 ++ natLe 8 ob.base ++ natLe 8 ob.cacheBase)

/-- A live object. -/
def objLive (d : Dev) (n : Nat) : Option MemObj :=
  match objGet d n with
  | some ob => if ob.dead then none else some ob
  | none => none

/-- The pages and region entries of a dead object return to the free pool (R338, R339). -/
def releaseObject (d : Dev) (n : Nat) (ob : MemObj) : Dev :=
  let d := zeroObject d ob
  objSet { d with regions := d.regions.filter (fun r => r.obj != n) } n none

/-- The commands with opcode DC_PLAN that are running, by queue and sequence number. -/
def runningPlans (d : Dev) : List (Nat × Nat) :=
  d.queues.flatMap (fun p => match p.2 with
    | some v => (v.running.filter (fun r => r.cmd.op == 0x05)).map (fun r => (p.1, r.cmd.cseq.toNat))
    | none => [])

/-- Release every dead object that no DC_PLAN dispatched before its free still holds (R339). -/
def releaseDead (d : Dev) : Dev :=
  let now := runningPlans d
  d.objs.foldl (fun d p => match p.2 with
    | some ob =>
      if ob.dead then
        let ob := { ob with holders := ob.holders.filter (fun h => now.contains h) }
        if ob.holders = [] then releaseObject d p.1 ob else objSet d p.1 (some ob)
      else d
    | none => d) d

/-- COMMAND_DONE (R150, R152, R339): a plan that ends lets go of dead objects. -/
def commandDoneDev (q : Nat) (sq : W32) (_o : Otp) (d : Dev) : Dev := releaseDead (commandEnd q sq d)

/-- COMMAND_DONE. -/
def execCommandDone (q : Nat) (sq : W32) (s : State) : Host.Outcome State Fault Refusal := runDev (commandDoneDev q sq) s

/-- DZ_MEM_FREE (R339). -/
def hMemFree (ch : Nat) (p : List Byte) (_o : Otp) (d : Dev) : DzRes :=
  memPf ch d <|
  dzNeed d (zeroAt p 2 6) stMemFlags <|
  match objLive d (fld p 0 2) with
  | none => dzErr d stMemNone
  | some ob => dzOk (releaseDead (objSet d (fld p 0 2) (some { ob with dead := true, holders := runningPlans d }))) []

/-- The hub reads an object's slot directory and dirty map (R340, R413). -/
def dirUse (d : Dev) (n : Nat) : Dev := (ctlUse (ctlUse d 3 n).1 4 n).1

/-- DZ_MEM_QUERY. -/
def hMemQuery (ch : Nat) (p : List Byte) (_o : Otp) (d : Dev) : DzRes :=
  memPf ch d <|
  dzNeed d (zeroAt p 2 6) stMemFlags <|
  let d := dirUse d (fld p 0 2)
  match objLive d (fld p 0 2) with
  | none => dzErr d stMemNone
  | some ob => dzOk d (natLe 4 ob.flags ++ natLe 4 ob.slots ++ natLe 8 ob.size ++ natLe 8 ob.base ++
      natLe 8 ob.cacheBase ++ natLe 4 ob.dir.length ++ natLe 4 ob.dirty.length)

/-- DZ_MEM_SLOTS. -/
def hMemSlots (ch : Nat) (p : List Byte) (_o : Otp) (d : Dev) : DzRes :=
  memPf ch d <|
  let i := fld p 4 4
  let n := fld p 8 4
  dzNeed d (zeroAt p 2 2 && decide (1 ≤ n ∧ n ≤ 500)) stMemFlags <|
  let d := dirUse d (fld p 0 2)
  match objLive d (fld p 0 2) with
  | none => dzErr d stMemNone
  | some ob =>
    dzNeed d (decide (i + n ≤ ob.slots)) stMemFlags <|
    dzOk d ((List.range n).flatMap (fun j =>
      let pg := smGet 0 ob.dir (i + j)
      (if pg = 0 then natLe 4 0xFFFFFFFF else natLe 4 (pg - 1)) ++ natLe 1 (smGet false ob.dirty (i + j)).toNat ++ zeros 3))

/-! ### Write-backs of cache lines (R340, R341) -/

/-- The lines of a slot whose SB_DIRTY is set, as line numbers; none when the slot's dirty-map bit is clear. -/
def dirtyLines (d : Dev) (ob : MemObj) (slot : Nat) : List Nat :=
  if smGet false ob.dirty slot then
    ((List.range 64).map (fun i => (ob.cacheBase + slot * 4096) / 64 + i)).filter (fun l =>
      match smGet none d.side l with
      | some sb => sb.dirty
      | none => false)
  else []

/-- Clear SB_DIRTY in lines and the slot's dirty-map bit. -/
def cleanSlot (d : Dev) (n slot : Nat) (lines : List Nat) : Dev :=
  let clean : SideBand → SideBand := fun x => { x with dirty := false }
  let drop : MemObj → MemObj := fun ob => { ob with dirty := smSet false ob.dirty slot false }
  let d := { d with side := lines.foldl (fun s l => smMod none s l (fun sb => sb.map clean)) d.side }
  { d with objs := smMod none d.objs n (fun x => x.map drop) }

/-- Copy one line, or any run of bytes, inside the module. -/
def copyLocal (d : Dev) (src dst n : Nat) : Dev := memWrite d dst (memRead d src n)

/-- The lines of page `page` of an object's home, on the own module from `base` on, that have been written while slot `slot` held
the page: each with what stands there and the slot's line. -/
def clashLines (d : Dev) (ob : MemObj) (slot page : Nat) : List (Nat × List (List Byte)) :=
  ((List.range 64).filter (fun i => smGet false ob.clash (page * 64 + i))).map (fun i =>
    let a := ob.base + page * 4096 + i * 64
    (a, [memRead d a 64, memRead d (ob.cacheBase + slot * 4096 + i * 64) 64]))

/-- After a write-back those lines hold the home write or the slot's line, which is undefined (R18, R342). -/
def clashSettle (d : Dev) (n page : Nat) (ls : List (Nat × List (List Byte))) : Dev :=
  let d := ls.foldl (fun d l => memMix d l.1 64 l.2) d
  let drop : MemObj → MemObj := fun ob =>
    { ob with clash := ob.clash.filter (fun e => !(decide (page * 64 ≤ e.1) && decide (e.1 < page * 64 + 64))) }
  { d with objs := smMod none d.objs n (fun x => x.map drop) }

/-! ### Pages (R348 to R351) -/

/-- Replace a pool. -/
def poolSet (d : Dev) (m : Nat) (v : MemPool) : Dev := { d with pools := smSet pool0 d.pools m v }

/-- The placement, before any remap, that a page's address reaches: each swap exchanges the places of two addresses (R349). -/
def physPage (p : MemPool) (page : Nat) : Nat :=
  p.swaps.foldr (fun s x => if x = s.1 then s.2 else if x = s.2 then s.1 else x) page

/-- The pseudo-channel of an HBM page, as pc * 4 + stack, after the remap (R327). -/
def pageChannel (d : Dev) (die page : Nat) : Nat :=
  let l := hbmChannels d die
  nth l (physPage (poolGet d (2 + die)) page % l.length)

/-- A pseudo-channel of memory `m` as an event entry names it: stack × 64 + pc, stacks 0 to 7. An entry for a retired HBM page
names the pseudo-channel that held it (Table 19-3; DEDUCED, log 166). -/
def channelUnit (m c : Nat) : Nat := ((m - 2) * 4 + c % 4) * 64 + c / 4

/-- The pseudo-channel, within its die, that an event entry names. -/
def unitChannel (u : Nat) : Nat := u % 64 * 4 + u / 64 % 4

/-- The pages of a pseudo-channel that have been retired since manufacture, of the entries of kind 2. -/
def retiredOn (d : Dev) (m c : Nat) : Nat :=
  ((lgEvents d).filter (fun e => e.kind == 2 && e.sub == m && e.unit == channelUnit m c)).length

/-- Take `k` of the highest free pages into the reserve; false when too few are free. -/
def growReserve (m k : Nat) (d : Dev) : Dev × Bool :=
  let rs := usedRanges d m
  let free := fun pg => rs.all (fun r => !overlaps (memBase m + pg * 4096) 4096 r.1 r.2)
  let l := topFree free (populated d m / 4096) k
  (poolSet d m { poolGet d m with reserve := (poolGet d m).reserve ++ l }, l.length == k)

/-- The pool once the places of a page and of the highest reserve page are exchanged: the reserve page's address is withdrawn. -/
def poolSwap (p : MemPool) (page : Nat) : MemPool :=
  let r := p.reserve.foldl max 0
  { p with reserve := p.reserve.filter (· != r), swaps := p.swaps ++ [(page, r)], withdrawn := p.withdrawn ++ [r],
           retired := p.retired ++ [page] }

/-- Swap a page with the highest reserve page, refill the reserve, and list the page in the Ledger (R349). Payload and metadata
are copied; the withdrawn address reaches the bad page with what it held, and the address kept starts its counts again. -/
def swapPage (o : Otp) (d : Dev) (m page : Nat) : Dev :=
  let p := poolGet d m
  let a := memBase m + page * 4096
  let b := memBase m + p.reserve.foldl max 0 * 4096
  let u := if m = 4 then 0 else channelUnit m (pageChannel d (m - 2) page)
  let d := { d with mem := smSetList 0 d.mem b (memRead d a 4096),
                    side := (List.range 64).foldl (fun s i => smSet none s (b / 64 + i) (smGet none d.side (a / 64 + i))) d.side,
                    int := { d.int with pageFixes := smSet 0 d.int.pageFixes (a / 4096) 0,
                                        pageEvents := smSet 0 d.int.pageEvents (a / 4096) 0 } }
  let d := logRec (growReserve m 1 (poolSet d m (poolSwap p page))).1 2 2 (if m = 4 then 13 else 12) 3 m stOk a false []
  lgEvent o (lgAdd o d 6 1) 2 m u a

/-- Mark pseudo-channel `c` of an HBM memory once 64 of its pages have been retired (R350). -/
def markChannel (o : Otp) (d : Dev) (m c : Nat) : Dev :=
  if m = 4 ∨ retiredOn d m c < 64 ∨ (poolGet d m).marked.contains c then d
  else lgEvent o (poolSet d m { poolGet d m with marked := (poolGet d m).marked ++ [c] }) 5 (m - 2) (channelUnit m c) 0

/-- Retire a page by swap (R349, R350), or log once that it cannot be swapped; such a page stays in service for good, and a
withdrawn address has no page to swap. -/
def retirePage (o : Otp) (d : Dev) (m page : Nat) : Dev :=
  let p := poolGet d m
  if p.withdrawn.contains page ∨ p.nospare.contains page then d
  else if p.reserve = [] ∨ 8192 ≤ p.swaps.length then
    log6 (poolSet d m { p with nospare := p.nospare ++ [page] }) stMemNospare 3 m
  else markChannel o (swapPage o d m page) m (pageChannel d (m - 2) page)

/-- Count an event of a page in its window (Table 15-5): whether the 2^20 line accesses of the window have elapsed since its
last event, so that its counts start again, is a free choice. The second component says that the threshold is reached:
16 corrected errors, 2 uncorrectable or read-retry events. -/
def pageCount (d : Dev) (a : Nat) (corrected : Bool) : Dev × Bool :=
  let k := a / 4096
  let old := fun m => if Config.freeBool d.freeIdx then 0 else smGet 0 m k
  let fixes := old d.int.pageFixes + corrected.toNat
  let events := old d.int.pageEvents + (!corrected).toNat
  (bump { d with int := { d.int with pageFixes := smSet 0 d.int.pageFixes k fixes
                                     pageEvents := smSet 0 d.int.pageEvents k events } },
    if corrected then decide (16 ≤ fixes) else decide (2 ≤ events))

/-- An event of a page of HBM or the Shelf; a page at its threshold retires. -/
def pageEvent (o : Otp) (d : Dev) (a : Nat) (corrected : Bool) : Dev :=
  let m := memOf a
  if m < 2 ∨ 4 < m then d
  else
    let r := pageCount d a corrected
    if r.2 then retirePage o r.1 m ((a - memBase m) / 4096) else r.1

/-- The memory controller of an HBM or Shelf page (R327, R328): stacks 0 to 7, then packages 0 to 11. -/
def pageController (d : Dev) (a : Nat) : Nat :=
  let m := memOf a
  let page := (a - memBase m) / 4096
  if m = 4 then
    let page := physPage (poolGet d 4) page
    let pk := (List.range 12).filter (fun i => d.pow.shelfPkgs.getD i 0 != 0)
    8 + nth pk (page % (4 * pk.length) % pk.length)
  else (m - 2) * 4 + pageChannel d (m - 2) page % 4

/-- The side-bands of the lines from `a` to `a + n - 1` are read (R333): whether one of them holds an error, a correctable or
an uncorrectable one, and which line it is, are free choices. The second component is 0, 1 or 2 for these. -/
def sideRead (o : Otp) (d : Dev) (a n : Nat) : Dev × Nat :=
  if memOf a < 2 ∨ 4 < memOf a ∨ n = 0 then (d, 0)
  else
    let t := (Config.freeCount d.freeIdx).toNat % 3
    let l := a + 64 * ((Config.freeCount (d.freeIdx + 1)).toNat % ((n + 63) / 64))
    let d := bump (bump d)
    if t = 1 then (pageEvent o (pcAdd d (kSbfix (pageController d l)) 1) l true, 1)
    else if t = 2 then (pageEvent o d l false, 2)
    else (d, 0)

/-- How many reads of the `k`-th record of a command fail: the operand `rr` carries one digit of base 8 for each record. -/
def rrOf (rr k : Nat) : Nat := rr / 8 ^ k % 8

/-- A read of a CRC-protected record (R412): `rr` reads fail before one could pass. A pass after a failure counts a
read-retry event against the page; false when every read fails. -/
def readRecord (o : Otp) (d : Dev) (a : Nat) (good : Bool) (rr : Nat) : Dev × Bool :=
  if !good || decide (4 ≤ rr) then (d, false)
  else if rr = 0 then (d, true)
  else (pageEvent o (pcAdd d kReread 1) a false, true)

/-- The pseudo-channels of a die that were usable once those of `marks` were excluded. -/
def channelsBut (d : Dev) (die : Nat) (marks : List Nat) : List Nat :=
  (List.range 256).filter (fun c => d.pow.hbmStacks.getD (die * 4 + c % 4) false && !marks.contains c)

/-- The page of a memory that a listed page is now. The Ledger lists the address of the page as it was placed then; the
pseudo-channel of its entry shows which of the marks listed before it were in force, and the place has another address since
later marks took effect (R329, R351; DEDUCED, log 166). -/
def listedPage (d : Dev) (m : Nat) (marks : List Nat) (e : EvEntry) : Nat :=
  let p := (e.value - memBase m) / 4096
  if m = 4 then p
  else
    let before := (((lgEvents d).filter (fun x => x.kind == 5 && x.sub == m - 2 && decide (x.eseq < e.eseq))).map
      (fun x => unitChannel x.unit))
    let at' := fun j => channelsBut d (m - 2) (before.take j)
    let c := unitChannel e.unit
    match ((List.range (before.length + 1)).reverse).find? (fun j => nth (at' j) (p % (at' j).length) == c) with
    | none => p
    | some j =>
      let now := channelsBut d (m - 2) marks
      p / (at' j).length * now.length + (now.idxOf c)

/-- Rebuild the placement of a memory (R351, R329): exclusions from the marks of the event log, the reserve from the
top, the swaps replayed in Ledger order but for pages of excluded pseudo-channels. -/
def rebuildPool (d : Dev) (m : Nat) : Dev :=
  let ev := lgEvents d
  let marks := if m = 4 then [] else (ev.filter (fun e => e.kind == 5 && e.sub == m - 2)).map (fun e => unitChannel e.unit)
  let d := poolSet d m { pool0 with excluded := marks }
  let d := (growReserve m 1024 d).1
  let listed := ev.filter (fun e => e.kind == 2 && e.sub == m && (m == 4 || !marks.contains (unitChannel e.unit)))
  (listed.map (listedPage d m marks)).foldl (fun d pg =>
    let p := poolGet d m
    if p.reserve = [] ∨ 8192 ≤ p.swaps.length ∨ p.withdrawn.contains pg ∨ ¬inMem d m (memBase m + pg * 4096) 4096 then d
    else (growReserve m 1 (poolSet d m (poolSwap p pg))).1) d

/-- DZ_MEM_STATUS. -/
def hMemStatus (ch : Nat) (p : List Byte) (_o : Otp) (d : Dev) : DzRes :=
  memPf ch d <|
  let m := fld p 0 1
  dzNeed d (decide (m < 5) && zeroAt p 1 7) stMemFlags <|
  let q := poolGet d m
  let mask := fun l : List Nat => natLe 32 (ofBits ((List.range 256).map (fun c => l.contains c)))
  dzOk d (natLe 8 (populated d m) ++ natLe 8 (freeBytes d m) ++
    (if m < 2 then zeros 80
     else natLe 4 q.reserve.length ++ natLe 4 q.resv ++ natLe 4 q.swaps.length ++ zeros 4 ++
       (if m = 4 then zeros 64 else mask q.marked ++ mask q.excluded)))

/-- DZ_MEM_RESV (R348): growth takes the highest free pages, shrinking returns the lowest reserve pages. -/
def hMemResv (ch : Nat) (p : List Byte) (_o : Otp) (d : Dev) : DzRes :=
  memPf ch d <|
  let m := fld p 0 1
  let n := fld p 4 4
  dzNeed d (decide (2 ≤ m ∧ m ≤ 4) && zeroAt p 1 3 && decide (n ≤ 8192)) stMemFlags <|
  let q := poolGet d m
  if n ≤ q.reserve.length then
    let sorted := q.reserve.mergeSort (· ≤ ·)
    dzOk (poolSet d m { q with resv := n, reserve := sorted.drop (q.reserve.length - n) }) []
  else
    let r := growReserve m (n - q.reserve.length) d
    dzNeed d r.2 stMemFull <|
    dzOk (poolSet r.1 m { poolGet r.1 m with resv := n }) []

/-- Metadata that nothing fixes: free values in the bits that the side-band of the memory has, zero in the others (R15, Tables
12-4, 12-5). -/
def freeSide (m seed : Nat) : List Byte :=
  (List.range 8).map (fun i =>
    if m = 4 then (if i < 4 then Config.freeByte (seed + i) else 0)
    else if i = 0 then 0 else if i = 1 then Config.freeByte (seed + 1) &&& 0xF0 else Config.freeByte (seed + i))

/-- The side-band of a line as DZ_MEM_LINE returns it (Tables 12-4, 12-5). SB_CODE is internal to the part, and the
side-band of a line never written is what the memory held: both are free values. -/
def lineBytes (d : Dev) (a : Nat) : List Byte :=
  match smGet none d.side (a / 64) with
  | none => freeSide (memOf a) a
  | some s =>
    if memOf a = 4 then
      natLe 3 (s.ver % 16 + s.dirty.toNat <<< 4 + s.tier <<< 5 + s.owner <<< 8) ++ [Config.freeByte a] ++ zeros 4
    else natLe 6 (s.dirty.toNat <<< 12 + s.tier <<< 13 + s.ver <<< 16 + s.owner <<< 32) ++
      [Config.freeByte a, Config.freeByte (a + 1)]

/-- DZ_MEM_LINE (R330, R333): an uncorrectable error leaves the metadata open. -/
def hMemLine (ch : Nat) (p : List Byte) (o : Otp) (d : Dev) : DzRes :=
  memPf ch d <|
  let a := fld p 0 8
  dzNeed d (isMul a 64) stMemFlags <|
  dzNeed d (decide (2 ≤ memOf a ∧ memOf a ≤ 4) && mapped d a 64) stAddrUnmapped <|
  let r := sideRead o d a 64
  if r.2 = 2 then dzOk (bump r.1) (freeSide (memOf a) r.1.freeIdx ++ [2])
  else dzOk r.1 (lineBytes d a ++ [BitVec.ofNat 8 r.2])

/-- DZ_XFE_QUERY. -/
def hXfeQuery (ch : Nat) (p : List Byte) (o : Otp) (d : Dev) : DzRes :=
  memPf ch d <|
  let x := fld p 0 1
  dzNeed d (zeroAt p 1 7) stMemFlags <|
  dzNeed d (present o 6 x) stEngineAbsent <|
  let k := kEng (ek 6 x) + 3
  dzOk d ((List.range 4).flatMap (fun i => pcBytes d (k + i)) ++ natLe 1 (pcOvf d k 4) ++ zeros 7)

end Sys2Proof.Machine
end

