-- ==== Sys2Proof/Machine/Code.lean ====
section
/-!
DEFINITION. Code objects (chapter 4): the slot encodings of every engine class (R103 to R107, R112, R225, R255, R172, R192),
registration and its checks (R114, Table 4-8), handles and generations (R115, R127), and the messages of Table 4-14.
-/

namespace Sys2Proof.Machine

/-! ### Bundles (Tables 4-2, 4-3) -/

/-- Slot `k` of a head is present: 0 sync, 1 load A, 2 load B, 3 compute A, 4 compute B, 5 store, 6 scalar. -/
def hasSlot (head k : Nat) : Bool := head.testBit (25 + k)

/-- Bytes of slot `k`. -/
def slotSize (k : Nat) : Nat := if k = 3 ∨ k = 4 then 8 else 4

/-- Bytes of a bundle. -/
def bundleLen (head : Nat) : Nat :=
  4 + (((List.range 7).filter (hasSlot head)).map slotSize).foldl (· + ·) 0

/-- The slots of the bundle at body offset `off`, read by `rd offset bytes`, in issue order (R104). -/
def bundleSlots (rd : Nat → Nat → Nat) (head off : Nat) : List Slot :=
  ((List.range 7).foldl (fun (acc : List Slot × Nat) k =>
    if hasSlot head k then (acc.1 ++ [⟨k, rd acc.2 (slotSize k)⟩], acc.2 + slotSize k) else acc) ([], off + 4)).1

/-! ### Encodings that registration allows -/

/-- Table 4-2. -/
def headOk (h : Nat) : Bool := bits h 0 4 == 0 && decide (bits h 5 2 < 2)

/-- Table 4-5. -/
def syncOk (w : Nat) : Bool :=
  bits w 30 2 == 1 || (bits w 30 2 == 2 && decide (bits w 24 2 < 2) && bits w 0 24 != 0)

/-- Table 4-7; S_SUMM on VXE and EBE only. -/
def scalarOk (cls choices w : Nat) : Bool :=
  let op := bits w 28 4
  if op = 1 then bits w 24 1 == 0 && (!w.testBit 25 || bits w 6 18 == 0)
  else if op = 2 then bits w 0 28 == 0
  else if op = 3 then (cls == 2 || cls == 3) && bits w 0 17 == 0
  else if op = 4 then true
  else if op = 5 then decide (bits w 13 8 < choices) && bits w 0 13 == 0
  else false

/-- LS_BUF values of a class: MXE scale loads (R225), VXE tiles and function tables (R252 to R254); the EBE has no load or
store slots (R190), and no chapter gives the UPE any. -/
def bufOk (cls : Nat) (store : Bool) (b : Nat) : Bool :=
  if cls = 1 then !store && decide (0x20 ≤ b ∧ b ≤ 0x2F)
  else if cls = 2 then decide (b < 0x20) || (!store && decide (0x40 ≤ b ∧ b ≤ 0x47))
  else false

/-- Table 4-4. -/
def loadOk (cls aps : Nat) (store : Bool) (w : Nat) : Bool :=
  bits w 28 4 == 1 && bits w 0 8 == 0 && decide (bits w 16 8 < aps) && bufOk cls store (bits w 8 8)

/-- MXE compute slots: M_MMA (Table 8-1), M_DRAIN (Table 8-4), M_LIMIT (R235). -/
def mxeOk (aps w : Nat) : Bool :=
  let op := bits w 56 8
  if op = 1 then
    bits w 0 2 == 0 && decide (bits w 40 8 < aps) && decide (bits w 32 8 < aps) &&
      (w.testBit 24 || bits w 16 4 == 0) && (w.testBit 15 || bits w 11 4 == 0) && (w.testBit 10 || bits w 2 8 == 0)
  else if op = 2 then bits w 0 3 == 0 && decide (bits w 44 8 < aps) && modeOk (bits w 31 8)
  else if op = 3 then decide (bits w 50 6 ≤ 61) && bits w 0 48 == 0
  else false

/-- The VXE operations that take operand B. -/
def vxHasB (op : Nat) : Bool :=
  [0x01, 0x02, 0x03, 0x04, 0x05, 0x06, 0x07, 0x10, 0x11, 0x18, 0x19, 0x31, 0x38, 0x39, 0x3C].contains op

/-- VX_SUB values of a VXE operation (Table 9-3). -/
def vxSubOk (op sub : Nat) : Bool :=
  if [0x01, 0x02, 0x03, 0x04, 0x05, 0x06, 0x07, 0x08, 0x09, 0x0A, 0x11, 0x18, 0x19].contains op then sub == 0
  else if op = 0x10 then decide (sub < 6)
  else if [0x20, 0x28, 0x29, 0x38, 0x39, 0x3C, 0x3E].contains op then decide (sub < 2)
  else decide (op = 0x30 ∨ op = 0x31)

/-- The VXE operations whose results no mode touches: bitwise, moves of whole elements (R263) and V_SMOV. -/
def vxNoMode (op : Nat) : Bool := [0x18, 0x19, 0x38, 0x39, 0x3E].contains op

/-- VXE compute slots (R255): opcode, sub-function, operand selection, NUM_MODE, and the fields left unused. -/
def vxeOk (w : Nat) : Bool :=
  let op := bits w 56 8
  let sel := bits w 33 3
  let fill := decide (op = 0x38 ∨ op = 0x39)
  vxSubOk op (bits w 6 3) && decide (sel < 5) && bits w 0 6 == 0 && modeOk (bits w 25 8) && bits w 25 2 == 0 &&
    (!vxNoMode op || bits w 25 8 == 0) && (vxHasB op || (sel == 0 && bits w 41 5 == 0)) && (sel != 4 || bits w 41 5 == 0) && (sel != 3 || !w.testBit 45) &&
    ([0x04, 0x11, 0x38, 0x39].contains op || bits w 36 5 == 0) &&
    (sel == 4 || fill || op == 0x3E || bits w 9 16 == 0) && ((op != 0x3C && op != 0x3E) || !w.testBit 55) &&
    (op != 0x3E || (if bits w 6 3 = 0 then bits w 46 5 == 0 && bits w 15 10 == 0 else bits w 9 16 == 0))

/-- EBE compute slots: E_LOOKUP (Table 6-6) and E_ACCUM (Table 7-1). -/
def ebeOk (w : Nat) : Bool :=
  let op := bits w 56 8
  let pool := bits w 25 3
  decide (bits w 19 6 ≤ 61) && (pool == 4 || bits w 40 4 == 0) &&
    (if op = 0x20 then decide (pool < 5) && modeOk (bits w 7 8) && bits w 0 7 == 0
     else if op = 0x30 then [0, 1, 3, 4].contains pool && bits w 0 15 == 0
     else false)

/-- A compute slot is allowed for the class; none is for the UPE. -/
def computeOk (cls aps w : Nat) : Bool :=
  if cls = 1 then mxeOk aps w else if cls = 2 then vxeOk w else if cls = 3 then ebeOk w else false

/-- Every slot of a bundle is allowed. -/
def slotOk (cls aps choices : Nat) (s : Slot) : Bool :=
  if s.kind = 0 then syncOk s.w
  else if s.kind = 1 ∨ s.kind = 2 then loadOk cls aps false s.w
  else if s.kind = 3 ∨ s.kind = 4 then computeOk cls aps s.w
  else if s.kind = 5 then loadOk cls aps true s.w
  else scalarOk cls choices s.w

/-- A choice rule (Table 4-13). -/
def ruleOk (entries : Nat) (r : List Byte) : Bool :=
  let t := fld r 6 1
  decide (bits t 0 3 < 6) && bits t 6 2 == 0 && !(fld r 7 1).testBit 6 && zeroAt r 8 8 &&
    (fld r 4 2 == 0xFFFF || decide (fld r 4 2 < entries))

/-! ### The walk (R114) -/

/-- What a walk has found: a slot error, a loop error, the offsets inside bundles where no bundle starts. -/
structure WalkRes where
  slotBad : Bool
  loopBad : Bool
  inner : List Nat
  deriving DecidableEq, Repr

/-- The loop levels after a bundle, or none for a loop error (R113, Table 4-8). -/
def walkLoops (levels : List Nat) (head scal : Nat) : Option (List Nat) :=
  let op := bits scal 28 4
  let lend := head.testBit 4
  if (op = 2 ∨ op = 5) ∧ levels ≠ [] then none
  else if op = 1 then
    let lv := bits scal 26 2
    if lend ∨ 4 ≤ levels.length ∨ levels.any (fun l => decide (l ≤ lv)) then none else some (lv :: levels)
  else if lend then (match levels with
    | [] => none
    | _ :: t => some t)
  else some levels

/-- Walk the bundles from `off` to S_END or S_CHOOSE. -/
def walkGo (rd : Nat → Nat → Nat) (len cls aps choices : Nat) : Nat → Nat → List Nat → Bool → List Nat → WalkRes
  | 0, _, _, _, inner => ⟨false, true, inner⟩
  | fuel + 1, off, levels, lb, inner =>
    if len < off + 4 then ⟨false, true, inner⟩
    else
      let head := rd off 4
      let n := bundleLen head
      if off / 1024 ≠ (off + n - 1) / 1024 then ⟨true, lb, inner⟩
      else
        let slots := bundleSlots rd head off
        let inner := inner ++ (List.range (n / 4 - 1)).map (fun i => off + 4 * (i + 1))
        if !(headOk head && slots.all (slotOk cls aps choices)) then ⟨true, lb, inner⟩
        else
          let scal := ((slots.find? (fun s => s.kind == 6)).map (·.w)).getD 0
          let op := bits scal 28 4
          match (if lb then some levels else walkLoops levels head scal) with
          | none => if op = 2 ∨ op = 5 then ⟨false, true, inner⟩
              else walkGo rd len cls aps choices fuel (off + n) levels true inner
          | some ls => if op = 2 ∨ op = 5 then ⟨false, lb, inner⟩
              else walkGo rd len cls aps choices fuel (off + n) ls lb inner

/-! ### Registration (Table 4-8) -/

/-- Row 2 of Table 4-8: the header, with the offsets of its entries. -/
def codeHdrOk (h body : List Byte) : Bool :=
  let n := fld h 12 4
  let eo := fld h 20 4
  let ec := fld h 24 2
  let tab := fun off cnt => isMul off 64 && decide (off + 64 * cnt ≤ n)
  fld h 0 4 == 0x4E49424F && fld h 4 2 == 1 && sealOk 1024 h && decide (1 ≤ fld h 6 1 ∧ fld h 6 1 ≤ 4) && zeroAt h 7 1 &&
    decide (fld h 38 2 < 2) && zeroAt h 40 980 && decide (1024 ≤ n ∧ n ≤ 2 ^ 24) && isMul n 1024 &&
    isMul (fld h 16 4) 4 && decide (1024 + n ≤ fld h 16 4) && decide (1 ≤ ec ∧ ec ≤ 256) &&
    decide (fld h 26 2 ≤ 256) && decide (fld h 36 2 ≤ 256) && isMul eo 4 && decide (eo + 4 * ec ≤ n) &&
    tab (fld h 28 4) (fld h 26 2) && tab (fld h 32 4) (fld h 36 2) &&
    (List.range ec).all (fun i => decide (fld body (eo + 4 * i) 4 < n))

/-- The CRC of a body block: its bytes and the build identity (R101). -/
def blockCrc (blk : List Byte) (build : Nat) : Nat := crc32c (blk ++ natLe 4 build)

/-- Row 5 and 6 of Table 4-8. -/
def codeBody (h body : List Byte) : Nat :=
  let cls := fld h 6 1
  let n := fld h 12 4
  let ents := (List.range (fld h 24 2)).map (fun i => fld body (fld h 20 4 + 4 * i) 4)
  let aps := fld h 26 2
  let chs := fld h 36 2
  let rs := ents.map (fun e => if isMul e 4 then walkGo (fld body) n cls aps chs (n / 4 + 1) e [] false [] else ⟨true, false, []⟩)
  let bad := rs.any (·.slotBad) || ents.any (fun e => rs.any (fun r => r.inner.contains e)) ||
    (List.range aps).any (fun i => !zeroAt body (fld h 28 4 + 64 * i + 60) 4) ||
    (List.range (4 * chs)).any (fun i => !ruleOk ents.length ((body.drop (fld h 32 4 + 16 * i)).take 16))
  if bad then stCodeSlot else if rs.any (·.loopBad) then stCodeLoop else stOk

/-- The bytes of a generation in memory: base and length, its CRC array included. -/
def genSpan (g : Gen) : Nat × Nat := (g.base, max (1024 + g.bodyLen) (g.crcOff + 4 * (g.bodyLen / 1024)))

/-- A handle. -/
def handleGet (d : Dev) (n : Nat) : Handle := smGet handle0 d.handles n
/-- Replace a handle. -/
def handleSet (d : Dev) (n : Nat) (h : Handle) : Dev := { d with handles := smSet handle0 d.handles n h }

/-- The next generation number: one more than the last, from 0xFFFF to 1, live numbers skipped (R115). -/
def nextGen (live : List Nat) : Nat → Nat → Nat
  | 0, n => n
  | fuel + 1, n =>
    let m := n % 65535 + 1
    if live.contains m then nextGen live fuel m else m

/-- Generations that are neither current nor pinned die: their cache lines go, and with the last of them the owner
(R115, R127). -/
def reapHandle (d : Dev) (n : Nat) : Dev :=
  let h := handleGet d n
  let live := h.gens.filter (fun g => g.gen == h.current || g.pins != 0)
  let gone := (h.gens.filter (fun g => !(g.gen == h.current || g.pins != 0))).map (·.gen)
  let keep : Nat × List IcBlock → Nat × List IcBlock :=
    fun c => (c.1, c.2.filter (fun b => !(b.handle == n && gone.contains b.gen)))
  handleSet { d with icache := (d.icache.map keep).filter (fun c => !c.2.isEmpty) } n
    { h with gens := live, owner := if live = [] then 8 else h.owner }

/-- A read range of a function is inside one of its windows; local addresses. -/
def localWindow (d : Dev) (fn a n : Nat) : Bool := windowOk d fn (a + ownCoord d * 2 ^ 44) n false

/-- Row 1 of Table 4-8, with the window checks of R311 just before the address checks. -/
def codeMapped (d : Dev) (fn base : Nat) (h : List Byte) : Nat :=
  let len := fld h 12 4
  let crc := base + fld h 16 4
  let blocks := ceilDiv len 1024
  firstBad [
    (isMul base 1024, stAddrUnmapped),
    (localWindow d fn base 1024 && (!inHbm d base 1024 || (localWindow d fn (base + 1024) len && localWindow d fn crc (4 * blocks))),
      stRrWindow),
    (inHbm d base 1024 && (len == 0 || inHbm d (base + 1024) len) && (blocks == 0 || inHbm d crc (4 * blocks)), stAddrUnmapped)]

/-- Rows 2 and 3 of Table 4-8: the header and every body block, each with the retries of R412; `rr` gives the reads that fail,
the header's first. -/
def codeReads (o : Otp) (d : Dev) (base : Nat) (h body : List Byte) (rr : Nat) : Dev × Nat :=
  let crc := base + fld h 16 4
  let x := readRecord o d base (sealOk 1024 h) (rrOf rr 0)
  if !x.2 || !codeHdrOk h body then (x.1, stCodeHdr)
  else
    (List.range (ceilDiv (fld h 12 4) 1024)).foldl (fun (acc : Dev × Nat) i =>
      if acc.2 ≠ stOk then acc
      else
        let y := readRecord o acc.1 (base + 1024 + 1024 * i)
          (blockCrc ((body.drop (1024 * i)).take 1024) (fld h 8 4) == memNat d (crc + 4 * i) 4) (rrOf rr (i + 1))
        (y.1, if y.2 then stOk else stCodeCrc)) (x.1, stOk)

/-- Rows 4 to 8 of Table 4-8. -/
def codeRest (o : Otp) (d : Dev) (n base : Nat) (h body : List Byte) : Nat :=
  let hd := handleGet d n
  let span := (base, max (1024 + fld h 12 4) (fld h 16 4 + 4 * ceilDiv (fld h 12 4) 1024))
  firstBad [
    (!(fld h 38 2).testBit 0 || hasFp64 o, stCodeCap),
    (codeBody h body != stCodeSlot, stCodeSlot),
    (codeBody h body != stCodeLoop, stCodeLoop),
    (hd.gens.all (fun g => g.build != fld h 8 4), stCodeBuild),
    (decide (hd.gens.length < 4) && d.handles.all (fun p => p.2.gens.all (fun g =>
      let s := genSpan g
      !(decide (span.1 < s.1 + s.2) && decide (s.1 < span.1 + span.2)))), stCodeBusy)]

/-- The checks of Table 4-8 in order. -/
def codeCheck (o : Otp) (d : Dev) (fn n base : Nat) (h body : List Byte) (rr : Nat) : Dev × Nat :=
  let a := codeMapped d fn base h
  if a ≠ stOk then (d, a)
  else
    let x := codeReads o d base h body rr
    if x.2 ≠ stOk then x else (x.1, codeRest o x.1 n base h body)

/-- The sender may act on the handle (R127). -/
def handleOpen (d : Dev) (ch n : Nat) : Bool := (handleGet d n).owner == 8 || (handleGet d n).owner == fnOf ch

/-- DZ_CODE_LOAD (R114, R115, R127). -/
def hCodeLoad (ch : Nat) (p : List Byte) (o : Otp) (d : Dev) : DzRes :=
  let base := fld p 0 8
  let n := fld p 8 2
  let fn := fnOf ch
  dzNeed d (decide (n < 1024) && zeroAt p 10 6) stCodeEntry <|
  dzNeed d (handleOpen d ch n) stCodeDenied <|
  let h := memRead d base 1024
  let ok := isMul base 1024 && inHbm d base 1024
  let body := if ok && inHbm d (base + 1024) (fld h 12 4) then memRead d (base + 1024) (fld h 12 4) else []
  let x := codeCheck o d fn n base h body d.readFails
  let d := x.1
  if x.2 ≠ stOk then dzErr d x.2
  else
    let hd := handleGet d n
    let g := nextGen (hd.gens.map (·.gen)) 5 hd.last
    let v : Gen :=
      { gen := g, base := base, build := fld h 8 4, pins := 0, cls := fld h 6 1, bodyLen := fld h 12 4, crcOff := fld h 16 4,
        entries := (List.range (fld h 24 2)).map (fun i => fld body (fld h 20 4 + 4 * i) 4), apOff := fld h 28 4, aps := fld h 26 2, choiceOff := fld h 32 4,
        choices := fld h 36 2, needFp64 := (fld h 38 2).testBit 0 }
    let d := handleSet d n { hd with owner := fn, current := g, last := g, gens := hd.gens ++ [v] }
    dzOk (reapHandle d n) (natLe 2 g ++ zeros 2 ++ natLe 4 (fld h 8 4))

/-- DZ_CODE_UNLOAD. -/
def hCodeUnload (ch : Nat) (p : List Byte) (_o : Otp) (d : Dev) : DzRes :=
  let n := fld p 0 2
  dzNeed d (decide (n < 1024)) stCodeEntry <|
  dzNeed d (handleOpen d ch n) stCodeDenied <|
  dzOk (reapHandle (handleSet d n { handleGet d n with current := 0 }) n) []

/-- DZ_CODE_QUERY. -/
def hCodeQuery (ch : Nat) (p : List Byte) (_o : Otp) (d : Dev) : DzRes :=
  let n := fld p 0 2
  dzNeed d (decide (n < 1024)) stCodeEntry <|
  dzNeed d (!isVf ch || handleOpen d ch n) stCodeDenied <|
  let h := handleGet d n
  dzOk d (natLe 2 h.current ++ zeros 6 ++ padTo 64 (h.gens.flatMap (fun g =>
    natLe 2 g.gen ++ zeros 2 ++ natLe 4 g.pins ++ natLe 8 g.base)))

/-! ### Tallies and breaks -/

/-- DZ_TALLY_READ. -/
def hTallyRead (ch : Nat) (p : List Byte) (_o : Otp) (d : Dev) : DzRes :=
  let r := fld p 0 2
  let n := fld p 2 2
  dzNeed d (tallyRefOk r && decide (1 ≤ n ∧ n ≤ 256) && decide (bits r 0 10 + n ≤ if bits r 14 2 = 2 then 256 else 1024))
    stCodeEntry <|
  dzNeed d (tallyInRange d (fnOf ch) r && tallyInRange d (fnOf ch) (r + n - 1)) stCodeDenied <|
  let d := (List.range n).foldl (fun d i => tallyLook d (r + i)) d
  dzOk d ((List.range n).flatMap (fun i => natLe 4 (tallyGet d (r + i)).val.toNat ++ natLe 4 (tallyGet d (r + i)).sat.toNat))

/-- DZ_TALLY_SET (R109): TALLY_SAT is cleared, and the waits on the tally are evaluated again. -/
def hTallySet (ch : Nat) (p : List Byte) (_o : Otp) (d : Dev) : DzRes :=
  let r := fld p 0 2
  dzNeed d (tallyRefOk r && zeroAt p 2 2) stCodeEntry <|
  dzNeed d (tallyInRange d (fnOf ch) r) stCodeDenied <|
  dzOk (tallyStore (tallyLook d r) (tallyKey r) ⟨BitVec.ofNat 32 (fld p 4 4), false⟩) []

/-- DZ_BREAK_SET (R124, R125). A count-mode unit is armed; the hit counter goes on counting. -/
def hBreakSet (ch : Nat) (p : List Byte) (_o : Otp) (d : Dev) : DzRes :=
  dzPf ch d stBkDenied <|
  let u := fld p 0 1
  let m := fld p 1 1
  dzNeed d (decide (u < 16) && decide (m < 16) && decide (bits m 0 2 < 3) && decide (bits m 2 2 < 3)) stCodeEntry <|
  let b : BreakUnit := ⟨bits m 0 2, bits m 2 2, fld p 2 2, fld p 4 2, fld p 6 2, fld p 8 8, bits m 0 2 == 1⟩
  dzOk { d with breaks := smSet break0 d.breaks u b } []

/-- DZ_BREAK_QUERY. -/
def hBreakQuery (ch : Nat) (p : List Byte) (_o : Otp) (d : Dev) : DzRes :=
  dzPf ch d stBkDenied <|
  let u := fld p 0 1
  dzNeed d (decide (u < 16)) stCodeEntry <|
  let b := smGet break0 d.breaks u
  dzOk d (natLe 1 (b.mode + 4 * b.action) ++ natLe 1 (b.armed.toNat + 2 * (pcGet d (kHits u)).ovf.toNat) ++ natLe 2 b.queue ++
    pcBytes d (kHits u))

end Sys2Proof.Machine
end

