-- ==== Sys2Proof/Machine/Crypto.lean ====
section
/-!
DEFINITION. The two algorithms of the security processor: the SM3 hash (GB/T 32905) and SM2 signatures and key
derivation on the recommended curve (GB/T 32918), which R522 to R530 name. PRESUMED: the manual names the standards and
does not print them; their constants are taken from the standards.
-/

namespace Sys2Proof

/-- A 32-bit rotation. -/
def rotW (x k : Nat) : Nat := ((x <<< (k % 32)) % 2 ^ 32) ||| (x >>> (32 - k % 32))

/-- The permutation P0. -/
def sm3P0 (x : Nat) : Nat := x ^^^ rotW x 9 ^^^ rotW x 17

/-- The permutation P1. -/
def sm3P1 (x : Nat) : Nat := x ^^^ rotW x 15 ^^^ rotW x 23

/-- The message words W_0 to W_67 of one block. -/
def sm3Expand (blk : List Byte) : List Nat :=
  (List.range 52).foldl (fun w i =>
    let j := i + 16
    let x := sm3P1 (nth w (j - 16) ^^^ nth w (j - 9) ^^^ rotW (nth w (j - 3)) 15) ^^^
      rotW (nth w (j - 13)) 7 ^^^ nth w (j - 6)
    w ++ [x]) ((List.range 16).map (fun i => beNat ((blk.drop (4 * i)).take 4)))

/-- One round of the compression. -/
def sm3Round (w : List Nat) (v : List Nat) (j : Nat) : List Nat :=
  let m := 2 ^ 32
  let a := nth v 0
  let b := nth v 1
  let c := nth v 2
  let e := nth v 4
  let f := nth v 5
  let g := nth v 6
  let t := if j < 16 then 0x79CC4519 else 0x7A879D8A
  let ss1 := rotW ((rotW a 12 + e + rotW t j) % m) 7
  let ss2 := ss1 ^^^ rotW a 12
  let ff := if j < 16 then a ^^^ b ^^^ c else (a &&& b) ||| (a &&& c) ||| (b &&& c)
  let gg := if j < 16 then e ^^^ f ^^^ g else (e &&& f) ||| ((m - 1 - e) &&& g)
  let tt1 := (ff + nth v 3 + ss2 + (nth w j ^^^ nth w (j + 4))) % m
  let tt2 := (gg + nth v 7 + ss1 + nth w j) % m
  [tt1, a, rotW b 9, c, sm3P0 tt2, e, rotW f 19, g]

/-- Compress one block into the chaining value. -/
def sm3Block (v : List Nat) (blk : List Byte) : List Nat :=
  let w := sm3Expand blk
  List.zipWith (· ^^^ ·) v ((List.range 64).foldl (sm3Round w) v)

/-- The padded message. -/
def sm3Pad (m : List Byte) : List Byte :=
  m ++ [0x80] ++ zeros ((119 - m.length % 64) % 64) ++ natBe 8 (8 * m.length)

/-- Blocks one after another. -/
def sm3Go : Nat → List Nat → List Byte → List Nat
  | 0, v, _ => v
  | n + 1, v, m => sm3Go n (sm3Block v (m.take 64)) (m.drop 64)

/-- The SM3 digest, 32 bytes. -/
def sm3 (m : List Byte) : List Byte :=
  (sm3Go ((sm3Pad m).length / 64)
    [0x7380166F, 0x4914B2B9, 0x172442D7, 0xDA8A0600, 0xA96F30BC, 0x163138AA, 0xE38DEE4D, 0xB0FB0E4E] (sm3Pad m)).flatMap
    (natBe 4)

/-! ### The curve -/

/-- The prime of the field. -/
def sm2p : Nat := 0xFFFFFFFEFFFFFFFFFFFFFFFFFFFFFFFFFFFFFFFF00000000FFFFFFFFFFFFFFFF
/-- The coefficient b; a is p - 3. -/
def sm2b : Nat := 0x28E9FA9E9D9F5E344D5A9E4BCF6509A7F39789F515AB8F92DDBCBD414D940E93
/-- The order of the base point. -/
def sm2n : Nat := 0xFFFFFFFEFFFFFFFFFFFFFFFFFFFFFFFF7203DF6B21C6052B53BBF40939D54123
/-- The base point. -/
def sm2G : Nat × Nat :=
  (0x32C4AE2C1F1981195F9904466A39C9948FE30BBFF2660BE1715A4589334C74C7,
   0xBC3736A2F4F6779C59BDCEE36B692153D0A9877CC62A474002DF32E52139F0A0)

/-- `x ^ e mod m`, `fuel` bits of the exponent. -/
def powMod (m : Nat) : Nat → Nat → Nat → Nat → Nat
  | 0, _, _, acc => acc
  | fuel + 1, x, e, acc => powMod m fuel (x * x % m) (e / 2) (if e % 2 = 1 then acc * x % m else acc)

/-- The inverse modulo a 256-bit prime. -/
def invMod (m x : Nat) : Nat := powMod m 256 (x % m) (m - 2) 1

/-- The sum of two points; none is the point at infinity. -/
def ecAdd (p q : Option (Nat × Nat)) : Option (Nat × Nat) :=
  match p, q with
  | none, q => q
  | p, none => p
  | some (x1, y1), some (x2, y2) =>
    if x1 = x2 ∧ (y1 + y2) % sm2p = 0 then none
    else
      let l := if x1 = x2 then (3 * x1 * x1 + (sm2p - 3)) * invMod sm2p (2 * y1) % sm2p
               else (y2 + sm2p - y1) * invMod sm2p (x2 + sm2p - x1) % sm2p
      let x3 := (l * l + 2 * sm2p - x1 - x2) % sm2p
      some (x3, (l * (x1 + sm2p - x3) + sm2p - y1) % sm2p)

/-- A multiple of a point, `fuel` bits of the scalar. -/
def ecMul : Nat → Nat → Option (Nat × Nat) → Option (Nat × Nat) → Option (Nat × Nat)
  | 0, _, _, acc => acc
  | fuel + 1, k, p, acc => ecMul fuel (k / 2) (ecAdd p p) (if k % 2 = 1 then ecAdd acc p else acc)

/-- A public key as 64 bytes (R522). -/
def sm2PubBytes (p : Nat × Nat) : List Byte := natBe 32 p.1 ++ natBe 32 p.2

/-- The public key of a private key. -/
def sm2Pub (k : Nat) : List Byte :=
  match ecMul 256 k (some sm2G) none with
  | some p => sm2PubBytes p
  | none => zeros 64

/-- The signer's identifier of R522. -/
def sm2Id : List Byte := [0x31, 0x32, 0x33, 0x34, 0x35, 0x36, 0x37, 0x38, 0x31, 0x32, 0x33, 0x34, 0x35, 0x36, 0x37, 0x38]

/-- The digest that a signature of message `m` under public key `pub` covers. -/
def sm2Digest (pub m : List Byte) : Nat :=
  beNat (sm3 (sm3 ([0x00, 0x80] ++ sm2Id ++ natBe 32 (sm2p - 3) ++ natBe 32 sm2b ++ sm2PubBytes sm2G ++ pub) ++ m))

/-- Verify a 64-byte signature of `m` under a 64-byte public key. -/
def sm2Verify (pub m sig : List Byte) : Bool :=
  let x := beNat (pub.take 32)
  let y := beNat (pub.drop 32)
  let r := beNat (sig.take 32)
  let s := beNat (sig.drop 32)
  let t := (r + s) % sm2n
  decide (pub.length = 64 ∧ sig.length = 64 ∧ x < sm2p ∧ y < sm2p) &&
  decide (y * y % sm2p = (x * x * x + (sm2p - 3) * x + sm2b) % sm2p) &&
  decide (1 ≤ r ∧ r < sm2n ∧ 1 ≤ s ∧ s < sm2n ∧ t ≠ 0) &&
  (match ecAdd (ecMul 256 s (some sm2G) none) (ecMul 256 t (some (x, y)) none) with
   | some (x1, _) => (sm2Digest pub m + x1) % sm2n == r
   | none => false)

/-- Sign `m` with private key `d` and per-signature random value `k`. -/
def sm2Sign (d k : Nat) (m : List Byte) : List Byte :=
  let k := k % (sm2n - 1) + 1
  match ecMul 256 k (some sm2G) none with
  | some (x1, _) =>
    let r := (sm2Digest (sm2Pub d) m + x1) % sm2n
    let s := invMod sm2n (1 + d) * (k + sm2n * sm2n - r * d) % sm2n
    natBe 32 r ++ natBe 32 s
  | none => zeros 64

/-- The key derivation function of GB/T 32918: `n` bytes from `z`. -/
def sm2Kdf (z : List Byte) (n : Nat) : List Byte :=
  ((List.range (ceilDiv n 32)).flatMap (fun i => sm3 (z ++ natBe 4 (i + 1)))).take n

/-- A private key from a secret and a label (R530). -/
def sm2Derive (secret lbl : List Byte) : Nat := beNat (sm2Kdf (secret ++ lbl) 40) % (sm2n - 1) + 1

end Sys2Proof
end

