-- ==== Sys2Proof/Machine/Fabric.lean ====
section
/-!
DEFINITION. Rhumb (chapter 13): packet headers (R365, R366), the link layer with tags, credits and replay (R360 to R364),
routing (R370 to R372), discovery (R373 to R381) and the messages of Table 13-12, and the merge of rows in transit (R405).
-/

namespace Sys2Proof.Machine

/-- The identity digest (R530). -/
def identDigest (d : Dev) : List Byte := if d.sec.identPub = [] then zeros 32 else sm3 d.sec.identPub

/-! ### Coordinates (R369, R373) -/

/-- Component `k` of a coordinate. -/
def coordAt (c k : Nat) : Nat := bits c (16 - 4 * k) 4
/-- A coordinate with component `k` replaced. -/
def coordPut (c k v : Nat) : Nat := setBits c (16 - 4 * k) 4 v
/-- The machine extent of dimension `k`. -/
def extentOf (d : Dev) (k : Nat) : Nat := bits d.pow.siteCode.toNat (20 + 4 * k) 4 + 1
/-- The coordinate names a module of the machine (R369). -/
def namesModule (d : Dev) (c : Nat) : Bool := (List.range 5).all (fun k => decide (coordAt c k < extentOf d k))

/-! ### Headers (Table 13-6) -/

/-- The 32 bytes of a packet's header, with its CRC. -/
def pktHdr (p : Pkt) : List Byte :=
  sealRec (natLe 1 p.kind ++ natLe 1 p.len ++ natLe 1 (p.maybe.toNat * 8 + p.fixed.toNat * 4 + p.vc) ++
    natLe 1 p.hops ++
    natLe 4 (p.rvalid.toNat <<< 30 + p.runit <<< 26 + p.rexp <<< 24 + p.rdir.toNat <<< 23 + p.rdim <<< 20 + p.dst) ++
    natLe 4 p.src ++ natLe 4 p.tag ++ padTo 12 p.body)

/-- The packet that 32 header bytes and a payload spell. -/
def pktOf (h payload : List Byte) : Pkt :=
  let f := fld h 2 1
  let r := fld h 4 4
  { kind := fld h 0 1, len := fld h 1 1 % 32, maybe := f.testBit 3, fixed := f.testBit 2, vc := f % 2, hops := fld h 3 1,
    rvalid := r.testBit 30, runit := bits r 26 4, rexp := bits r 24 2, rdir := r.testBit 23, rdim := bits r 20 3,
    dst := r % 2 ^ 20, src := fld h 8 4 % 2 ^ 20, tag := fld h 12 4, body := (h.drop 16).take 12,
    payload := payload }

/-- The reserved bits of a header are zero and PH_LEN is at most 16 (Table 13-6). -/
def hdrForm (h : List Byte) : Bool :=
  decide (fld h 1 1 ≤ 16) && bits (fld h 2 1) 4 4 == 0 && !(fld h 2 1).testBit 1 && !(fld h 4 4).testBit 31 &&
    decide (fld h 8 4 < 2 ^ 20)

/-- The body and payload of a packet for this module have the form of Tables 13-7 and 14-3: reserved bytes zero, every value in
its range, and the payload units that it needs (R17, R407). A READ or WRITE is judged where it is served (R367). -/
def pktForm (p : Pkt) : Bool :=
  let b := p.body
  let z := zeroAt b
  let key := fun (l : List Byte) => fld l 6 2 / 16 == 0
  match p.kind with
  | 0x02 => z 0 12 && p.len == 0
  | 0x04 => z 0 12
  | 0x05 => z 2 10 && p.len == 0
  | 0x06 => decide (1 ≤ fld b 1 1 ∧ fld b 1 1 ≤ 4) && z 2 2 && z 8 4 && p.len == 0
  | 0x10 => key b && decide (fld b 10 1 < 2) && z 11 1 && p.len == 1 && zeroAt p.payload 8 56
  | 0x11 => key b && z 10 2
  | 0x12 => decide (1 ≤ fld b 2 2 ∧ fld b 2 2 ≤ 1024) && p.len == 1 && decide (fld p.payload 8 1 < 2) && zeroAt p.payload 9 55
  | 0x13 => decide (1 ≤ fld b 2 2 ∧ fld b 2 2 ≤ 1024) && p.len == ceilDiv (fld b 2 2) 64
  | 0x20 =>
    let n := fld b 7 1
    let g := bits (fld b 6 1) 4 2
    decide (fld b 6 1 < 64) && decide (1 ≤ n ∧ n ≤ 16) && z 8 4 && p.len == (if g = 3 then n + 1 else n)
  | 0x21 => decide (fld b 6 1 < 64) && decide (fld b 8 1 < 2) && z 9 3 && p.len == 0
  | 0x28 => true
  | 0x29 => p.len == 0
  | 0x30 =>
    let n := fld b 2 1
    let h := p.payload
    decide (1 ≤ n ∧ n ≤ 124) && z 3 1 && decide (fld b 4 4 < 2 ^ 20) && z 8 4 && p.len == ceilDiv (32 + 8 * n) 64 && key h &&
      decide (fld h 14 1 < 4) && zeroAt h 15 1 && zeroAt h 24 8
  | 0x31 => decide (1 ≤ fld b 0 1 ∧ fld b 0 1 ≤ 2) && z 1 11 && p.len == 0
  | 0x38 => z 2 10 && p.len == 1
  | 0x39 => z 2 10 && p.len == 1
  | 0x3A => z 2 2 && p.len == 0
  | 0x40 => decide (fld b 4 1 < 16) && z 5 7 && p.len == 0
  | 0x41 => decide (fld b 4 1 < 16) && z 5 7 && p.len == 0
  | _ => true

/-- A packet of the module's own, not yet routed. -/
def pktNew (d : Dev) (kind dst tag : Nat) (fixed : Bool) (body payload : List Byte) : Pkt :=
  { kind := kind, len := ceilDiv payload.length 64, maybe := false, fixed := fixed, vc := 0, hops := 0, rvalid := false,
    runit := 0, rexp := 0, rdir := false, rdim := 0, dst := dst, src := ownCoord d, tag := tag, body := padTo 12 body,
    payload := padTo (64 * ceilDiv payload.length 64) payload }

/-- The defined kinds (Tables 13-7 and 14-3). -/
def kindDefined (k : Nat) : Bool :=
  [1, 2, 3, 4, 5, 6, 0x10, 0x11, 0x12, 0x13, 0x20, 0x21, 0x28, 0x29, 0x30, 0x31, 0x38, 0x39, 0x3A, 0x40, 0x41,
    0x60, 0x61, 0x62, 0x63].contains k

/-- A discovery kind: link-local and never forwarded. -/
def kindLocal (k : Nat) : Bool := decide (0x60 ≤ k ∧ k ≤ 0x63)

/-! ### Ports -/

/-- A port. -/
def portGet (d : Dev) (p : Nat) : Port := smGet port0 d.fab.ports p
/-- Replace a port. -/
def portSet (d : Dev) (p : Nat) (v : Port) : Dev := { d with fab := { d.fab with ports := smSet port0 d.fab.ports p v } }
/-- Change a port. -/
def portMod (d : Dev) (p : Nat) (f : Port → Port) : Dev := portSet d p (f (portGet d p))
/-- The port is IN_SERVICE. -/
def inService (d : Dev) (p : Nat) : Bool := (portGet d p).state == 6

/-- An 8-byte link tag (Table 13-4). -/
def tagWord (sq ack typ c0 c1 : Nat) : Nat :=
  let t := sq <<< 48 + ack <<< 32 + typ <<< 30 + c0 <<< 22 + c1 <<< 16
  t + tagCheck t

/-- A tag passes its check and has a defined type (R361). -/
def tagOk (t : Nat) : Bool := t % 65536 == tagCheck t && bits t 30 2 != 3

/-- The next tag of a port, of a type, with the credits that it returns. -/
def nextTagWord (v : Port) (typ : Nat) : Port × Nat :=
  let c0 := min 63 v.owed0
  let c1 := min 63 v.owed1
  ({ v with owed0 := v.owed0 - c0, owed1 := v.owed1 - c1 }, tagWord v.txSeq v.rxSeq typ c0 c1)

/-- Send an idle tag or a replay request. -/
def sendTag (d : Dev) (p typ : Nat) : Dev :=
  portMod d p (fun v => let r := nextTagWord v typ; { r.1 with tx := r.1.tx ++ [.tag r.2] })

/-- Credit units of a packet: its payload units and one for its header. -/
def pktUnits (p : Pkt) : Nat := p.len + 1

/-- Units in a replay buffer of 512 KiB (R361). -/
def replayUnits (v : Port) : Nat := (v.replay.map (fun s => pktUnits s.pkt)).foldl (· + ·) 0

/-- The port may send this packet now: state, credit and replay buffer. -/
def maySend (v : Port) (p : Pkt) : Bool :=
  (v.state == 6 || (kindLocal p.kind && v.trained)) &&
    decide (pktUnits p ≤ if p.vc = 0 then v.cred0 else v.cred1) && decide (replayUnits v + pktUnits p ≤ 8192)

/-- Send one packet: tag, header, payload, and a copy in the replay buffer. -/
def sendOne (v : Port) (p : Pkt) : Port :=
  let r := nextTagWord v 0
  { r.1 with tx := r.1.tx ++ [.packet r.2 (pktHdr p) p.payload], txSeq := (v.txSeq + 1) % 65536,
             replay := v.replay ++ [⟨v.txSeq, p, 0⟩],
             cred0 := if p.vc = 0 then v.cred0 - pktUnits p else v.cred0,
             cred1 := if p.vc = 0 then v.cred1 else v.cred1 - pktUnits p }

/-- Send what the output queue can send; packets of one virtual channel keep their order. -/
def pumpGo : List OutPkt → Port → Port × List OutPkt
  | [], v => (v, [])
  | x :: t, v =>
    if maySend v x.pkt && v.outq.all (fun y => y.pkt.vc != x.pkt.vc) then
      let r := pumpGo t (sendOne v x.pkt)
      (r.1, x :: r.2)
    else pumpGo t { v with outq := v.outq ++ [x] }

/-- A packet leaves the input buffer of the port it came in by, whose credits go back with the next tag (R361, R372); one of
the module's own (port 20) stood in none. -/
def freeInput (d : Dev) (port : Nat) (p : Pkt) : Dev :=
  if 20 ≤ port ∨ !(portGet d port).trained then d
  else
    let u := pktUnits p
    sendTag (portMod d port (fun v => { v with owed0 := v.owed0 + (if p.vc = 0 then u else 0),
                                               owed1 := v.owed1 + (if p.vc = 0 then 0 else u) })) port 1

/-- Send from port `p` and count RH_PC_TXPKT. -/
def pump (d : Dev) (p : Nat) : Dev :=
  let v := portGet d p
  let r := pumpGo v.outq { v with outq := [] }
  r.2.foldl (fun d x => freeInput d x.inPort x.before) (pcAdd (portSet d p r.1) (kPort p) r.2.length)

/-! ### Merged rows in transit (R405) -/

/-- Merge two MROW payloads of equal key: head of Table 7-2, then column pairs (R201). -/
def mrowMerge (a b : List Byte) (cols : Nat) (first : Bool) : List Byte :=
  let n := fld a 8 4 + fld b 8 4
  let head := a.take 8 ++ natLe 4 (if n < 2 ^ 32 then n else 2 ^ 32 - 1) ++ (a.drop 12).take 2 ++
    natLe 1 (fld a 14 1 ||| fld b 14 1 ||| (if 2 ^ 32 ≤ n ∧ first then 2 else 0)) ++ (a.drop 15).take 17
  head ++ (List.range cols).flatMap (fun j =>
    let r := accMerge (fld a (32 + 8 * j) 4, fld a (36 + 8 * j) 4) (fld b (32 + 8 * j) 4, fld b (36 + 8 * j) 4)
    natLe 4 r.1 ++ natLe 4 r.2)

/-- Two fragments may merge: equal destination, key, generation, step and column range. -/
def mrowSame (a b : Pkt) : Bool :=
  a.kind == 0x30 && b.kind == 0x30 && a.dst == b.dst && a.body.take 3 == b.body.take 3 &&
    a.payload.take 8 == b.payload.take 8 && (a.payload.drop 12).take 2 == (b.payload.drop 12).take 2 &&
    (a.payload.drop 16).take 8 == (b.payload.drop 16).take 8

/-- Merge an arriving fragment into one that waits unsent on the port, if there is one and the relay table has room. -/
def tryMerge (d : Dev) (p : Nat) (x : OutPkt) : Option Dev :=
  let v := portGet d p
  if d.fab.det ∨ 4096 ≤ d.fab.relay.length then none
  else
    match v.outq.findIdx? (fun y => mrowSame y.pkt x.pkt) with
    | none => none
    | some i =>
      match v.outq[i]? with
      | none => none
      | some y =>
        let t := d.fab.nextTag
        let pay := padTo (64 * y.pkt.len) (mrowMerge y.pkt.payload x.pkt.payload (fld y.pkt.body 2 1)
          (fld y.pkt.body 0 2 == 0))
        let body := y.pkt.body.take 4 ++ natLe 4 (ownCoord d) ++ y.pkt.body.drop 8
        let fix := fun q : Pkt => { q with tag := t, body := body, payload := pay }
        let y' : OutPkt := { y with pkt := fix y.pkt, before := fix y.before }
        let r : Relay := ⟨fld y.pkt.body 4 4 % 2 ^ 20, y.pkt.tag, fld x.pkt.body 4 4 % 2 ^ 20, x.pkt.tag⟩
        let d := portSet d p { v with outq := v.outq.set i y' }
        some (pcAdd { d with fab := { d.fab with nextTag := (t + 1) % 2 ^ 32, relay := smSet none d.fab.relay t (some r) } }
          (kColl + 1) 1)

/-- A packet whose router header state is lost (R413): one of the module's own requests fails with ST_CTL_LOST, as if its target
had refused it; any other is gone. -/
def routerLost (d : Dev) (x : OutPkt) : Dev :=
  let r : Pkt := { pktNew d 0x05 (ownCoord d) x.pkt.tag true (natLe 2 stCtlLost) [] with src := x.pkt.dst }
  if x.inPort < 20 then freeInput d x.inPort x.before
  else { d with fab := { d.fab with inbox := d.fab.inbox ++ [(20, r)] } }

/-- Put a packet in the output queue of a port and send what can be sent. The router header state of the port, array 9, is
read (R413). -/
def enqueue (d : Dev) (p : Nat) (x : OutPkt) : Dev :=
  let u := ctlUse d 9 p
  let d := u.1
  if u.2 then routerLost d x
  else match (if x.pkt.kind = 0x30 then tryMerge d p x else none) with
  | some d' => freeInput d' x.inPort x.before
  | none => pump (portMod d p (fun v => { v with outq := v.outq ++ [x] })) p

/-! ### Routing (R370 to R372) -/

/-- One hop along a ring of extent `m` from coordinate `v`, in the direction `minus`, of length `s`. -/
def ringStep (m v : Nat) (minus : Bool) (s : Nat) : Nat := if minus then (v + 16 * m - s) % m else (v + s) % m

/-- The view shows the leg of that hop down. Leg `v` is the leg whose plus end has coordinate `v` (R375). -/
def legDown (d : Dev) (k m v : Nat) (minus ex : Bool) : Bool :=
  let r := d.fab.rings.getD k ring0
  let leg := if minus then ringStep m v true (if ex then 4 else 1) else v
  nth (if ex then r.expr else r.unit) leg == 2

/-- `feasible` of R370: some order of `e` express and `u` unit hops from `v` uses no leg that is down. -/
def feasible (d : Dev) (k m : Nat) (minus : Bool) : Nat → Nat → Nat → Nat → Bool
  | 0, e, u, _ => e == 0 && u == 0
  | n + 1, e, u, v =>
    (e == 0 && u == 0) ||
    (decide (0 < u) && !legDown d k m v minus false && feasible d k m minus n e (u - 1) (ringStep m v minus 1)) ||
    (decide (0 < e) && !legDown d k m v minus true && feasible d k m minus n (e - 1) u (ringStep m v minus 4))

/-- The hop counts that R370 tries in one direction, in order. -/
def planCounts (dist : Nat) (m : Nat) : List (Nat × Nat) :=
  let e0 := if 8 ≤ m then dist / 4 else 0
  ((List.range (e0 + 1)).map (fun i => (e0 - i, dist - 4 * (e0 - i)))).filter (fun x => decide (x.2 ≤ 15))

/-- A plan: direction, express hops, unit hops. -/
abbrev HopPlan := Bool × Nat × Nat

/-- The port that a hop leaves by (Table 13-1). -/
def hopPort (k : Nat) (minus ex : Bool) : Nat := 4 * k + (if ex then 2 else 0) + (if minus then 1 else 0)

/-- The moves of a plan that leave the rest feasible, over ports in service (R371): true for express. -/
def planMoves (d : Dev) (k m v : Nat) (pl : HopPlan) : List Bool :=
  [true, false].filter (fun ex =>
    let e := pl.2.1
    let u := pl.2.2
    (if ex then decide (0 < e) else decide (0 < u)) && !legDown d k m v pl.1 ex && inService d (hopPort k pl.1 ex) &&
      feasible d k m pl.1 (e + u) (if ex then e - 1 else e) (if ex then u else u - 1)
        (ringStep m v pl.1 (if ex then 4 else 1)))

/-- The packet as it leaves on a hop: plan, hop count and virtual channel (R372). -/
def hopped (d : Dev) (p : Pkt) (inPort k : Nat) (pl : HopPlan) (ex : Bool) : Pkt :=
  let m := extentOf d k
  let v := coordAt (ownCoord d) k
  let w := ringStep m v pl.1 (if ex then 4 else 1)
  let cross := if pl.1 then decide (v < w) else decide (w < v)
  { p with rvalid := true, rdim := k, rdir := pl.1, rexp := if ex then pl.2.1 - 1 else pl.2.1,
           runit := if ex then pl.2.2 else pl.2.2 - 1, hops := p.hops + 1,
           vc := if cross then 1 else if inPort < 20 ∧ inPort / 4 = k then p.vc else 0 }

/-- The plan and the move for the next hop in dimension `k`, for a packet that came in by `inPort` (R370, R371). Credit
is compared on the channel that each hop requires. -/
def nextHop (d : Dev) (p : Pkt) (inPort k : Nat) : Option (HopPlan × Bool) :=
  let m := extentOf d k
  let v := coordAt (ownCoord d) k
  let f := (coordAt p.dst k + m - v) % m
  let prefer := decide (m - f < f)
  let cands := fun minus : Bool => ((planCounts (if minus then m - f else f) m).filter (fun x =>
    feasible d k m minus (x.1 + x.2) x.1 x.2 v)).map (fun x => ((minus, x) : HopPlan))
  let first : List HopPlan :=
    if p.rvalid ∧ p.rdim = k then [(p.rdir, p.rexp, p.runit)] else (cands prefer ++ cands (!prefer)).take 1
  let dir := match first with
    | pl :: _ => pl.1
    | [] => prefer
  let made := inPort < 20 ∧ inPort / 4 = k
  let all := first ++ cands dir ++ (if made then [] else cands (!dir))
  match all.find? (fun pl => !(planMoves d k m v pl).isEmpty) with
  | none => none
  | some pl =>
    let ms := planMoves d k m v pl
    let cred := fun ex =>
      let q := portGet d (hopPort k pl.1 ex)
      if (hopped d p inPort k pl ex).vc = 0 then q.cred0 else q.cred1
    let ex := if ms.contains true && ms.contains false then p.fixed || decide (cred false ≤ cred true) else ms.contains true
    some (pl, ex)

/-- The lowest dimension in which the destination differs. -/
def routeDim (d : Dev) (dst : Nat) : Option Nat :=
  (List.range 5).find? (fun k => coordAt dst k != coordAt (ownCoord d) k)

/-- The view shows the destination cut off on every leg of the ring it shares with this module. -/
def cutOff (d : Dev) (dst k : Nat) : Bool :=
  let m := extentOf d k
  let v := coordAt dst k
  coordPut (ownCoord d) k v == dst &&
    legDown d k m v false false && legDown d k m v true false &&
    (decide (m < 8) || (legDown d k m v false true && legDown d k m v true true))

/-- Deliver a packet to the module itself. -/
def deliver (d : Dev) (port : Nat) (p : Pkt) : Dev := { d with fab := { d.fab with inbox := d.fab.inbox ++ [(port, p)] } }

/-- The UNDELIVERABLE that answers a packet (Table 13-7). -/
def undeliverable (d : Dev) (p : Pkt) (reason : Nat) (maybe : Bool) : Pkt :=
  { pktNew d 0x06 p.src p.tag true ([BitVec.ofNat 8 p.kind, BitVec.ofNat 8 reason, 0, 0] ++ natLe 4 (ownCoord d)) [] with
    maybe := maybe }

/-- Deliver a packet, send it a hop onward, or return it to its source. An UNDELIVERABLE that cannot be routed is lost. -/
def routePkt : Nat → Dev → Nat → Pkt → Dev
  | 0, d, _, _ => d
  | n + 1, d, inPort, p =>
    let back := fun reason =>
      let d := freeInput d inPort p
      if p.kind = 0x06 then d else routePkt n (pcAdd d kUndeliv 1) 20 (undeliverable d p reason false)
    match routeDim d p.dst with
    | none => deliver d inPort p
    | some k =>
      if inPort < 20 ∧ !d.fab.ready then back 1
      else if 96 ≤ p.hops then back 2
      else match nextHop d p inPort k with
        | none => if cutOff d p.dst k then back 4 else back 1
        | some (pl, ex) => enqueue d (hopPort k pl.1 ex) ⟨hopped d p inPort k pl ex, p, inPort⟩

/-- Send a packet of the module's own. -/
def sendPkt (d : Dev) (p : Pkt) : Dev := routePkt 2 d 20 p

/-- Send a response or another packet that nobody keeps. -/
def sendNew (d : Dev) (kind dst tag : Nat) (body payload : List Byte) : Dev :=
  sendPkt d (pktNew d kind dst tag true body payload)

/-- Refuse a request (Table 13-7). -/
def sendRefuse (d : Dev) (p : Pkt) (st : Nat) : Dev := sendNew d 0x05 p.src p.tag (natLe 2 st) []

/-- Send a request that its issuer keeps until the response arrives (R367). The second component is its tag. -/
def sendReq (d : Dev) (kind dst : Nat) (body payload : List Byte) (who : Issuer) (off : Nat) : Dev × Nat :=
  let t := d.fab.nextTag
  let p := pktNew d kind dst t true body payload
  let d := { d with fab := { d.fab with nextTag := (t + 1) % 2 ^ 32,
                                        reqs := smSet none d.fab.reqs t (some ⟨p, who, off, 0, false⟩) } }
  (sendPkt d p, t)

/-- An outstanding request. -/
def reqGet (d : Dev) (t : Nat) : Option Req := smGet none d.fab.reqs t
/-- Replace or remove an outstanding request. -/
def reqSet (d : Dev) (t : Nat) (r : Option Req) : Dev := { d with fab := { d.fab with reqs := smSet none d.fab.reqs t r } }

/-- What bars a remote access before any packet is sent: a coordinate that names no module (R369), a fabric that is not
ready (R374). -/
def remoteBar (d : Dev) (coord : Nat) : Option Nat :=
  if !namesModule d coord then some stAddrUnmapped else if !d.fab.ready then some stRhNotready else none

/-- PH_BODY of a READ or WRITE. -/
def rwBody (a n : Nat) : List Byte := natLe 8 (localOf a) ++ natLe 2 n

/-- The accesses of at most 1,024 bytes that a remote range takes: address and bytes. -/
def splitRange (a : Nat) : Nat → Nat → List (Nat × Nat)
  | 0, _ => []
  | fuel + 1, n => if n = 0 then [] else (a, min n 1024) :: splitRange (a + min n 1024) fuel (n - min n 1024)

/-- Issue READ requests for a remote range; `off` is where the first byte belongs. The tags are returned. -/
def sendReads (d : Dev) (a n : Nat) (who : Issuer) (off : Nat) : Dev × List Remote :=
  (splitRange a (n / 1024 + 1) n).foldl (fun acc x =>
    let r := sendReq acc.1 0x03 (coordOf a) (rwBody x.1 x.2) [] who (off + (x.1 - a))
    (r.1, acc.2 ++ [⟨r.2, true, x.1, x.2⟩])) (d, [])

/-- Issue WRITE requests for a remote range. -/
def sendWrites (d : Dev) (a : Nat) (bs : List Byte) (who : Issuer) : Dev × List Remote :=
  (splitRange a (bs.length / 1024 + 1) bs.length).foldl (fun acc x =>
    let r := sendReq acc.1 0x01 (coordOf a) (rwBody x.1 x.2) ((bs.drop (x.1 - a)).take x.2) who 0
    (r.1, acc.2 ++ [⟨r.2, false, x.1, x.2⟩])) (d, [])

/-- The first packet of a kind that waits for the module. -/
def inboxFind (d : Dev) (kind : Nat) : Option (Nat × Pkt) := d.fab.inbox.find? (fun x => x.2.kind == kind)

/-- A packet leaves the inbox, and with it the input buffer. -/
def takePkt (d : Dev) (port : Nat) (p : Pkt) : Dev :=
  freeInput { d with fab := { d.fab with inbox := d.fab.inbox.erase (port, p) } } port p

/-- Take the first packet of a kind from the inbox and act on it. -/
def onPacket (d : Dev) (kind : Nat) (f : Dev → Nat → Pkt → Dev) : Dev :=
  match inboxFind d kind with
  | none => d
  | some (port, p) => f (takePkt d port p) port p

/-! ### Discovery (R373 to R381) -/

/-- Send a discovery record on its leg (R375). -/
def sendLocal (d : Dev) (p kind : Nat) (bs : List Byte) : Dev :=
  let q := pktNew d kind (ownCoord d) 0 true [] (sealRec (padTo 60 bs))
  enqueue d p ⟨q, q, 20⟩

/-- Pack values of `w` bits. -/
def packBits (w : Nat) (l : List Nat) : Nat := (List.range l.length).foldl (fun a i => a + (nth l i) <<< (w * i)) 0

/-- A CHART record (Table 13-9). -/
def chartBytes (d : Dev) (k : Nat) : List Byte :=
  let r := d.fab.rings.getD k ring0
  natLe 1 k ++ natLe 1 (extentOf d k - 1) ++ zeros 2 ++ natLe 4 (packBits 2 r.unit) ++ natLe 4 (packBits 2 r.expr) ++
    zeros 4 ++ natLe 8 (packBits 4 r.unitSeq) ++ natLe 8 (packBits 4 r.exprSeq)

/-- Send the CHART of ring `k` on every port of it that is in service, but one. -/
def chartAll (d : Dev) (k except : Nat) : Dev :=
  ((List.range 4).map (fun i => 4 * k + i)).foldl (fun d p =>
    if p ≠ except ∧ inService d p then sendLocal d p 0x63 (chartBytes d k) else d) d

/-- The plus end of a leg reports its state (R380). -/
def legReport (d : Dev) (p : Nat) (up : Bool) : Dev :=
  let k := p / 4
  let v := coordAt (ownCoord d) k
  let r := d.fab.rings.getD k ring0
  let s := if up then 1 else 2
  if p % 2 = 1 ∨ extentOf d k = 1 ∨ (p % 4 = 2 ∧ extentOf d k < 8) then d
  else if nth (if p % 4 = 2 then r.expr else r.unit) v = s then d
  else
    let r' : Ring := if p % 4 = 2 then { r with expr := setAt r.expr v s, exprSeq := setAt r.exprSeq v ((nth r.exprSeq v + 1) % 16) }
      else { r with unit := setAt r.unit v s, unitSeq := setAt r.unitSeq v ((nth r.unitSeq v + 1) % 16) }
    chartAll { d with fab := { d.fab with rings := setAt d.fab.rings k r' } } k 20

/-- The module becomes RHUMB_READY when every present port has settled (R374). -/
def settleReady (o : Otp) (d : Dev) : Dev :=
  if d.pow.sighted && !d.pow.siteInvalid &&
      (List.range 20).all (fun p => !portPresent o p || [1, 6, 7, 8, 9].contains (portGet d p).state) then
    { d with fab := { d.fab with ready := true } }
  else d

/-- Return the packets that a port can no longer carry (R364): those in its replay buffer as UNDELIVERABLE with PH_MAYBE,
those not yet sent around the port. -/
def portDrain (d : Dev) (p : Nat) : Dev :=
  let v := portGet d p
  let d := portSet d p { v with replay := [], outq := [] }
  let d := v.replay.foldl (fun d s =>
    if kindLocal s.pkt.kind ∨ s.pkt.kind = 0x06 then d
    else routePkt 2 (pcAdd d kUndeliv 1) 20 (undeliverable d s.pkt 3 true)) d
  v.outq.foldl (fun d x => if kindLocal x.pkt.kind then d else routePkt 2 d x.inPort x.before) d

/-- A port takes a state other than IN_SERVICE. -/
def portLeave (o : Otp) (d : Dev) (p st reason : Nat) : Dev :=
  let d := portMod d p (fun v => { v with state := st, reason := reason })
  settleReady o (portDrain (legReport d p false) p)

/-- Sighting of a port starts, or starts again (R376): the link layer starts afresh. -/
def startSighting (o : Otp) (d : Dev) (p : Nat) : Dev :=
  let d := portLeave o d p 2 0
  let v := portGet d p
  portSet d p { port0 with state := 2, retiredLanes := v.retiredLanes, retrains := v.retrains, cw := v.cw, badAt := v.badAt,
                           fixAt := v.fixAt, retrainAt := v.retrainAt, tx := v.tx, media := v.media, lenCm := v.lenCm }

/-- A port is retired (R362, R363). -/
def portRetire (o : Otp) (d : Dev) (p : Nat) : Dev :=
  if (portGet d p).state = 9 then d
  else logRec (portLeave o d p 9 0) 2 2 10 4 p stOk 0 false []

/-- A retrain (R362, R377): Sighting starts again, the Ledger counts it, and the eighth within 2^32 codewords retires
the port. -/
def portRetrain (o : Otp) (d : Dev) (p : Nat) : Dev :=
  let v := portGet d p
  let at' := v.retrainAt.filter (fun c => decide (v.cw < c + 2 ^ 32)) ++ [v.cw]
  let d := lgAdd o (portSet d p { v with retrains := v.retrains + 1, retrainAt := at' }) 4 1
  if 8 ≤ at'.length then portRetire o d p else startSighting o d p

/-- R361: everything is discarded up to the next replay, which is asked for. -/
def linkBad (d : Dev) (p : Nat) : Dev := sendTag (portMod d p (fun v => { v with discard := true })) p 2

/-- Lanes of a mask. -/
def laneCount (m : Nat) : Nat := popcount 4 m

/-- A lane is retired (R362, R363), and the receiver asks for a replay from its LT_ACK; on a port of two lanes the port is. -/
def laneRetire (o : Otp) (d : Dev) (p lane : Nat) : Dev :=
  let v := portGet d p
  if !v.lanes.testBit lane then d
  else
    let d := portSet d p { v with lanes := v.lanes - 2 ^ lane, retiredLanes := v.retiredLanes ||| 2 ^ lane,
                                  fixAt := v.fixAt.filter (fun x => x.2.1 != lane) }
    let d := lgAdd o (logRec d 2 2 10 5 p stOk lane false []) 5 1
    if laneCount v.lanes ≤ 2 then portRetire o d p else linkBad d p

/-- A cage that is off, open or without plug: its ports are NOPLUG, and R364 applies (R494). -/
def plugLost (o : Otp) (d : Dev) (p : Nat) : Dev :=
  if !portPresent o p ∨ !d.pow.sighted ∨ d.pow.siteInvalid ∨ (portGet d p).state = 9 then d
  else portLeave o (portMod d p (fun v => { v with partner := [], signal := false, trained := false, lanes := 0 })) p 1 0

/-- A cage that is powered again: its ports start Sighting (R494). -/
def plugReturn (o : Otp) (d : Dev) (p : Nat) : Dev :=
  if !portPresent o p ∨ !d.pow.sighted ∨ d.pow.siteInvalid ∨ (portGet d p).state = 9 then d else startSighting o d p

/-! ### Link events -/

/-- The acknowledgement covers a sequence number. -/
def ackCovers (ack sq : Nat) : Bool := decide (subMod 65536 ack sq < 32768)

/-- Take the acknowledgement and the credits of a tag (R360, R361). -/
def takeTag (d : Dev) (p t : Nat) : Dev :=
  pump (portMod d p (fun v =>
    { v with replay := v.replay.filter (fun s => !ackCovers (bits t 32 16) s.lseq),
             cred0 := min 1024 (v.cred0 + bits t 22 6), cred1 := min 1024 (v.cred1 + bits t 16 6) })) p

/-- The port's link is up: its lanes have trained. -/
def linkUp (d : Dev) (p : Nat) : Bool := (portGet d p).trained && [2, 3, 4, 5, 6].contains (portGet d p).state

/-- Everything that comes is discarded, up to the tag that begins the next replay (`rp`, R361). -/
def linkDiscards (d : Dev) (p : Nat) (rp : Bool) : Bool := (portGet d p).discard && !rp

/-- What comes from now on is taken. -/
def linkTakes (d : Dev) (p : Nat) : Dev := portMod d p (fun v => { v with discard := false })

/-- LINK_TAG_RECEIVE (R360, R361): an idle tag, or the tag of a packet; `rp` when a replay begins with it. -/
def linkTagDev (p : Nat) (t : W64) (rp : Bool) (_o : Otp) (d : Dev) : Dev :=
  if !linkUp d p || linkDiscards d p rp then d
  else if !tagOk t.toNat then linkBad d p
  else takeTag (linkTakes d p) p t.toNat

/-- LINK_TAG_RECEIVE. -/
def execLinkTagReceive (p : Nat) (t : LinkTag) (s : State) : Host.Outcome State Fault Refusal :=
  runDev (linkTagDev p t.tag t.replays) s

/-- A packet with an encoding that the manual does not define is counted and logged as one of a reserved kind (log 158). -/
def pktBad (d : Dev) (p : Nat) : Dev := logRec (pcAdd d kBadKind 1) 6 0 10 4 p stOk 0 false []

/-- A packet that breaks a form is dropped, counted and logged as one of a reserved kind is (R17, R366; log 158). -/
def pktReject (d : Dev) (p : Nat) (q : Pkt) : Dev := freeInput (pktBad d p) p q

/-- A discovery record passes its own CRC (R375). -/
def recordOk (q : Pkt) : Bool := q.len == 1 && sealOk 64 (q.payload.take 64)

/-- A discovery record has the form of Table 13-9: reserved bytes zero and every encoding defined. A SIGHT of another protocol
is judged by its protocol alone. -/
def recordForm (q : Pkt) : Bool :=
  let r := q.payload
  let legs := fun off => (List.range 16).all (fun v => bits (fld r off 4) (2 * v) 2 != 3)
  match q.kind with
  | 0x60 => fld r 0 1 != 1 || (decide (fld r 3 1 < 16) && decide (fld r 4 4 < 2 ^ 20) && decide (fld r 18 1 < 3) && zeroAt r 19 41)
  | 0x61 => decide (1 ≤ fld r 0 1 ∧ fld r 0 1 ≤ 2) && zeroAt r 3 1 && zeroAt r 16 44
  | 0x62 => zeroAt r 0 4 && decide (fld r 4 4 < 2 ^ 20) && decide (fld r 8 8 < 2 ^ 20) && zeroAt r 16 44
  | _ => decide (fld r 0 1 < 5) && decide (fld r 1 1 < 16) && zeroAt r 2 2 && legs 4 && legs 8 && zeroAt r 12 4 && zeroAt r 32 28

/-- A packet that the port has accepted: a discovery record stays on the port, any other is routed; a reserved kind is
dropped, counted and logged (R366), and so is a packet with a reserved encoding (R17): of its header at any router, of its body
at its destination. -/
def acceptPkt (d : Dev) (p : Nat) (form : Bool) (q : Pkt) : Dev :=
  if !form || !kindDefined q.kind || (if kindLocal q.kind then !recordForm q else routeDim d q.dst == none && !pktForm q) then
    pktReject d p q
  else if kindLocal q.kind then deliver d p q
  else routePkt 3 d p q

/-- PACKET_ARRIVAL (R361, R365, R370): a packet after its tag, with which a replay begins (`rp`) or not. A header that fails its
CRC is dropped and replayed, and so is a discovery record that fails its own (R375); one that is not the next in order is
discarded. -/
def packetArrivalDev (p : Nat) (t : W64) (rp : Bool) (h payload : List Byte) (_o : Otp) (d : Dev) : Dev :=
  if !linkUp d p || linkDiscards d p rp then d
  else if !tagOk t.toNat ∨ bits t.toNat 30 2 ≠ 0 then linkBad d p
  else
    let d := takeTag (linkTakes d p) p t.toNat
    let v := portGet d p
    let q := pktOf h payload
    if bits t.toNat 48 16 ≠ (v.rxSeq + 1) % 65536 then d
    else if !sealOk 32 h ∨ h.length ≠ 32 ∨ payload.length ≠ 64 * (fld h 1 1 % 32) then
      linkBad (pcAdd d (kPort p + 5) 1) p
    else if kindLocal q.kind && !recordOk q then linkBad d p
    else
      let d := portMod d p (fun v => { v with rxSeq := (v.rxSeq + 1) % 65536 })
      sendTag (acceptPkt (pcAdd d (kPort p + 1) 1) p (hdrForm h) q) p 1

/-- PACKET_ARRIVAL. -/
def execPacketArrival (p : Nat) (t : LinkTag) (h payload : List Byte) (s : State) : Host.Outcome State Fault Refusal :=
  runDev (packetArrivalDev p t.tag t.replays h payload) s

/-- Corrected symbols of a lane inside the window of 2^24 codewords. -/
def laneSymbols (v : Port) (lane : Nat) : Nat := ((v.fixAt.filter (fun x => x.2.1 == lane)).map (fun x => x.2.2)).foldl (· + ·) 0

/-- Advance the port's codeword count by `n` and drop the events that leave the window of 2^24. -/
def cwAdvance (v : Port) (n : Nat) : Port :=
  let c := v.cw + n
  { v with cw := c, badAt := v.badAt.filter (fun x => decide (c < x + 2 ^ 24)),
           fixAt := v.fixAt.filter (fun x => decide (c < x.1 + 2 ^ 24)) }

/-- CODEWORD_CORRECTED (R362): after `n` further codewords, one in which the FEC corrected symbols, by lane. -/
def codewordFixDev (p n : Nat) (syms : List Nat) (o : Otp) (d : Dev) : Dev :=
  if !linkUp d p then d
  else
    let d := portMod d p (fun v =>
      let v := cwAdvance v (n + 1)
      let hit := (List.range 4).filter (fun l => v.lanes.testBit l && nth syms l != 0)
      { v with fixAt := v.fixAt ++ hit.map (fun l => (v.cw, l, nth syms l)) })
    let d := pcAdd d (kPort p + 2) 1
    (List.range 4).foldl (fun d l => if 2 ^ 20 ≤ laneSymbols (portGet d p) l then laneRetire o d p l else d) d

/-- CODEWORD_CORRECTED. -/
def execCodewordCorrected (p n : Nat) (syms : List Nat) (s : State) : Host.Outcome State Fault Refusal :=
  runDev (codewordFixDev p n syms) s

/-- The active lane with the most corrected symbols in the window, the lowest of equals. -/
def worstLane (v : Port) : Nat :=
  (onesBelow 4 v.lanes).foldl (fun b l => if laneSymbols v b < laneSymbols v l ∨ !v.lanes.testBit b then l else b) 0

/-- CODEWORD_UNCORRECTABLE (R361, R362): after `n` further codewords, one that fails, or a tag or header that does (`cw`
false). Everything up to the replay is discarded. -/
def codewordBadDev (p n : Nat) (cw : Bool) (o : Otp) (d : Dev) : Dev :=
  if !linkUp d p then d
  else
    let d := portMod d p (fun v => cwAdvance v n)
    if !cw then linkBad d p
    else
      let d := pcAdd (portMod d p (fun v =>
        let v := cwAdvance v 1
        { v with badAt := v.badAt ++ [v.cw] })) (kPort p + 3) 1
      let v := portGet d p
      if 32 ≤ v.badAt.length then laneRetire o (portSet d p { v with badAt := [] }) p (worstLane v) else linkBad d p

/-- CODEWORD_UNCORRECTABLE. -/
def execCodewordUncorrectable (p n : Nat) (cw : Bool) (s : State) : Host.Outcome State Fault Refusal :=
  runDev (codewordBadDev p n cw) s

/-- Send again every packet after an acknowledgement, in the original order (R361). -/
def replayAll (v : Port) : Port :=
  let tx := v.replay.map (fun s => PortOut.packet (tagWord s.lseq v.rxSeq 0 0 0) (pktHdr s.pkt) s.pkt.payload)
  { v with tx := v.tx ++ tx, replay := v.replay.map (fun s => { s with replays := s.replays + 1 }) }

/-- REPLAY_REQUEST (R361, R362): the port is retired when one packet has been replayed 8 times. -/
def replayRequestDev (p : Nat) (t : W64) (o : Otp) (d : Dev) : Dev :=
  if !linkUp d p then d
  else if !tagOk t.toNat then linkBad d p
  else if bits t.toNat 30 2 ≠ 2 then takeTag d p t.toNat
  else
    let d := takeTag d p t.toNat
    let d := pcAdd (portMod d p replayAll) (kPort p + 4) 1
    if (portGet d p).replay.any (fun s => decide (8 ≤ s.replays)) then portRetire o d p else d

/-- REPLAY_REQUEST. -/
def execReplayRequest (p : Nat) (t : W64) (s : State) : Host.Outcome State Fault Refusal := runDev (replayRequestDev p t) s

/-- LANE_LOSS_OF_LOCK (R362). -/
def laneLossDev (p lane : Nat) (o : Otp) (d : Dev) : Dev :=
  if !linkUp d p ∨ !(portGet d p).lanes.testBit lane then d else laneRetire o d p lane

/-- LANE_LOSS_OF_LOCK. -/
def execLaneLossOfLock (p lane : Nat) (s : State) : Host.Outcome State Fault Refusal := runDev (laneLossDev p lane) s

/-- PORT_LINK_LOSS (R362, R364): the port leaves service and retrains. -/
def portLossDev (p : Nat) (o : Otp) (d : Dev) : Dev := if !linkUp d p then d else portRetrain o d p

/-- PORT_LINK_LOSS. -/
def execPortLinkLoss (p : Nat) (s : State) : Host.Outcome State Fault Refusal := runDev (portLossDev p) s

/-! ### Discovery rows -/

/-- PARTNER_SIGNAL_DETECT (R376, R377): a SILENT port keeps listening and goes back to Sighting. -/
def signalDev (p : Nat) (o : Otp) (d : Dev) : Dev :=
  let v := portGet d p
  if !portPresent o p then d
  else if v.state = 2 then portSet d p { v with signal := true }
  else if v.state = 7 then portMod (startSighting o d p) p (fun v => { v with signal := true })
  else d

/-- PARTNER_SIGNAL_DETECT. -/
def execPartnerSignalDetect (p : Nat) (s : State) : Host.Outcome State Fault Refusal := runDev (signalDev p) s

/-- The reach of a media in cm (Table 13-3). -/
def mediaReach (m : Nat) : Nat := if m = 0 then 150 else if m = 1 then 500 else 10000

/-- The length of a leg in cm from the round-trip symbols less the turnaround (R376). -/
def legLength (media rtt : Nat) : Nat := rtt * (if media = 2 then 68 else 70) * 29979245800 / (100 * 224000000000)

/-- The SIGHT record of a port (Table 13-9). -/
def sightBytes (o : Otp) (d : Dev) (p : Nat) : List Byte :=
  let v := portGet d p
  [1, BitVec.ofNat 8 p, BitVec.ofNat 8 (grade o), BitVec.ofNat 8 v.lanes] ++
    natLe 4 (ofBits ((List.range 20).map (portPresent o))) ++ (identDigest d).take 8 ++ natLe 2 v.lenCm ++ natLe 1 v.media

/-- LANE_TRAINING_COMPLETE (R376): the lanes that trained, and the round-trip symbols of the marker less the turnaround.
The length is a fix, and SIGHT is sent. -/
def trainedDev (p lanes rtt : Nat) (o : Otp) (d : Dev) : Dev :=
  let v := portGet d p
  if v.state ≠ 2 ∨ !v.signal ∨ v.trained then d
  else
    let media := (smGet cage0 d.sx.cages (p / 2)).media
    let ls := onesBelow 4 lanes |>.filter (fun l => !v.retiredLanes.testBit l)
    let mask := (ls.map (2 ^ ·)).foldl (· + ·) 0
    let len := legLength media rtt
    let d := portSet d p { v with trained := true, lanes := mask, lenCm := len, media := media }
    let d := putFix d 6 p 0 (natLe 2 len ++ natLe 1 media ++ natLe 1 mask ++ natLe 4 rtt)
    sendLocal d p 0x60 (sightBytes o d p)

/-- LANE_TRAINING_COMPLETE. -/
def execLaneTrainingComplete (p lanes rtt : Nat) (s : State) : Host.Outcome State Fault Refusal :=
  runDev (trainedDev p lanes rtt) s

/-- SILENT_TIMEOUT (R377). -/
def silentDev (p : Nat) (o : Otp) (d : Dev) : Dev :=
  let v := portGet d p
  if v.state = 2 ∧ !v.signal then portLeave o d p 7 0 else d

/-- SILENT_TIMEOUT. -/
def execSilentTimeout (p : Nat) (s : State) : Host.Outcome State Fault Refusal := runDev (silentDev p) s

/-- TRAINING_TIMEOUT (R377): Sighting starts again, which counts as a retrain. -/
def trainingTimeoutDev (p : Nat) (o : Otp) (d : Dev) : Dev :=
  let v := portGet d p
  if v.state = 2 ∧ v.signal ∧ !v.trained then portRetrain o d p else d

/-- TRAINING_TIMEOUT. -/
def execTrainingTimeout (p : Nat) (s : State) : Host.Outcome State Fault Refusal := runDev (trainingTimeoutDev p) s

/-- EXCLUDED_RETRY (Table 13-8); a port that DZ_RH_PORT_CTL took out stays out (reason 0). -/
def excludedRetryDev (p : Nat) (o : Otp) (d : Dev) : Dev :=
  let v := portGet d p
  if v.state = 8 ∧ v.reason ≠ 0 then startSighting o d p else d

/-- EXCLUDED_RETRY. -/
def execExcludedRetry (p : Nat) (s : State) : Host.Outcome State Fault Refusal := runDev (excludedRetryDev p) s

/-- The first reason of Hail that excludes the partner (R378), 0 for none. -/
def hailReason (d : Dev) (p : Nat) (sight : List Byte) : Nat :=
  let v := portGet d p
  if fld sight 0 1 ≠ 1 then 1
  else if fld sight 1 1 ≠ p ^^^ 1 then 2
  else if !(fld sight 4 4).testBit (fld sight 1 1) then 3
  else if mediaReach v.media < v.lenCm then 7
  else if (sight.drop 8).take 8 = (identDigest d).take 8 then 8
  else 0

/-- SIGHT (R376, R378): the partner's record is kept, a PARTNER fix holds it, and HAIL carries the verdict on it. -/
def sightDev (o : Otp) (d : Dev) : Dev :=
  onPacket d 0x60 (fun d p q =>
    let v := portGet d p
    if v.state ≠ 2 ∨ !v.trained then d
    else
      let r := hailReason d p q.payload
      let d := portSet d p { v with state := 3, partner := q.payload.take 60, reason := 0 }
      let d := putFix d 8 p 0 (q.payload.take 36)
      let d := sendLocal d p 0x61 ([if r = 0 then 1 else 2, BitVec.ofNat 8 r, BitVec.ofNat 8 p, 0] ++
        natLe 4 (fld q.payload 1 1) ++ (q.payload.drop 8).take 8)
      if r = 0 then d else portLeave o d p 8 r)

/-- SIGHT. -/
def execSight (s : State) : Host.Outcome State Fault Refusal := runDev sightDev s

/-- HAIL (R378, R379): accepted at both ends the leg passes to FIXING and FIX is sent; excluded at one end, both
exclude. -/
def hailDev (o : Otp) (d : Dev) : Dev :=
  onPacket d 0x61 (fun d p q =>
    let v := portGet d p
    if v.state < 3 ∨ 6 < v.state then d
    else if fld q.payload 0 1 = 2 then portLeave o d p 8 (fld q.payload 1 1)
    else if v.state = 3 then
      sendLocal (portSet d p { v with state := 4 }) p 0x62
        (zeros 4 ++ natLe 4 (ownCoord d) ++ natLe 8 (bits d.pow.siteCode.toNat 20 20))
    else d)

/-- HAIL. -/
def execHail (s : State) : Host.Outcome State Fault Refusal := runDev hailDev s

/-- The first reason of Fix that excludes the partner (R379), 0 for none. -/
def fixReason (d : Dev) (p : Nat) (r : List Byte) : Nat :=
  let k := p / 4
  let m := extentOf d k
  let v := coordAt (ownCoord d) k
  if fld r 4 4 % 2 ^ 20 ≠ coordPut (ownCoord d) k (ringStep m v (p % 2 == 1) (if p % 4 < 2 then 1 else 4)) then 4
  else if fld r 8 8 % 2 ^ 20 ≠ bits d.pow.siteCode.toNat 20 20 then 5
  else if 2 ≤ p % 4 ∧ m < 8 then 6
  else 0

/-- FIX (R379, R380): the leg passes to CHARTING and CHART is sent, or both ends exclude. -/
def fixDev (o : Otp) (d : Dev) : Dev :=
  onPacket d 0x62 (fun d p q =>
    let v := portGet d p
    if v.state ≠ 4 then d
    else
      let r := fixReason d p q.payload
      if r ≠ 0 then
        portLeave o (sendLocal d p 0x61 ([2, BitVec.ofNat 8 r, BitVec.ofNat 8 p, 0] ++ natLe 4 (fld v.partner 1 1) ++
          (v.partner.drop 8).take 8)) p 8 r
      else sendLocal (portSet d p { v with state := 5 }) p 0x63 (chartBytes d (p / 4)))

/-- FIX. -/
def execFix (s : State) : Host.Outcome State Fault Refusal := runDev fixDev s

/-- Take the entries of a received CHART that are newer than the view (R380). -/
def chartTake (own ownSeq got gotSeq : List Nat) : List Nat × List Nat :=
  let new := fun v => nth got v != 0 && (nth own v == 0 ||
    (decide (1 ≤ subMod 16 (nth gotSeq v) (nth ownSeq v)) && decide (subMod 16 (nth gotSeq v) (nth ownSeq v) ≤ 7)))
  ((List.range 16).map (fun v => if new v then nth got v else nth own v),
   (List.range 16).map (fun v => if new v then nth gotSeq v else nth ownSeq v))

/-- The fields of `w` bits in a number. -/
def unpackBits (w n x : Nat) : List Nat := (List.range n).map (fun i => bits x (w * i) w)

/-- A ring's view with what is newer in a CHART record (R380). -/
def chartMerge (r : Ring) (b : List Byte) : Ring :=
  let u := chartTake r.unit r.unitSeq (unpackBits 2 16 (fld b 4 4)) (unpackBits 4 16 (fld b 16 8))
  let e := chartTake r.expr r.exprSeq (unpackBits 2 16 (fld b 8 4)) (unpackBits 4 16 (fld b 24 8))
  ⟨u.1, e.1, u.2, e.2⟩

/-- CHART (R380): the view takes what is newer and passes it on; a leg in CHARTING enters service. -/
def chartDev (o : Otp) (d : Dev) : Dev :=
  onPacket d 0x63 (fun d p q =>
    let st := (portGet d p).state
    if st ≠ 5 ∧ st ≠ 6 then d
    else
      let k := p / 4
      let r := d.fab.rings.getD k ring0
      let r' := chartMerge r q.payload
      let changed := fld q.payload 0 1 = k ∧ r' ≠ r
      let d := if changed then { d with fab := { d.fab with rings := setAt d.fab.rings k r' } } else d
      let d := if st = 5 then
          settleReady o (pump (legReport (portMod d p (fun v => { v with state := 6 })) p true) p) else d
      if changed then chartAll d k p else d)

/-- CHART. -/
def execChart (s : State) : Host.Outcome State Fault Refusal := runDev chartDev s

/-! ### Messages (Table 13-12) -/

/-- DZ_RH_STATUS. -/
def hRhStatus (_ch : Nat) (_p : List Byte) (_o : Otp) (d : Dev) : DzRes :=
  dzOk d (natLe 5 d.pow.siteCode.toNat ++ natLe 1 (ofBits [d.fab.ready, d.pow.siteInvalid]) ++ zeros 2 ++
    (List.range 20).flatMap (fun p => natLe 1 (portGet d p).state) ++ pcBytes d kBadKind ++ pcBytes d kUndeliv ++
    natLe 1 (pcOvf d kBadKind 2) ++ zeros 7)

/-- DZ_RH_PORT. -/
def hRhPort (_ch : Nat) (p : List Byte) (o : Otp) (d : Dev) : DzRes :=
  let n := fld p 0 1
  dzNeed d (zeroAt p 1 7) stMbxParam <| dzNeed d (portPresent o n) stRhPort <|
  let v := portGet d n
  dzOk d ([v.state, v.reason, v.lanes, v.retiredLanes].flatMap (natLe 1) ++ natLe 2 v.lenCm ++ natLe 1 v.media ++
    natLe 1 (min 255 v.retrains) ++ padTo 60 v.partner ++ (List.range 6).flatMap (fun i => pcBytes d (kPort n + i)) ++
    natLe 1 (pcOvf d (kPort n) 6) ++ zeros 7)

/-- DZ_RH_RING. -/
def hRhRing (_ch : Nat) (p : List Byte) (_o : Otp) (d : Dev) : DzRes :=
  dzNeed d (zeroAt p 1 7 && decide (fld p 0 1 < 5)) stMbxParam <| dzOk d (chartBytes d (fld p 0 1))

/-- DZ_RH_PORT_CTL: action 1 applies to a port in service, action 2 to a port that is EXCLUDED or SILENT. -/
def hRhPortCtl (ch : Nat) (p : List Byte) (o : Otp) (d : Dev) : DzRes :=
  dzPf ch d stRhDenied <|
  let n := fld p 0 1
  let a := fld p 1 1
  dzNeed d (zeroAt p 2 6 && decide (a = 1 ∨ a = 2)) stMbxParam <| dzNeed d (portPresent o n) stRhPort <|
  let st := (portGet d n).state
  dzNeed d (if a = 1 then st == 6 else st == 8 || st == 7) stRhState <|
  dzOk (if a = 1 then portLeave o d n 8 0 else startSighting o d n) []

end Sys2Proof.Machine
end

