-- ==== Sys2Proof/Machine/Operands.lean ====
section
/-!
DEFINITION. Tensor operands (chapter 3): descriptors and their checks (R73 to R81, Table 3-9), views, padding and logical
coordinates (R78 to R87), block-coordinate lists (R88 to R92), access patterns (R106), and reads and writes of elements,
inside the module or over Rhumb.
-/

namespace Sys2Proof.Machine

/-! ### Descriptors (Tables 3-1, 3-2) -/

/-- A tensor descriptor as read. -/
structure Td where
  base : Nat
  ctl : Nat
  etype : Nat
  ndim : Nat
  blk : Bool
  esc : Bool
  padStore : Bool
  shardDim : Nat
  ident : Nat
  ext : List Nat
  stride : List Int
  padLo : List Nat
  padHi : List Nat
  padVal : Nat
  shardOff : Nat
  shardLext : Nat
  bld : Nat
  /-- Every reserved byte and bit outside TD_CTL is zero. -/
  rsvd : Bool
  deriving DecidableEq, Repr

/-- Parse 128 bytes. -/
def tdParse (b : List Byte) : Td :=
  let ctl := fld b 8 4
  { base := fld b 0 8, ctl := ctl, etype := bits ctl 0 4, ndim := bits ctl 7 3, blk := ctl.testBit 12, esc := ctl.testBit 11,
    padStore := ctl.testBit 10, shardDim := bits ctl 13 3, ident := fld b 12 4 % 2 ^ 31,
    ext := (List.range 6).map (fun k => fld b (16 + 4 * k) 4),
    stride := (List.range 6).map (fun k => toSigned 40 (fld b (40 + 5 * k) 5)),
    padLo := (List.range 6).map (fun k => fld b (70 + 2 * k) 2), padHi := (List.range 6).map (fun k => fld b (82 + 2 * k) 2),
    padVal := fld b 96 8, shardOff := fld b 104 4, shardLext := fld b 108 4, bld := fld b 112 8,
    rsvd := decide (fld b 12 4 < 2 ^ 31) && zeroAt b 94 2 && zeroAt b 120 4 }

/-- Stride of dimension `k`. -/
def tdStride (t : Td) (k : Nat) : Int := t.stride.getD k 0
/-- Data extent of dimension `k`. -/
def tdData (t : Td) (k : Nat) : Nat := nth t.ext k - nth t.padLo k - nth t.padHi k
/-- The dimensions of the tensor. -/
def tdDims (t : Td) : List Nat := List.range t.ndim

/-- R73, R76: the address of the descriptor and TD_BASE are aligned. -/
def tdAlign (addr : Nat) (t : Td) : Bool :=
  isMul addr 128 && (t.etype == 6 || decide (8 ≤ t.etype) || isMul t.base (etBits t.etype / 8))

/-- Row 5 of Table 3-9. -/
def tdRsvd (t : Td) : Bool :=
  t.rsvd && decide (t.ctl < 2 ^ 16) && bits t.ctl 4 3 == 0 && decide (t.etype < 8) && decide (1 ≤ t.ndim ∧ t.ndim ≤ 6) &&
    t.shardDim != 6 && (!t.esc || t.etype == 5 || t.etype == 6) && decide (t.padVal < 2 ^ etBits t.etype) &&
    (t.blk || t.bld == 0)

/-- R68 and row 6 of Table 3-9. -/
def tdPack (t : Td) : Bool :=
  t.etype != 6 ||
    (tdStride t 0 == 1 && isMul (nth t.ext 0) 2 && isMul (nth t.padLo 0) 2 && isMul (nth t.padHi 0) 2 &&
      (tdDims t).all (fun k => k == 0 || tdStride t k % 2 == 0))

/-- R76 and the shard fields of R87. -/
def tdShape (t : Td) : Bool :=
  (List.range 6).all (fun k =>
    if k < t.ndim then decide (1 ≤ nth t.ext k) && decide (nth t.padLo k + nth t.padHi k ≤ nth t.ext k)
    else nth t.ext k == 0 && tdStride t k == 0 && nth t.padLo k == 0 && nth t.padHi k == 0) &&
  (t.shardDim == 7 || (decide (t.shardDim < t.ndim) && decide (t.shardOff + tdData t t.shardDim ≤ t.shardLext)))

/-- R80. -/
def tdAlias (t : Td) : Bool := (tdDims t).all (fun k => tdStride t k != 0 || decide (nth t.ext k ≤ 1))

/-! ### Views (R78 to R84) -/

/-- The bit address of a position: `i` is its view index (R78). -/
def tdBit (t : Td) (i : List Int) : Int :=
  (t.base : Int) * 8 + (etBits t.etype : Int) *
    ((tdDims t).map (fun k => (i.getD k 0 - (nth t.padLo k : Int)) * tdStride t k)).foldl (· + ·) 0

/-- The position is out of view (R91, R106). -/
def tdOut (t : Td) (i : List Int) : Bool :=
  (tdDims t).any (fun k => decide (i.getD k 0 < 0) || decide ((nth t.ext k : Int) ≤ i.getD k 0))

/-- The position is a pad position (R78). -/
def tdPad (t : Td) (i : List Int) : Bool :=
  (tdDims t).any (fun k => decide (i.getD k 0 < (nth t.padLo k : Int)) ||
    decide ((nth t.ext k : Int) - (nth t.padHi k : Int) ≤ i.getD k 0))

/-- The multi-index of number `n` in a box, dimension 0 fastest. -/
def boxIdx : List Nat → Nat → List Int
  | [], _ => []
  | e :: es, n => ((n % max e 1 : Nat) : Int) :: boxIdx es (n / max e 1)

/-- The product of a list. -/
def product (l : List Nat) : Nat := l.foldl (· * ·) 1

/-- Every multi-index of a box, dimension 0 fastest. -/
def boxAll (es : List Nat) : List (List Int) := (List.range (product es)).map (boxIdx es)

/-- Every view position. -/
def tdAll (t : Td) : List (List Int) := boxAll (t.ext.take t.ndim)

/-- The byte range that accesses can touch (R81): none when they touch no byte. -/
def tdFoot (t : Td) (write : Bool) : Option (Int × Nat) :=
  let full := write && t.padStore
  let rng := fun k => if full then (-(nth t.padLo k : Int), (nth t.ext k : Int) - (nth t.padLo k : Int) - 1)
    else (0, (tdData t k : Int) - 1)
  if (tdDims t).any (fun k => decide ((rng k).2 < (rng k).1)) then none
  else
    let lo := ((tdDims t).map (fun k => min ((rng k).1 * tdStride t k) ((rng k).2 * tdStride t k))).foldl (· + ·) 0
    let hi := ((tdDims t).map (fun k => max ((rng k).1 * tdStride t k) ((rng k).2 * tdStride t k))).foldl (· + ·) 0
    let n := (etBits t.etype : Int)
    let first := ((t.base : Int) * 8 + n * lo) / 8
    let last := ((t.base : Int) * 8 + n * hi + n - 1) / 8
    some (first, (last - first + 1).toNat)

/-- A byte range at a global address lies wholly in one range of the address map, on the own module in its populated
part; what another module has populated only that module can tell (R31, R369, R367). -/
def gaMapped (d : Dev) (first : Int) (n : Nat) : Bool :=
  if first < 0 then false
  else
    let a := first.toNat
    if 2 ^ 64 < a + n ∨ coordOf (a + n - 1) ≠ coordOf a then false
    else if isOwn d a then mapped d (localOf a) n
    else namesModule d (coordOf a) && memOf (localOf a) != 5 && memOf (localOf (a + n - 1)) == memOf (localOf a)

/-- The window check of R311 on a footprint. -/
def tdWindow (d : Dev) (fn : Nat) (t : Td) (write : Bool) : Bool :=
  match tdFoot t write with
  | none => true
  | some (a, n) => fn == 0 || (decide (0 ≤ a) && windowOk d fn a.toNat n write)

/-- The footprint check of R81. -/
def tdMapped (d : Dev) (t : Td) (write : Bool) : Bool :=
  match tdFoot t write with
  | none => true
  | some (a, n) => gaMapped d a n

/-! ### Logical coordinates (R87) -/

/-- Logical index and extent of dimension `k` at a view index. -/
def tdLog (t : Td) (i : List Int) (k : Nat) : Nat × Nat :=
  let x := (i.getD k 0 - (nth t.padLo k : Int)).toNat
  if k = t.shardDim then (x + t.shardOff, t.shardLext) else (x, tdData t k)

/-- Row and column of a position (R87). -/
def tdRowCol (t : Td) (i : List Int) : Nat × Nat :=
  let l0 := (tdLog t i 0).1
  if t.ndim ≤ 1 then (l0 / 2 ^ 24, l0 % 2 ^ 24)
  else
    ((((List.range (t.ndim - 1)).foldl (fun acc k =>
      let x := tdLog t i (k + 1)
      (acc.1 + x.1 * acc.2, acc.2 * x.2)) ((0, 1) : Nat × Nat))).1, l0)

/-- The hash of a dense element (R53, R54). -/
def tdHash (seed step : Nat) (t : Td) (i : List Int) : Nat :=
  let rc := tdRowCol t i
  srHash seed (2 ^ 31 + t.ident) rc.1 rc.2 step

/-- Every data position lies within the ranges that stochastic rounding needs (R87). -/
def tdStochOk (t : Td) : Bool :=
  if (tdDims t).any (fun k => tdData t k == 0) then true
  else
    let last := (tdDims t).map (fun k => (nth t.padLo k : Int) + (tdData t k : Int) - 1)
    let rc := tdRowCol t last
    decide (rc.2 < 2 ^ 24) && decide (rc.1 < 2 ^ 40)

/-! ### Bytes, here or remote -/

/-- Bytes held: those that have come back from other modules, and records read once; the value plus one, by global
address. -/
abbrev RBuf := SMap Nat

/-- A byte at a global address: the copy that the command or slot holds of it, or the module's memory. -/
def gaByte (d : Dev) (rb : RBuf) (a : Nat) : Byte :=
  match smGet 0 rb a with
  | 0 => if isOwn d a then byteAt d (localOf a) else 0
  | v + 1 => BitVec.ofNat 8 v

/-- Bytes at a global address. -/
def gaRead (d : Dev) (rb : RBuf) (a n : Nat) : List Byte := (List.range n).map (fun i => gaByte d rb (a + i))

/-- Keep a copy of byte ranges, as a command does of what it reads once (R77, R90). -/
def gaHold (d : Dev) (rb : RBuf) (rs : List (Nat × Nat)) : RBuf :=
  rs.foldl (fun m r => smSetList 0 m r.1 ((gaRead d rb r.1 r.2).map (fun b => b.toNat + 1))) rb

/-- The ranges, of those given, whose bytes are on another module and have not come back. -/
def gaMissing (d : Dev) (rb : RBuf) (rs : List (Nat × Nat)) : List (Nat × Nat) :=
  rs.filter (fun r => r.2 != 0 && !isOwn d r.1 && (List.range r.2).any (fun i => smGet 0 rb (r.1 + i) == 0))

/-- Join ranges that follow one another. -/
def joinRanges : List (Nat × Nat) → List (Nat × Nat)
  | [] => []
  | (a, n) :: t => match joinRanges t with
    | [] => [(a, n)]
    | (b, m) :: t' => if a + n = b then (a, n + m) :: t' else (a, n) :: (b, m) :: t'

/-- Issue the reads that ranges still need; none when the fabric bars them. -/
def gaFetch (d : Dev) (rs : List (Nat × Nat)) (who : Issuer) : Dev × List Remote :=
  rs.foldl (fun acc r =>
    let x := sendReads acc.1 r.1 r.2 who r.1
    (x.1, acc.2 ++ x.2)) (d, [])

/-- What bars the reads or writes of remote ranges (R369, R374). -/
def gaBar (d : Dev) (rs : List (Nat × Nat)) : Option Nat :=
  rs.findSome? (fun r => if isOwn d r.1 then none else remoteBar d (coordOf r.1))

/-- Join runs of bytes that follow one another. -/
def joinRuns : List (Nat × List Byte) → List (Nat × List Byte)
  | [] => []
  | (a, bs) :: t => match joinRuns t with
    | [] => [(a, bs)]
    | (b, cs) :: t' => if a + bs.length = b then (a, bs ++ cs) :: t' else (a, bs) :: (b, cs) :: t'

/-- Write runs of bytes: into the module's memory, or as WRITE requests, whose tags are returned. -/
def gaWrite (d : Dev) (runs : List (Nat × List Byte)) (who : Issuer) : Dev × List Remote :=
  (joinRuns runs).foldl (fun acc r =>
    if isOwn acc.1 r.1 then (memWrite acc.1 (localOf r.1) r.2, acc.2)
    else
      let x := sendWrites acc.1 r.1 r.2 who
      (x.1, acc.2 ++ x.2)) (d, [])

/-! ### Elements -/

/-- The raw value of `n` bits at a bit address. -/
def gaBits (d : Dev) (rb : RBuf) (bitAddr : Int) (n : Nat) : Nat :=
  let a := bitAddr.toNat
  if n = 4 then bits (gaByte d rb (a / 8)).toNat (a % 8) 4 else leNat (gaRead d rb (a / 8) (n / 8))

/-- The element at a view position: TD_PADVAL at pad and out-of-view positions (R82, R91). -/
def tdRead (d : Dev) (rb : RBuf) (t : Td) (i : List Int) : Nat :=
  if tdOut t i || tdPad t i then t.padVal else gaBits d rb (tdBit t i) (etBits t.etype)

/-- The byte ranges that reading positions touches. -/
def tdRanges (t : Td) (is : List (List Int)) : List (Nat × Nat) :=
  joinRanges ((is.filter (fun i => !(tdOut t i || tdPad t i))).map (fun i =>
    ((tdBit t i).toNat / 8, max 1 (etBits t.etype / 8))))

/-- Two data positions of a write share a byte (R80). -/
def hasRepeat : List Nat → Bool
  | [] => false
  | [_] => false
  | a :: b :: t => a == b || hasRepeat (b :: t)

/-- Elements of `n` bits by bit address; where several have one address, each byte of the value is a byte of one of theirs
(R18, R80). -/
def mixRepeats (seed n : Nat) (l : List (Nat × Nat)) : List (Nat × Nat) :=
  if !hasRepeat ((l.map (·.1)).mergeSort (· ≤ ·)) then l
  else ((l.map (·.1)).eraseDups.zipIdx).map (fun k =>
    let vs := (l.filter (fun y => y.1 == k.1)).map (·.2)
    (k.1, if n = 4 then nth vs (freePick seed (8 * k.2) vs.length) else mixNat seed (8 * k.2) (n / 8) vs))

/-- Of the elements with one address, the last. -/
def lastWins : List (Nat × Nat) → List (Nat × Nat)
  | [] => []
  | x :: t => if t.any (fun y => y.1 == x.1) then lastWins t else x :: lastWins t

/-- The bytes that elements at bit addresses make: packed nibbles keep the other half of their byte (R67). -/
def elemRuns (d : Dev) (rb : RBuf) (n : Nat) : List (Nat × Nat) → List (Nat × List Byte)
  | [] => []
  | [(a, v)] =>
    if n = 4 then [(a / 8, [BitVec.ofNat 8 (setBits (gaByte d rb (a / 8)).toNat (a % 8) 4 v)])]
    else [(a / 8, natLe (n / 8) v)]
  | (a, v) :: (b, w) :: t =>
    if n = 4 then
      if a % 8 = 0 ∧ b = a + 4 then (a / 8, [BitVec.ofNat 8 (v % 16 + 16 * (w % 16))]) :: elemRuns d rb n t
      else (a / 8, [BitVec.ofNat 8 (setBits (gaByte d rb (a / 8)).toNat (a % 8) 4 v)]) :: elemRuns d rb n ((b, w) :: t)
    else (a / 8, natLe (n / 8) v) :: elemRuns d rb n ((b, w) :: t)

/-- The data positions in view of a write, by bit address. -/
def tdItems (t : Td) (items : List (List Int × Nat)) : List (Nat × Nat) :=
  (items.filter (fun x => !tdOut t x.1 && !tdPad t x.1)).map (fun x => ((tdBit t x.1).toNat, x.2))

/-- The pad positions in view that a write stores, with TD_PADVAL (R83, R91). -/
def tdPads (t : Td) (is : List (List Int)) : List (Nat × Nat) :=
  if t.padStore then (is.filter (fun i => !tdOut t i && tdPad t i)).map (fun i => ((tdBit t i).toNat, t.padVal)) else []

/-- The command that an issuer works for, by queue and sequence number. -/
def whoCmd (d : Dev) (who : Issuer) : Option (Nat × Nat) :=
  match who with
  | .stream e => (smGet none d.streams e).map (fun v => (v.queue, v.seq))
  | .cmd q sq => some (q, sq)
  | .chan n => (smGet none d.chans n).map (fun c => (c.queue, c.seq))
  | _ => none

/-- A command of another queue wrote these bytes while it ran beside the command `c`, and one of the two writes stores pads
(R86). -/
def wroteBeside (c : Nat × Nat) (pad : Bool) (w : Wrote) : Bool :=
  w.queue != c.1 && (!w.ended || w.others.contains c) && (pad || w.pad)

/-- The local bytes of `n` from `a` on that such a command wrote. -/
def clashes (d : Dev) (c : Nat × Nat) (pad : Bool) (a n : Nat) : List (Nat × Nat) :=
  (d.wrote.filter (fun w => wroteBeside c pad w && decide (w.addr < a + n) && decide (a < w.addr + w.len))).map (fun w =>
    (max a w.addr, min (a + n) (w.addr + w.len) - max a w.addr))

/-- The own module's part of a command's write, `before` being the module before it: bytes that it shares with the padded
write of a command of another queue are undefined (R18, R86), and the write is kept while others can overlap it. -/
def wroteRun (before : Dev) (c : Nat × Nat) (pad : Bool) (d : Dev) (r : Nat × List Byte) : Dev :=
  if isOwn d r.1 then
    let a := localOf r.1
    let d := (clashes before c pad a r.2.length).foldl (fun d x => memMix d x.1 x.2 [memRead before x.1 x.2]) d
    { d with wrote := d.wrote ++ [⟨c.1, c.2, pad, a, r.2.length, false, []⟩] }
  else d

/-- Those bytes for every run that a command has written. -/
def wroteRuns (before d : Dev) (pad : Bool) (runs : List (Nat × List Byte)) (who : Issuer) : Dev :=
  match whoCmd before who with
  | none => d
  | some c => (joinRuns runs).foldl (wroteRun before c pad) d

/-- Store pads and data of one write, in this order, so that a data element prevails over a pad (R84). -/
def tdStore (d : Dev) (rb : RBuf) (t : Td) (pads data : List (Nat × Nat)) (who : Issuer) : Dev × List Remote :=
  let n := etBits t.etype
  let ps := elemRuns d rb n pads
  let r := gaWrite d ps who
  let ds := elemRuns r.1 rb n data
  let r2 := gaWrite r.1 ds who
  (wroteRuns d r2.1 t.padStore (ps ++ ds) who, r.2 ++ r2.2)

/-- Write values at view positions (R83, R84, R91): nothing out of view, at pad positions TD_PADVAL when TD_PAD_STORE = 1.
`rb` holds the bytes of other modules of which a half stays (R67). -/
def tdWriteOn (d : Dev) (rb : RBuf) (t : Td) (items : List (List Int × Nat)) (who : Issuer) : Dev × List Remote :=
  let data := tdItems t items
  let d' := if hasRepeat ((data.map (·.1)).mergeSort (· ≤ ·)) then bump d else d
  tdStore d' rb t (tdPads t (items.map (·.1))) (mixRepeats d.freeIdx (etBits t.etype) data) who

/-- Such a write of whole bytes. -/
def tdWrite (d : Dev) (t : Td) (items : List (List Int × Nat)) (who : Issuer) : Dev × List Remote := tdWriteOn d [] t items who

/-- The byte ranges that a write at some positions stores to. -/
def tdSpan (t : Td) (is : List (List Int)) : List (Nat × Nat) :=
  joinRanges ((is.filter (fun i => !tdOut t i && (t.padStore || !tdPad t i))).map (fun i =>
    ((tdBit t i).toNat / 8, max 1 (etBits t.etype / 8))))

/-- The bytes on other modules of which a write of packed nibbles at some positions stores only a half (R67): the other half
must be read first. -/
def tdHalves (d : Dev) (t : Td) (is : List (List Int)) : List (Nat × Nat) :=
  if t.etype ≠ 6 then []
  else
    let as := (is.filter (fun i => !tdOut t i && (t.padStore || !tdPad t i))).map (fun i => (tdBit t i).toNat)
    ((as.map (· / 8)).eraseDups.filter (fun b => !isOwn d b && !(as.contains (8 * b) && as.contains (8 * b + 4)))).map (·, 1)

/-! ### Block lists (R88 to R92) -/

/-- A block-list descriptor. -/
structure Bld where
  list : Nat
  countAddr : Nat
  countMax : Nat
  ind : Bool
  block : List Nat
  rsvd : Bool
  deriving DecidableEq, Repr

/-- Parse 64 bytes. -/
def bldParse (b : List Byte) : Bld :=
  { list := fld b 0 8, countAddr := fld b 8 8, countMax := fld b 16 4, ind := (fld b 20 4).testBit 0,
    block := (List.range 6).map (fun k => fld b (24 + 2 * k) 2), rsvd := decide (fld b 20 4 < 2) && zeroAt b 36 24 }

/-- The list and the count record are aligned (R88). -/
def bldAlign (addr : Nat) (b : Bld) : Bool := isMul addr 64 && isMul b.list 16 && (!b.ind || isMul b.countAddr 8)

/-- R88 for a tensor of `n` dimensions. A nonzero reserved field of the block-list descriptor breaks R88 and so belongs to
row 9 of Table 3-9, not to row 5 (DEDUCED, log 146). -/
def bldOk (b : Bld) (n : Nat) : Bool :=
  b.rsvd && decide (b.countMax ≤ 2 ^ 24) &&
    (List.range 6).all (fun k => if k < n then nth b.block k != 0 else nth b.block k == 0)

/-- N of R90. -/
def bldCount (d : Dev) (rb : RBuf) (b : Bld) : Nat :=
  if b.ind then min (leNat (gaRead d rb b.countAddr 4)) b.countMax else b.countMax

/-- The view positions of an entry, in order, and whether the entry skips its block (R89, R91). -/
def bldEntry (d : Dev) (rb : RBuf) (b : Bld) (n m : Nat) : Bool × List (List Int) :=
  let e := leNat (gaRead d rb (b.list + 16 * m) 16)
  (e.testBit 127, (boxAll (b.block.take n)).map (fun j => (List.range n).map (fun k =>
    ((bits e (20 * k) 20 * nth b.block k : Nat) : Int) + j.getD k 0)))

/-! ### Access patterns (R106) -/

/-- The view positions of a tile: origin from the loop counters, extents from the pattern, dimension 0 fastest. -/
def apTile (ap : List Byte) (lc : List Nat) (n : Nat) : List (List Int) :=
  let o := (List.range n).map (fun k =>
    ((List.range 4).map (fun l => (nth lc l : Int) * toSigned 16 (fld ap (12 + 8 * k + 2 * l) 2))).foldl (· + ·) 0)
  (boxAll ((List.range n).map (fun k => fld ap (2 * k) 2))).map (fun j =>
    (List.range n).map (fun k => o.getD k 0 + j.getD k 0))

/-- Tile extent of dimension `k`. -/
def apExt (ap : List Byte) (k : Nat) : Nat := fld ap (2 * k) 2

end Sys2Proof.Machine
end

