-- ==== Sys2Proof/Machine/Layout.lean ====
section
/-!
DEFINITION. The layout engine's commands (R93 to R97, R99) and DC_COPY (R139). Bytes of another module are fetched first;
the command then makes every check of Table 3-9 and acts, and is done when its writes are acknowledged.
-/

namespace Sys2Proof.Machine

/-- Flags raised by a command of an engine (R48, R49). -/
def cmdFlags (d : Dev) (q : Nat) (r : Running) (fl : Nat) : Dev :=
  raiseFlags (runMod d q r.cmd.cseq.toNat (fun x => { x with numFlags := x.numFlags ||| fl })) r.engine fl

/-- Go on when every byte range is at hand; otherwise fetch the remote ones, or fail when the fabric bars them. -/
def cmdNeed (d : Dev) (q : Nat) (r : Running) (rs : List (Nat × Nat)) (k : Dev) : Dev :=
  let miss := gaMissing d r.rbuf rs
  if miss = [] then k
  else match gaBar d miss with
    | some st => cmdFinal d q r.cmd.cseq.toNat st 0
    | none =>
      let x := gaFetch d miss (.cmd q r.cmd.cseq.toNat)
      runMod x.1 q r.cmd.cseq.toNat (fun r => { r with started := true, remote := r.remote ++ x.2 })

/-- A command with its copy of the own module's part of records that it reads once (R77, R90). -/
def cmdOwn (d : Dev) (r : Running) (rs : List (Nat × Nat)) : Running :=
  { r with rbuf := gaHold d r.rbuf (rs.filter (fun x => isOwn d x.1)) }

/-- The command keeps that copy. -/
def cmdHold (d : Dev) (q : Nat) (r : Running) (rs : List (Nat × Nat)) : Dev :=
  runMod d q r.cmd.cseq.toNat (fun x => { x with rbuf := (cmdOwn d r rs).rbuf })

/-- Read records once: what the own module holds of them is kept at once, what another module holds is fetched, and the
command goes on with its copies. -/
def cmdOnce (d : Dev) (q : Nat) (r : Running) (rs : List (Nat × Nat)) (k : Dev → Running → Dev) : Dev :=
  cmdNeed (cmdHold d q r rs) q (cmdOwn d r rs) rs (k (cmdHold d q r rs) (cmdOwn d r rs))

/-- The status of a command is final and its writes await their acknowledgements. -/
def cmdWritten (x : Dev × List Remote) (q : Nat) (r : Running) (fl : Nat) : Dev :=
  let d := cmdFlags x.1 q r fl
  cmdFinal (runMod d q r.cmd.cseq.toNat (fun r => { r with remote := r.remote ++ x.2 })) q r.cmd.cseq.toNat stOk 0

/-- The first command of queue `q` that satisfies `p`, is not done with its work and waits for no remote byte. -/
def onActive (d : Dev) (q : Nat) (p : Running → Bool) (f : Dev → Queue → Running → Dev) : Dev :=
  match qGet d q with
  | none => d
  | some v => match v.running.find? (fun r => p r && r.final.isNone && r.remote == []) with
    | none => d
    | some r => f d v r

/-- What bars a command from reading records: the window check of R311, and just behind it row 1 of Table 3-9. -/
def recStatus (d : Dev) (fn : Nat) (rs : List (Nat × Nat)) : Nat :=
  firstBad [(rs.all (fun x => windowOk d fn x.1 x.2 false), stRrWindow), (rs.all (fun x => gaMapped d x.1 x.2), stAddrUnmapped)]

/-- The record at a global address. -/
def recAt (d : Dev) (r : Running) (a n : Nat) : List Byte := gaRead d r.rbuf a n

/-- A record with its CRC, after `rr` failed reads (R77, R412); the page of another module is not this module's to count. -/
def recRead (o : Otp) (d : Dev) (a : Nat) (bs : List Byte) (rr : Nat) : Dev × Bool :=
  if isOwn d a then readRecord o d (localOf a) (sealOk bs.length bs) rr
  else if sealOk bs.length bs && decide (rr < 4) then (if rr = 0 then d else pcAdd d kReread 1, true)
  else (d, false)

/-- Records of a command with their CRCs, the first being its `k`-th; every one is read, and the command knows then that
they passed. -/
def recsRead (o : Otp) (d : Dev) (r : Running) (rs : List (Nat × Nat)) (k rr : Nat) : Dev × Bool :=
  rs.zipIdx.foldl (fun acc x =>
    let y := recRead o acc.1 x.1.1 (recAt d r x.1.1 x.1.2) (rrOf rr (k + x.2))
    (y.1, acc.2 && y.2)) (d, true)

/-- The command's descriptors have passed their CRCs. -/
def cmdJudged (d : Dev) (q : Nat) (r : Running) : Dev := runMod d q r.cmd.cseq.toNat (fun x => { x with work := [1] })

/-- LY_OP of a command. -/
def lyOp (r : Running) : Nat := if 0x10 ≤ r.cmd.op ∧ r.cmd.op ≤ 0x17 then fld r.cmd.body 0 1 else 0

/-- The body of Table 3-6 is well formed (ST_LY_OP). -/
def lyForm (b : List Byte) : Bool :=
  let op := fld b 0 1
  decide (1 ≤ op ∧ op ≤ 5) && modeOk (fld b 1 1) && decide (fld b 2 2 < 2) && decide (fld b 4 4 < 2 ^ 18) && zeroAt b 32 8 &&
    (op != 5 || fld b 8 8 == 0) && (op == 4 || fld b 24 8 == 0)

/-- The permutation of LY_PERM on `n` dimensions; 0 means the identity. -/
def lyPerm (p n : Nat) : List Nat := if p = 0 then List.range n else (List.range n).map (fun k => bits p (3 * k) 3)

/-- A nonzero LY_PERM is a permutation of 0 to n - 1 with zero fields above. -/
def lyPermOk (p n : Nat) : Bool :=
  p == 0 || (decide (p < 2 ^ (3 * n)) && (List.range n).all (fun k => (lyPerm p n).contains k))

/-- The source view index of a destination view index (R94). -/
def lySource (perm : List Nat) (i : List Int) : List Int :=
  (List.range i.length).map (fun j => i.getD (perm.findIdx (· == j)) 0)

/-- What a layout command works on, once its descriptors are at hand. -/
structure LyArgs where
  src : Td
  dst : Td
  bld : Bld
  mode : Nat
  step : Nat
  perm : Nat
  deriving DecidableEq, Repr

/-- A conversion that can round: to a narrower floating-point type, to an integer, or from INT32 to one that does not hold
every value. -/
def cvtRounds (src dst : Nat) : Bool :=
  if etFloat src then !etFloat dst || decide (etBits dst < etBits src) || (etBits dst == etBits src && src != dst)
  else etFloat dst && src == 4 && dst != 3

/-- The logical ranges that a write which rounds stochastically needs (R87): judged where the conversion can round
(DEDUCED, log 147). -/
def lyStochOk (a : LyArgs) : Bool := !cvtRounds a.src.etype a.dst.etype || !modeStoch a.mode || tdStochOk a.dst

/-- Shape conditions of LY_COPY. -/
def lyCopyShape (a : LyArgs) : Bool :=
  let n := a.dst.ndim
  !a.src.blk && !a.dst.blk && a.src.ndim == n && lyPermOk a.perm n &&
    (List.range n).all (fun k => nth a.dst.ext k == nth a.src.ext (nth (lyPerm a.perm n) k)) &&
    cvtAllowed a.src.etype a.dst.etype && lyStochOk a

/-- Shape conditions of LY_GATHER and LY_SCATTER on the listed and the dense tensor (R95). -/
def lyBlockShape (a : LyArgs) (listed dense : Td) : Bool :=
  let n := listed.ndim
  listed.blk && !dense.blk && dense.ndim == n + 1 && a.perm == 0 &&
    (tdDims dense).all (fun k => nth dense.padLo k == 0 && nth dense.padHi k == 0 &&
      nth dense.ext k == (if k = n then a.bld.countMax else nth a.bld.block k)) &&
    cvtAllowed a.src.etype a.dst.etype && lyStochOk a

/-- Shape conditions of LY_LIST (R96). -/
def lyListShape (a : LyArgs) : Bool :=
  !a.src.blk && [4, 5, 7].contains a.src.etype && (tdDims a.src).all (fun k => decide (tdData a.src k < 2 ^ 20))

/-- Convert one element for a destination position; the flags come with it. -/
def lyElem (d : Dev) (a : LyArgs) (i : List Int) (raw : Nat) : Flagged :=
  cvtElem a.src.etype a.dst.etype a.mode (tdHash d.seed.toNat a.step a.dst i) raw

/-- The flags of the items written to data positions. -/
def itemFlags (t : Td) (items : List (List Int × Flagged)) : Nat :=
  items.foldl (fun f x => if tdPad t x.1 || tdOut t x.1 then f else f ||| x.2.2) 0

/-- The bytes that the items written to data positions take. -/
def itemBytes (t : Td) (items : List (List Int × Nat)) : Nat :=
  (items.filter (fun x => !(tdOut t x.1) && (t.padStore || !(tdPad t x.1)))).length * etBits t.etype / 8

/-- The items of block `m`: destination position, source position, and whether the entry is skipped (R95). -/
def lyBlock (d : Dev) (rb : RBuf) (a : LyArgs) (n m : Nat) (gather : Bool) : List (List Int × List Int × Bool) :=
  let e := bldEntry d rb a.bld n m
  let dense := (boxAll (a.bld.block.take n)).map (fun j => j ++ [(m : Int)])
  (e.2.zip dense).map (fun x => if gather then (x.2, x.1, e.1) else (x.1, x.2, e.1))

/-- The items of the first `count` blocks, in list order. -/
def lyBlocks (d : Dev) (rb : RBuf) (a : LyArgs) (n count : Nat) (gather : Bool) : List (List Int × List Int × Bool) :=
  (List.range count).flatMap (fun m => lyBlock d rb a n m gather)

/-- The checks of Table 3-9 of a layout command from row 3 on; `blk` when it has a block list. For LY_LIST, BLD_BLOCK is judged
against the dimensions of the key tensor (DEDUCED, log 148); R92's bound on TD_NDIM is for a descriptor with TD_BLK = 1. The
entries of the list are judged by `lyListChecks`, once N is known. -/
def lyChecks (d : Dev) (fn : Nat) (r : Running) (a : LyArgs) (blk : Bool) : Nat :=
  let b := r.cmd.body
  let op := fld b 0 1
  let srcA := fld b 8 8
  let dstA := fld b 16 8
  let useSrc := op != 5
  let useDst := op != 4
  let bldA := if op = 4 then dstA else if op = 2 then a.src.bld else a.dst.bld
  let n := if op = 3 ∨ op = 5 then a.dst.ndim else a.src.ndim
  let s := fun ok => !useSrc || ok
  let t := fun ok => !useDst || ok
  firstBad [
    (s (tdAlign srcA a.src) && t (tdAlign dstA a.dst) && (!blk || bldAlign bldA a.bld), stTdAlign),
    (lyForm b, stLyOp),
    (s (tdRsvd a.src) && t (tdRsvd a.dst), stTdRsvd),
    (s (tdPack a.src) && t (tdPack a.dst), stTdPack),
    (s (tdShape a.src) && t (tdShape a.dst) &&
      (if op = 1 then lyCopyShape a else if op = 2 then lyBlockShape a a.src a.dst
       else if op = 3 then lyBlockShape a a.dst a.src else if op = 4 then lyListShape a else true), stTdShape),
    (t (tdAlias a.dst), stTdAlias),
    (!blk || (bldOk a.bld n && (if op = 4 then a.bld.ind else decide (n ≤ 5))), stTdList),
    (t (!a.dst.padStore || r.cmd.ctl.testBit 5), stTdOrder),
    (s (tdWindow d fn a.src false) && t (tdWindow d fn a.dst true) &&
      (!(blk && a.bld.ind) || windowOk d fn a.bld.countAddr 8 (op == 4)), stRrWindow),
    (s (tdMapped d a.src false) && t (tdMapped d a.dst true) && (!(blk && a.bld.ind) || gaMapped d a.bld.countAddr 8),
      stAddrUnmapped)]

/-- The same checks for the entries of the list that the command reads or may write: N of them, which the command knows once
it has word 0 of the count record, or BLD_COUNT_MAX for LY_LIST (DEDUCED, log 149). -/
def lyListChecks (d : Dev) (fn : Nat) (r : Running) (a : LyArgs) (op : Nat) (blk : Bool) : Nat :=
  let n := if op = 4 then a.bld.countMax else bldCount d r.rbuf a.bld
  if !blk || n == 0 then stOk
  else firstBad [(windowOk d fn a.bld.list (16 * n) (op == 4), stRrWindow), (gaMapped d a.bld.list (16 * n), stAddrUnmapped)]

/-- The positions of LY_FILL: the whole view, or with TD_BLK = 1 those that the list selects (R91, R97; DEDUCED, log 150). -/
def lyFillPos (d : Dev) (r : Running) (a : LyArgs) : List (List Int) :=
  if a.dst.blk then (List.range (bldCount d r.rbuf a.bld)).flatMap (fun m =>
    let e := bldEntry d r.rbuf a.bld a.dst.ndim m
    if e.1 then [] else e.2)
  else tdAll a.dst

/-- The data ranges that a layout command reads, its block list aside; with the halves of bytes that LY_SCATTER keeps. -/
def lyReads (d : Dev) (r : Running) (a : LyArgs) (op : Nat) : List (Nat × Nat) :=
  if op = 1 ∨ op = 4 then tdRanges a.src (tdAll a.src)
  else if op = 2 then
    tdRanges a.src ((lyBlocks d r.rbuf a a.src.ndim (bldCount d r.rbuf a.bld) true).filterMap (fun x =>
      if x.2.2 then none else some x.2.1))
  else if op = 3 then
    let bl := lyBlocks d r.rbuf a a.dst.ndim (bldCount d r.rbuf a.bld) false
    tdRanges a.src (bl.map (·.2.1)) ++ tdHalves d a.dst ((bl.filter (fun x => !x.2.2)).map (·.1))
  else if op = 5 then tdHalves d a.dst (lyFillPos d r a)
  else []

/-- The block list's own reads: the count record, then the entries (R90). -/
def lyListReads (d : Dev) (r : Running) (a : LyArgs) (op : Nat) (blk : Bool) : List (Nat × Nat) :=
  if !blk || op == 4 then []
  else (if a.bld.ind then [(a.bld.countAddr, 8)] else []) ++ [(a.bld.list, 16 * bldCount d r.rbuf a.bld)]

/-- LY_LIST (R96): the entries, and the number found. -/
def lyListOut (d : Dev) (r : Running) (a : LyArgs) : List (Nat × List Byte) :=
  let b := r.cmd.body
  let nz := (fld b 2 2).testBit 0
  let key := toSigned 64 (fld b 24 8)
  let t := a.src
  let exts := (tdDims t).map (tdData t)
  let hits := (boxAll exts).filter (fun dI =>
    let i := (List.range t.ndim).map (fun k => dI.getD k 0 + (nth t.padLo k : Int))
    let v := toSigned (etBits t.etype) (tdRead d r.rbuf t i)
    if nz then v != 0 else v == key)
  let entry := fun dI : List Int => natLe 16 (packBits 20 ((List.range t.ndim).map (fun k => (dI.getD k 0).toNat)))
  let out := hits.take a.bld.countMax
  (List.range out.length).map (fun m => (a.bld.list + 16 * m, entry (out.getD m []))) ++
    [(a.bld.countAddr, natLe 4 out.length ++ natLe 4 (min hits.length (2 ^ 32 - 1)))]

/-- LY_SCATTER's stores (R84, R91, R95): where two entries write a common byte the later prevails, within one entry the byte
is undefined (R80), and a data position prevails over a pad position of the same command. -/
def lyScatter (d : Dev) (rb : RBuf) (t : Td) (entries : List (List (List Int × Nat))) (who : Issuer) : Dev × List Remote :=
  let n := etBits t.etype
  let data := entries.zipIdx.flatMap (fun e => mixRepeats (d.freeIdx + e.2) n (tdItems t e.1))
  tdStore { d with freeIdx := d.freeIdx + entries.length } rb t (tdPads t ((entries.flatMap id).map (·.1))) (lastWins data) who

/-- What a layout command writes, and its flags. -/
def lyRun (d : Dev) (r : Running) (a : LyArgs) (op : Nat) (who : Issuer) : (Dev × List Remote) × Nat :=
  if op = 1 then
    let perm := lyPerm a.perm a.dst.ndim
    let items := (tdAll a.dst).map (fun i => (i, lyElem d a i (tdRead d r.rbuf a.src (lySource perm i))))
    (tdWrite d a.dst (items.map (fun x => (x.1, x.2.1))) who, itemFlags a.dst items)
  else if op = 2 then
    let bl := lyBlocks d r.rbuf a a.src.ndim (bldCount d r.rbuf a.bld) true
    let items := bl.map (fun x => (x.1, lyElem d a x.1 (if x.2.2 then a.src.padVal else tdRead d r.rbuf a.src x.2.1)))
    (tdWrite d a.dst (items.map (fun x => (x.1, x.2.1))) who, itemFlags a.dst items)
  else if op = 3 then
    let entries := (List.range (bldCount d r.rbuf a.bld)).map (fun m =>
      (lyBlock d r.rbuf a a.dst.ndim m false).filterMap (fun x =>
        if x.2.2 then none else some (x.1, lyElem d a x.1 (tdRead d r.rbuf a.src x.2.1))))
    (lyScatter d r.rbuf a.dst (entries.map (fun e => e.map (fun x => (x.1, x.2.1)))) who, itemFlags a.dst (entries.flatMap id))
  else if op = 4 then (gaWrite d (lyListOut d r a) who, 0)
  else
    let is := lyFillPos d r a
    (tdStore d r.rbuf a.dst (tdPads a.dst is) (lastWins (tdItems a.dst (is.map (fun i => (i, a.dst.padVal))))) who, 0)

/-- The command is a layout command that LY_OP = `op` carries out; a reserved LY_OP is carried out, and fails, as LY_COPY. -/
def lyIs (op : Nat) (r : Running) : Bool :=
  decide (0x10 ≤ r.cmd.op ∧ r.cmd.op ≤ 0x17) && (lyOp r == op || (op == 1 && !decide (1 ≤ lyOp r ∧ lyOp r ≤ 5)))

/-- The records that the body names: tensor descriptors, for LY_LIST with the block-list descriptor. -/
def lyRecs (r : Running) (op : Nat) : List (Nat × Nat) :=
  (if op = 5 then [] else [(fld r.cmd.body 8 8, 128)]) ++ [(fld r.cmd.body 16 8, if op = 4 then 64 else 128)]

/-- The source descriptor. -/
def lySrc (d : Dev) (r : Running) : Td := tdParse (recAt d r (fld r.cmd.body 8 8) 128)
/-- The destination descriptor. -/
def lyDst (d : Dev) (r : Running) : Td := tdParse (recAt d r (fld r.cmd.body 16 8) 128)

/-- The command has a block list. -/
def lyBlk (d : Dev) (r : Running) (op : Nat) : Bool := op == 4 || (op == 2 && (lySrc d r).blk) || ((op == 3 || op == 5) && (lyDst d r).blk)

/-- Where the block-list descriptor stands. -/
def lyBldA (d : Dev) (r : Running) (op : Nat) : Nat :=
  if op = 4 then fld r.cmd.body 16 8 else if op = 2 then (lySrc d r).bld else (lyDst d r).bld

/-- The block-list descriptor, when there is one. -/
def lyBldRec (d : Dev) (r : Running) (op : Nat) : List (Nat × Nat) := if lyBlk d r op then [(lyBldA d r op, 64)] else []

/-- Every descriptor of the command. -/
def lyAll (d : Dev) (r : Running) (op : Nat) : List (Nat × Nat) :=
  lyRecs r op ++ (if lyBlk d r op && op != 4 then [(lyBldA d r op, 64)] else [])

/-- Read the descriptors; `rr` gives the reads of each that fail. A command judges them once. -/
def lyRead (o : Otp) (d : Dev) (r : Running) (op rr : Nat) : Dev × Bool :=
  if r.work = [1] then (d, true) else recsRead o d r (lyAll d r op) 0 rr

/-- What the command works on. -/
def lyArgs (d : Dev) (r : Running) (op : Nat) : LyArgs :=
  ⟨lySrc d r, lyDst d r, bldParse (recAt d r (lyBldA d r op) 64), fld r.cmd.body 1 1, fld r.cmd.body 40 8, fld r.cmd.body 4 4⟩

/-- The count record, when the command reads one (R90). -/
def lyCnt (a : LyArgs) (op : Nat) (blk : Bool) : List (Nat × Nat) :=
  if blk && op != 4 && a.bld.ind then [(a.bld.countAddr, 8)] else []

/-- The command's records are at hand and their CRCs judged: the checks, the list's own reads, the data, the writes. -/
def lyGo (op q fn : Nat) (d : Dev) (r : Running) : Dev :=
  let sq := r.cmd.cseq.toNat
  let blk := lyBlk d r op
  let a := lyArgs d r op
  let st := lyChecks d fn r a blk
  if st ≠ stOk then cmdFinal d q sq st 0
  else cmdOnce d q r (lyCnt a op blk) (fun d r =>
    let st := lyListChecks d fn r a op blk
    if st ≠ stOk then cmdFinal d q sq st 0
    else cmdOnce d q r (lyListReads d r a op blk) (fun d r =>
      cmdNeed d q r (lyReads d r a op) <|
        let w := lyRun d r a op (.cmd q sq)
        cmdWritten w.1 q r w.2))

/-- A layout command of queue `q` with LY_OP = `op`; `rr` gives the reads of its descriptors that fail. -/
def layoutDev (op q rr : Nat) (o : Otp) (d : Dev) : Dev :=
  onActive d q (lyIs op) (fun d v r =>
    let sq := r.cmd.cseq.toNat
    let st := recStatus d v.owner (lyRecs r op)
    if st ≠ stOk then cmdFinal d q sq st 0
    else cmdOnce d q r (lyRecs r op) (fun d r =>
      let st := recStatus d v.owner (lyBldRec d r op)
      if st ≠ stOk then cmdFinal d q sq st 0
      else cmdOnce d q r (lyBldRec d r op) (fun d r =>
        let rd := lyRead o d r op rr
        if !rd.2 then cmdFinal rd.1 q sq stTdCrc 0 else lyGo op q v.owner (cmdJudged rd.1 q r) r)))

/-- LY_COPY (R94). -/
def execLyCopy (q rr : Nat) (s : State) : Host.Outcome State Fault Refusal := runDev (layoutDev 1 q rr) s
/-- LY_GATHER (R95). -/
def execLyGather (q rr : Nat) (s : State) : Host.Outcome State Fault Refusal := runDev (layoutDev 2 q rr) s
/-- LY_SCATTER (R95). -/
def execLyScatter (q rr : Nat) (s : State) : Host.Outcome State Fault Refusal := runDev (layoutDev 3 q rr) s
/-- LY_LIST (R96). -/
def execLyList (q rr : Nat) (s : State) : Host.Outcome State Fault Refusal := runDev (layoutDev 4 q rr) s
/-- LY_FILL (R97). -/
def execLyFill (q rr : Nat) (s : State) : Host.Outcome State Fault Refusal := runDev (layoutDev 5 q rr) s

/-- The checks of DC_COPY from row 3 of Table 3-9 on (R139). -/
def copyChecks (d : Dev) (fn : Nat) (r : Running) (s t : Td) : Nat :=
  firstBad [
    (tdAlign (fld r.cmd.body 8 8) s && tdAlign (fld r.cmd.body 16 8) t, stTdAlign),
    (tdRsvd s && tdRsvd t, stTdRsvd), (tdPack s && tdPack t, stTdPack),
    (tdShape s && tdShape t && !s.blk && !t.blk && s.etype == t.etype && s.ndim == t.ndim && s.ext == t.ext, stTdShape),
    (tdAlias t, stTdAlias), (!t.padStore || r.cmd.ctl.testBit 5, stTdOrder),
    (tdWindow d fn s false && tdWindow d fn t true, stRrWindow),
    (tdMapped d s false && tdMapped d t true, stAddrUnmapped)]

/-- DC_COPY (R139): destination position i receives source position i. XFE_PC_BYTES counts the bytes moved. -/
def dcCopyDev (q rr : Nat) (o : Otp) (d : Dev) : Dev :=
  onActive d q (fun r => r.cmd.op == 0x02) (fun d v r =>
    let sq := r.cmd.cseq.toNat
    let recs := [(fld r.cmd.body 8 8, 128), (fld r.cmd.body 16 8, 128)]
    let st := recStatus d v.owner recs
    if st ≠ stOk then cmdFinal d q sq st 0
    else cmdOnce d q r recs (fun d r =>
      let rd := if r.work = [1] then (d, true) else recsRead o d r recs 0 rr
      if !rd.2 then cmdFinal rd.1 q sq stTdCrc 0
      else
        let d := cmdJudged rd.1 q r
        let s := tdParse (recAt d r (fld r.cmd.body 8 8) 128)
        let t := tdParse (recAt d r (fld r.cmd.body 16 8) 128)
        let st := copyChecks d v.owner r s t
        if st ≠ stOk then cmdFinal d q sq st 0
        else cmdNeed d q r (tdRanges s (tdAll s)) <|
          let items := (tdAll t).map (fun i => (i, tdRead d r.rbuf s i))
          pcAdd (cmdWritten (tdWrite d t items (.cmd q sq)) q r 0) (kEng r.engine + 3) (itemBytes t items)))

/-- DC_COPY. -/
def execDcCopy (q rr : Nat) (s : State) : Host.Outcome State Fault Refusal := runDev (dcCopyDev q rr) s

end Sys2Proof.Machine
end

