-- ==== Sys2Proof/Machine/Streams.lean ====
section
/-!
DEFINITION. Streams (chapter 4): start (R119, R120, Table 4-12), instruction caches (R118), bundles with their waits, signals
and loops (R103 to R113), choices (R121, R122) and retirement (R116).
-/

namespace Sys2Proof.Machine

/-! ### Access -/

/-- The stream that an engine runs. -/
def stGet (d : Dev) (e : Nat) : Option Stream := smGet none d.streams e
/-- Replace it. -/
def stSet (d : Dev) (e : Nat) (v : Stream) : Dev := { d with streams := smSet none d.streams e (some v) }
/-- Change it, if there is one. -/
def stMod (d : Dev) (e : Nat) (f : Stream → Stream) : Dev :=
  match stGet d e with
  | some v => stSet d e (f v)
  | none => d

/-- A stream fault (R120): no later slot, no signal of the bundle; the writes already issued complete. Reads are given up,
and with them a signal that waits for one (R110). -/
def stFault (d : Dev) (e status : Nat) : Dev :=
  stMod d e (fun v =>
    let gone := (v.remote.filter (·.isRead)).map (·.tag)
    { v with final := some status, slots := [], waits := [], head := none, opened := none, missing := none, tile := none,
             look := none, sigs := v.sigs.filter (fun s => s.armed && !s.tags.any gone.contains),
             remote := v.remote.filter (fun r => !r.isRead) })

/-- Loop counter `l` (R113): 0 for a level that is not open. -/
def loopCtr (v : Stream) (l : Nat) : Nat :=
  match v.loops.find? (fun f => f.level == l) with
  | some f => f.cur
  | none => 0

/-- The four loop counters. -/
def loopCtrs (v : Stream) : List Nat := (List.range 4).map (loopCtr v)

/-- A parameter register. -/
def param (v : Stream) (p : Nat) : Nat := smGet 0 v.params p
/-- A 64-bit value in two parameter registers, low half first. -/
def param64 (v : Stream) (p : Nat) : Nat := param v p + param v (p + 1) * 2 ^ 32

/-- The generation that a stream has pinned. -/
def stGen (d : Dev) (v : Stream) : Option Gen := (handleGet d v.handle).gens.find? (fun g => g.gen == v.gen)

/-- Flags raised in a stream (R48, R49). -/
def stFlags (d : Dev) (e fl : Nat) : Dev := raiseFlags (stMod d e (fun v => { v with numFlags := v.numFlags ||| fl })) e fl

/-! ### Instruction caches (R118) -/

/-- The key of a set: 16 sets in an engine's cache, 4 in the cache of SCC n, which is cache 224 + n. -/
def icKey (cache blk : Nat) : Nat := cache * 16 + (if 224 ≤ cache then blk % 4 else blk % 16)

/-- The bytes of a block that a cache holds. -/
def icFind (d : Dev) (cache handle gen blk : Nat) : Option (List Byte) :=
  ((smGet [] d.icache (icKey cache blk)).find? (fun b => b.handle == handle && b.gen == gen && b.blk == blk)).map (·.bytes)

/-- Put a block first in its set, at most four kept. -/
def icPut (d : Dev) (cache handle gen blk : Nat) (bs : List Byte) : Dev :=
  let k := icKey cache blk
  let rest := (smGet [] d.icache k).filter (fun b => !(b.handle == handle && b.gen == gen && b.blk == blk))
  { d with icache := smSet [] d.icache k ((⟨handle, gen, blk, bs⟩ :: rest).take 4) }

/-- A prefetch of a block for a stream is on its way into a cache. -/
def isPrefetch (e : Nat) (v : Stream) (cache blk : Nat) (p : Prefetch) : Bool :=
  p.engine == e && p.cache == cache && p.handle == v.handle && p.gen == v.gen && p.blk == blk

/-- Go on with a code block that a cache holds, or wait for its fill: a demand fill is asked for, unless a prefetch of the
block is on its way. ENG_PC_IMISS counts the engine's misses. -/
def withBlock (d : Dev) (e : Nat) (v : Stream) (cache blk : Nat) (k : Dev → List Byte → Dev) : Dev :=
  match icFind d cache v.handle v.gen blk with
  | some bs => k (icPut d cache v.handle v.gen blk bs) bs
  | none =>
    if d.prefetches.any (isPrefetch e v cache blk) then d
    else
      let d := stSet d e { v with missing := some (cache * 65536 + blk) }
      if 224 ≤ cache then d else pcAdd d (kEng e + 1) 1

/-- Read and check a code block of a generation (R101, R117, R412), after `rr` failed reads. -/
def codeFill (o : Otp) (d : Dev) (handle gen blk rr : Nat) : Dev × Option (List Byte) :=
  match (handleGet d handle).gens.find? (fun g => g.gen == gen) with
  | none => (d, none)
  | some g =>
    let a := g.base + 1024 + 1024 * blk
    let bs := memRead d a 1024
    let r := readRecord o d a (blockCrc bs g.build == memNat d (g.base + g.crcOff + 4 * blk) 4) rr
    (r.1, if r.2 then some bs else none)

/-- ICACHE_DEMAND_FILL (R117, R118): the block is kept, and the next one prefetched; a block that fails every read faults
the stream. -/
def demandFillDev (cls inst rr : Nat) (o : Otp) (d : Dev) : Dev :=
  let e := ek cls inst
  match stGet d e with
  | none => d
  | some v =>
    match v.missing with
    | none => d
    | some x =>
      let cache := x / 65536
      let blk := x % 65536
      let r := codeFill o d v.handle v.gen blk rr
      match r.2 with
      | none => stFault r.1 e stCodeCrc
      | some bs =>
        let d := icPut r.1 cache v.handle v.gen blk bs
        let more := match stGen d v with
          | some g => decide (blk + 1 < g.bodyLen / 1024) && icFind d cache v.handle v.gen (blk + 1) == none &&
              !d.prefetches.any (isPrefetch e v cache (blk + 1))
          | none => false
        let next : List Prefetch := if more then [⟨e, cache, v.handle, v.gen, blk + 1⟩] else []
        stMod { d with prefetches := d.prefetches ++ next } e (fun v => { v with missing := none })

/-- ICACHE_DEMAND_FILL. -/
def execIcacheDemandFill (cls inst rr : Nat) (s : State) : Host.Outcome State Fault Refusal :=
  runDev (demandFillDev cls inst rr) s

/-- ICACHE_PREFETCH_FILL (R118): the engine's oldest prefetch fill, kept, or discarded without effect; it completes whatever
its stream has done meanwhile. -/
def prefetchFillDev (cls inst rr : Nat) (o : Otp) (d : Dev) : Dev :=
  match d.prefetches.find? (fun p => p.engine == ek cls inst) with
  | none => d
  | some p =>
    let r := codeFill o { d with prefetches := d.prefetches.erase p } p.handle p.gen p.blk rr
    match r.2 with
    | some bs => icPut r.1 p.cache p.handle p.gen p.blk bs
    | none => r.1

/-- ICACHE_PREFETCH_FILL. -/
def execIcachePrefetchFill (cls inst rr : Nat) (s : State) : Host.Outcome State Fault Refusal :=
  runDev (prefetchFillDev cls inst rr) s

/-! ### The bundle in progress -/

/-- The tags of a stream's outstanding accesses of one kind. -/
def openTags (v : Stream) (reads : Bool) : List Nat := (v.remote.filter (fun r => r.isRead == reads)).map (·.tag)

/-- The loops, next offset and skip count after a bundle of `n` bytes (R113). -/
def closeLoops (v : Stream) (head n : Nat) : Stream :=
  let next := v.pos + n
  match v.opened with
  | some f => if f.count = 0 then { v with pos := next, skip := 1 } else { v with pos := next, loops := f :: v.loops }
  | none =>
    if head.testBit 4 then
      match v.loops with
      | [] => { v with pos := next }
      | f :: t =>
        if f.cur + 1 < f.count then { v with pos := f.body, loops := { f with cur := f.cur + 1 } :: t }
        else { v with pos := next, loops := t }
    else { v with pos := next }

/-- The end of a bundle: its signals are armed with the accesses they wait for (R110), loops close, and the stream goes on
to the next bundle or to the one that a choice has picked. -/
def bundleEnd (v : Stream) (head : Nat) : Stream :=
  let own : List SigReq :=
    if head.testBit 14 then [⟨nth v.tallies (bits head 10 4), bits head 7 3 + 1, bits head 5 2 == 1, false, []⟩] else []
  let arm : SigReq → SigReq := fun s => if s.armed then s else { s with armed := true, tags := openTags v s.onRead }
  let sigs := (v.sigs.filter (·.armed) ++ own ++ v.sigs.filter (fun s => !s.armed)).map arm
  let w := closeLoops v head (bundleLen head)
  let w := match v.chosen with
    | some p => { w with pos := p, loops := [], chosen := none }
    | none => w
  { w with sigs := sigs, head := none, opened := none }

/-- The verdict on a wait of a stream (R108, R109): 0 pending, 1 met, 2 its tally saturated. -/
def stWait (d : Dev) (v : Stream) (w : WaitReq) : Nat :=
  waitStill w.res (tallyGet d (nth v.tallies w.binding)) (nth v.exps w.binding) w.cond w.value

/-- Meet the waits, and end the bundle when nothing of it is left (R104, R108, R109). -/
def advance (d : Dev) (e : Nat) : Dev :=
  match stGet d e with
  | none => d
  | some v =>
    match v.waits with
    | w :: rest =>
      let b := w.binding
      let d := tallyLook d (nth v.tallies b)
      let r := stWait d v w
      if r = 0 then d
      else if r = 2 then stFault d e stTallySat
      else
        let v := { v with waits := rest, exps := setAt v.exps b (waitExp (nth v.exps b) w.cond w.value) }
        match v.head, v.slots with
        | some h, [] => stSet d e (bundleEnd v h)
        | _, _ => stSet d e v
    | [] =>
      match v.head, v.slots with
      | some h, [] => stSet d e (bundleEnd v h)
      | _, _ => d

/-- A stream that can take its next bundle. -/
def canIssue (v : Stream) : Bool := v.final.isNone && !v.ending && v.head.isNone && v.missing.isNone

/-- BUNDLE_ISSUE (R104, R113): the engine takes the next bundle and evaluates its head wait; in the body of a loop with a
count of 0 it only goes past it. -/
def bundleIssueDev (cls inst : Nat) (_o : Otp) (d : Dev) : Dev :=
  let e := ek cls inst
  match stGet d e with
  | none => d
  | some v =>
    if !canIssue v then d
    else withBlock d e v e (v.pos / 1024) (fun d bs =>
      let rd := fun off n => fld bs (off % 1024) n
      let h := rd v.pos 4
      let slots := bundleSlots rd h v.pos
      if v.skip ≠ 0 then
        let opens := slots.any (fun s => s.kind == 6 && bits s.w 28 4 == 1)
        let skip := v.skip + opens.toNat - (h.testBit 4).toNat
        stSet d e { v with pos := v.pos + bundleLen h, skip := skip }
      else
        let waits : List WaitReq := if bits h 23 2 = 0 then [] else [⟨bits h 19 4, bits h 23 2, bits h 15 4, 0⟩]
        advance (pcAdd (stSet d e { v with head := some h, waits := waits, slots := slots }) (kEng e) 1) e)

/-- BUNDLE_ISSUE. -/
def execBundleIssue (cls inst : Nat) (s : State) : Host.Outcome State Fault Refusal := runDev (bundleIssueDev cls inst) s

/-- BUNDLE_WAIT_MET (R108): ENG_PC_WAIT counts the cycles stalled, a free value. -/
def bundleWaitMetDev (cls inst : Nat) (_o : Otp) (d : Dev) : Dev :=
  let e := ek cls inst
  match stGet d e with
  | none => d
  | some v =>
    match v.waits with
    | [] => d
    | w :: _ =>
      if stWait d v w = 0 then d
      else advance (bump (pcAdd d (kEng e + 2) (Config.freeCount d.freeIdx).toNat)) e

/-- BUNDLE_WAIT_MET. -/
def execBundleWaitMet (cls inst : Nat) (s : State) : Host.Outcome State Fault Refusal := runDev (bundleWaitMetDev cls inst) s

/-- SP_WAIT_LIMIT_EXPIRY (R111). -/
def spWaitLimitDev (cls inst : Nat) (_o : Otp) (d : Dev) : Dev :=
  let e := ek cls inst
  match stGet d e with
  | none => d
  | some v =>
    match v.waits with
    | [] => d
    | w :: _ =>
      if stWait d v w = 0 then
        stFault (bump (pcAdd d (kEng e + 2) (Config.freeCount d.freeIdx).toNat)) e stWaitLimit
      else d

/-- SP_WAIT_LIMIT_EXPIRY. -/
def execSpWaitLimitExpiry (cls inst : Nat) (s : State) : Host.Outcome State Fault Refusal :=
  runDev (spWaitLimitDev cls inst) s

/-- The next slot of an engine's bundle, when it is one of those that `p` names and nothing that it needs is awaited. A
retired engine's stream faults there (R425). -/
def onSlot (o : Otp) (d : Dev) (e : Nat) (p : Slot → Bool) (f : Dev → Stream → Slot → Dev) : Dev :=
  match stGet d e with
  | none => d
  | some v =>
    match v.slots with
    | [] => d
    | s :: _ =>
      if v.final.isSome || v.waits != [] || v.missing.isSome || v.tile.isSome || v.look.isSome ||
          v.remote.any (·.isRead) || !p s then d
      else if !usable o d (e / 32) (e % 32) then stFault d e stEngineRetired
      else f d v s

/-- The slot is done. -/
def slotDone (d : Dev) (e : Nat) : Dev := advance (stMod d e (fun v => { v with slots := v.slots.drop 1, rbuf := [] })) e

/-- The slot is done, with remote writes outstanding. -/
def slotWrote (x : Dev × List Remote) (e : Nat) : Dev :=
  slotDone (stMod x.1 e (fun v => { v with remote := v.remote ++ x.2 })) e

/-- A write of the stream to one of these bytes of another module is not acknowledged yet: the stream's later accesses to
the byte wait for it (R104). -/
def ownPending (v : Stream) (rs : List (Nat × Nat)) : Bool :=
  v.remote.any (fun r => !r.isRead && rs.any (fun x => decide (x.1 < r.addr + r.len) && decide (r.addr < x.1 + x.2)))

/-- Go on when a slot has every byte it reads; otherwise fetch the remote ones, or fault when the fabric bars them. -/
def slotNeed (d : Dev) (e : Nat) (v : Stream) (rs : List (Nat × Nat)) (k : Dev) : Dev :=
  let miss := gaMissing d v.rbuf rs
  if miss = [] then k
  else if ownPending v miss then d
  else match gaBar d miss with
    | some st => stFault d e st
    | none =>
      let x := gaFetch d miss (.stream e)
      stMod x.1 e (fun v => { v with remote := v.remote ++ x.2 })

/-- Go on when a slot may store at some positions of a tensor: its earlier writes to those bytes are acknowledged (R104), and
the bytes of other modules of which it stores a half are at hand (R67). -/
def slotStore (d : Dev) (e : Nat) (v : Stream) (t : Td) (is : List (List Int)) (k : Dev) : Dev :=
  if ownPending v (tdSpan t is) then d else slotNeed d e v (tdHalves d t is) k

/-! ### Bindings -/

/-- The descriptor of a bound tensor binding. -/
def stTd (v : Stream) (b : Nat) : Option Td := if nth v.tdAddr b = 0 then none else some (tdParse (v.tds.getD b []))

/-- The stream's command carries the ordered marking (R85). -/
def stOrdered (d : Dev) (v : Stream) : Bool :=
  match qGet d v.queue with
  | none => false
  | some q => match runGet q v.seq with
    | some r => r.cmd.ctl.testBit 5
    | none => false

/-- The write checks of a binding, at the first slot that writes through it (Table 4-12, order 9). -/
def writeCheck (d : Dev) (v : Stream) (b : Nat) : Nat :=
  if v.checked.contains b then stOk
  else match stTd v b with
    | none => stSpUnbound
    | some t => firstBad [(tdAlias t, stTdAlias), (!t.padStore || stOrdered d v, stTdOrder), (tdWindow d v.fn t true, stRrWindow),
        (tdMapped d t true, stAddrUnmapped)]

/-- The write checks of several bindings of one slot, row by row of Table 4-12: an unbound one comes before every other
check. -/
def writeChecks (d : Dev) (v : Stream) (bs : List Nat) : Nat :=
  let sts := bs.map (writeCheck d v)
  ((([stSpUnbound, stTdAlias, stTdOrder, stRrWindow, stAddrUnmapped].filter sts.contains).head?).getD stOk)

/-- The binding has passed its write checks. -/
def markChecked (d : Dev) (e b : Nat) : Dev :=
  stMod d e (fun v => { v with checked := if v.checked.contains b then v.checked else v.checked ++ [b] })

/-- Go on with access pattern `i` of the code object, read through the instruction cache (R106). -/
def withAp (d : Dev) (e : Nat) (v : Stream) (i : Nat) (k : Dev → List Byte → Dev) : Dev :=
  match stGen d v with
  | none => d
  | some g =>
    let off := g.apOff + 64 * i
    withBlock d e v e (off / 1024) (fun d bs => k d ((bs.drop (off % 1024)).take 64))

/-- The access pattern's extents fit a tensor of `n` dimensions (R106): at least 1 below `n`, zero above. -/
def apFits (ap : List Byte) (n : Nat) : Bool :=
  (List.range 6).all (fun k => if k < n then apExt ap k != 0 else apExt ap k == 0)

/-! ### Sync and scalar slots -/

/-- SY_WAIT (R107): the bundle's second wait. -/
def syWaitDev (cls inst : Nat) (o : Otp) (d : Dev) : Dev :=
  let e := ek cls inst
  onSlot o d e (fun s => s.kind == 0 && bits s.w 30 2 == 1) (fun d v s =>
    let ws : List WaitReq := if bits s.w 28 2 = 0 then [] else [⟨bits s.w 24 4, bits s.w 28 2, bits s.w 0 24, 0⟩]
    advance (stSet d e { v with slots := v.slots.drop 1, waits := ws }) e)

/-- SY_WAIT. -/
def execSyWait (cls inst : Nat) (s : State) : Host.Outcome State Fault Refusal := runDev (syWaitDev cls inst) s

/-- SY_SIGNAL (R107): the bundle's second signal. -/
def sySignalDev (cls inst : Nat) (o : Otp) (d : Dev) : Dev :=
  let e := ek cls inst
  onSlot o d e (fun s => s.kind == 0 && bits s.w 30 2 == 2) (fun d v s =>
    slotDone (stSet d e { v with sigs := v.sigs ++ [⟨nth v.tallies (bits s.w 26 4), bits s.w 0 24, bits s.w 24 2 == 1, false, []⟩] }) e)

/-- SY_SIGNAL. -/
def execSySignal (cls inst : Nat) (s : State) : Host.Outcome State Fault Refusal := runDev (sySignalDev cls inst) s

/-- A scalar slot with SC_OP = `op`. -/
def isScalar (op : Nat) (s : Slot) : Bool := s.kind == 6 && bits s.w 28 4 == op

/-- S_LOOP (R112, R113): the loop opens with the bundle's end; its count is read now. -/
def sLoopDev (cls inst : Nat) (o : Otp) (d : Dev) : Dev :=
  let e := ek cls inst
  onSlot o d e (isScalar 1) (fun d v s =>
    let n := if s.w.testBit 25 then param v (bits s.w 0 6) else bits s.w 0 24
    let body := v.pos + bundleLen (v.head.getD 0)
    slotDone (stSet d e { v with opened := some ⟨bits s.w 26 2, body, n, 0⟩ }) e)

/-- S_LOOP. -/
def execSLoop (cls inst : Nat) (s : State) : Host.Outcome State Fault Refusal := runDev (sLoopDev cls inst) s

/-- S_END (R112). -/
def sEndDev (cls inst : Nat) (o : Otp) (d : Dev) : Dev :=
  let e := ek cls inst
  onSlot o d e (isScalar 2) (fun d v _ => slotDone (stSet d e { v with ending := true }) e)

/-- S_END. -/
def execSEnd (cls inst : Nat) (s : State) : Host.Outcome State Fault Refusal := runDev (sEndDev cls inst) s

/-- The SCC that a slot names on the engine's own die. -/
def sccOf (e n : Nat) : Nat := dieOf (e / 32) (e % 32) * 4 + n

/-- A virtual function's stream names an SCC that is not assigned to it (R312). -/
def sccDenied (d : Dev) (v : Stream) (scc : Nat) : Bool := v.fn != 0 && smGet 0 d.rrAssign (ek 7 scc) != v.fn

/-- S_SUMM (R121, R264): the summary register is deposited whole; an EMPTY one deposits zeros. -/
def sSummDev (cls inst : Nat) (o : Otp) (d : Dev) : Dev :=
  let e := ek cls inst
  onSlot o d e (isScalar 3) (fun d v s =>
    let n := sccOf e (bits s.w 22 2)
    if sccDenied d v n then stFault d e stRrResource
    else
      let y := (smGet none v.yregs (bits s.w 24 4)).getD summ0
      slotDone { d with sccSlots := smSet summ0 d.sccSlots (n * 32 + bits s.w 17 5) y } e)

/-- S_SUMM. -/
def execSSumm (cls inst : Nat) (s : State) : Host.Outcome State Fault Refusal := runDev (sSummDev cls inst) s

/-- S_ADVE (R112). -/
def sAdveDev (cls inst : Nat) (o : Otp) (d : Dev) : Dev :=
  let e := ek cls inst
  onSlot o d e (isScalar 4) (fun d v s =>
    let b := bits s.w 24 4
    slotDone (stSet d e { v with exps := setAt v.exps b (satAdd 32 (nth v.exps b) (bits s.w 0 24)) }) e)

/-- S_ADVE. -/
def execSAdve (cls inst : Nat) (s : State) : Host.Outcome State Fault Refusal := runDev (sAdveDev cls inst) s

/-- A choice rule matches a summary (Table 4-13, R123). -/
def ruleMatch (r : List Byte) (y : Summ) : Bool :=
  let t := fld r 6 1
  let c := bits t 0 3
  let v := fld r 0 4
  let f := bits t 4 2
  if c = 5 then true
  else if f = 2 then
    (if c = 1 then eqF y.maxv v else if c = 2 then ltF y.maxv v || ltF v y.maxv
     else if c = 3 then ltF v y.maxv || eqF y.maxv v else if c = 4 then ltF y.maxv v else false)
  else
    let x := if f = 0 then y.count else if f = 1 then y.maxv else y.any.toNat
    (if c = 1 then x == v else if c = 2 then x != v else if c = 3 then decide (v ≤ x) else if c = 4 then decide (x < v) else false)

/-- S_CHOOSE (R122): the first rule that matches sets its parameter register and picks the next entry, or the end. -/
def sChooseDev (cls inst : Nat) (o : Otp) (d : Dev) : Dev :=
  let e := ek cls inst
  onSlot o d e (isScalar 5) (fun d v s =>
    let n := sccOf e (bits s.w 26 2)
    if sccDenied d v n then stFault d e stRrResource
    else match stGen d v with
      | none => d
      | some g =>
        let off := g.choiceOff + 64 * bits s.w 13 8
        withBlock d e v (224 + n) (off / 1024) (fun d bs =>
          let ent := (bs.drop (off % 1024)).take 64
          let y := smGet summ0 d.sccSlots (n * 32 + bits s.w 21 5)
          match ((List.range 4).map (fun i => (ent.drop (16 * i)).take 16)).find? (fun r => ruleMatch r y) with
          | none => stFault d e stChoiceNone
          | some r =>
            let ps := if (fld r 7 1).testBit 7 then smSet 0 v.params (fld r 7 1 % 64) y.count else v.params
            let v := { v with params := ps }
            slotDone (stSet d e (if fld r 4 2 = 0xFFFF then { v with ending := true }
              else { v with chosen := some (nth g.entries (fld r 4 2)) })) e))

/-- S_CHOOSE. -/
def execSChoose (cls inst : Nat) (s : State) : Host.Outcome State Fault Refusal := runDev (sChooseDev cls inst) s

/-! ### Signals -/

/-- SIGNAL_FIRE (R109, R110): the first signal whose accesses have all completed. -/
def signalFireDev (cls inst : Nat) (_o : Otp) (d : Dev) : Dev :=
  let e := ek cls inst
  match stGet d e with
  | none => d
  | some v =>
    let hit := fun s : SigReq => s.armed && s.tags.all (fun t => !(v.remote.any (fun r => r.tag == t)))
    match v.sigs.find? hit with
    | none => d
    | some s =>
      let no := fun s => !hit s
      let rest := v.sigs.takeWhile no ++ (v.sigs.dropWhile no).drop 1
      tallyAdd (stSet d e { v with sigs := rest }) s.tally s.inc

/-- SIGNAL_FIRE. -/
def execSignalFire (cls inst : Nat) (s : State) : Host.Outcome State Fault Refusal := runDev (signalFireDev cls inst) s

/-! ### Start (R119, Table 4-12) -/

/-- The descriptor addresses of a parameter block. -/
def spTds (sp : List Byte) : List Nat := (List.range 16).map (fun b => fld sp (112 + 8 * b) 8)

/-- The tally references of a parameter block. -/
def spTallies (sp : List Byte) : List Nat := (List.range 16).map (fun b => fld sp (16 + 2 * b) 2)

/-- Rows 3 to 5 of Table 4-12, with the owner's and the tally ranges' check (R127, R312). -/
def spChecks (d : Dev) (fn cls : Nat) (sp : List Byte) : Nat :=
  let h := handleGet d (fld sp 0 2 % 1024)
  let g := h.gens.find? (fun g => g.gen == h.current)
  let ok := fun f : Gen → Bool => match g with
    | some g => f g
    | none => false
  firstBad [(h.current != 0, stCodeNone), (h.owner == fn, stCodeDenied), (ok (fun g => g.cls == cls), stCodeClass),
    (ok (fun g => decide (fld sp 2 2 < g.entries.length)) && decide (fld sp 0 2 < 1024) && zeroAt sp 8 8 && zeroAt sp 496 12 &&
      (spTallies sp).all tallyRefOk, stCodeEntry),
    ((spTallies sp).all (tallyInRange d fn), stRrResource)]

/-- The code object of a virtual function's stream lies in one of its windows (R311; DEDUCED, log 154). -/
def spWindow (d : Dev) (fn h : Nat) : Bool :=
  match (handleGet d h).gens.find? (fun g => g.gen == (handleGet d h).current) with
  | some g => localWindow d fn (genSpan g).1 (genSpan g).2
  | none => true

/-- A bound descriptor: its address, the tensor, and for TD_BLK = 1 its block-list descriptor. -/
structure BoundTd where
  addr : Nat
  td : Td
  bld : Option Bld
  deriving DecidableEq, Repr

/-- The block-list descriptor of a bound tensor passes a check, or there is none. -/
def bldAll (x : BoundTd) (f : Bld → Bool) : Bool :=
  match x.bld with
  | some b => f b
  | none => true

/-- Row 6 of Table 4-12: the bound descriptors as read descriptors, from Table 3-9's row 3 on. -/
def spTdChecks (d : Dev) (fn : Nat) (tds : List BoundTd) : Nat :=
  firstBad [(tds.all (fun x => tdAlign x.addr x.td && bldAll x (bldAlign x.td.bld)), stTdAlign),
    (tds.all (fun x => tdRsvd x.td), stTdRsvd), (tds.all (fun x => tdPack x.td), stTdPack),
    (tds.all (fun x => tdShape x.td), stTdShape),
    (tds.all (fun x => bldAll x (fun b => decide (x.td.ndim ≤ 5) && bldOk b x.td.ndim)), stTdList),
    (tds.all (fun x => tdWindow d fn x.td false), stRrWindow), (tds.all (fun x => tdMapped d x.td false), stAddrUnmapped)]

/-- Change the pin count of a generation (R116). -/
def pinMod (d : Dev) (h g : Nat) (f : Nat → Nat) : Dev :=
  let hd := handleGet d h
  let pin : Gen → Gen := fun x => if x.gen = g then { x with pins := f x.pins } else x
  reapHandle (handleSet d h { hd with gens := hd.gens.map pin }) h

/-- The stream that starts. -/
def newStream (d : Dev) (q : Nat) (fn : Nat) (r : Running) (sp : List Byte) (h g pos : Nat) (tds : List (List Byte)) : Stream :=
  { queue := q, seq := r.cmd.cseq.toNat, fn := fn, handle := h, gen := g, pos := pos, waitLimit := fld sp 4 4,
    tallies := spTallies sp, exps := (List.range 16).map (fun b => fld sp (48 + 4 * b) 4), tdAddr := spTds sp, tds := tds,
    params := smSetList 0 [] 0 ((List.range 64).map (fun p => fld sp (240 + 4 * p) 4)), loops := [], skip := 0, head := none,
    waits := [], slots := [], opened := none, sigs := [], missing := none, chosen := none, ending := false,
    final := none, detail := 0, numFlags := 0, checked := [], remote := [], rbuf := [], bindSlots := [], freeze := d.freeze,
    uncollated := d.uncollated.contains (r.engine % 32) && r.engine / 32 == 2, accs := [], lims := [], tile := none,
    gstats := [], tregs := [], sregs := [], ftabs := [], yregs := [], look := none }

/-- The addresses of the descriptors that a parameter block binds. -/
def spAddrs (sp : List Byte) : List Nat := (spTds sp).filter (· != 0)

/-- The block-list descriptors of the bound tensors with TD_BLK = 1. -/
def spBlds (d : Dev) (r : Running) (sp : List Byte) : List (Nat × Nat) :=
  (spAddrs sp).filterMap (fun a =>
    let t := tdParse (recAt d r a 128)
    if t.blk then some (t.bld, 64) else none)

/-- The bound descriptors at hand. -/
def spBound (d : Dev) (r : Running) (sp : List Byte) : List BoundTd :=
  (spAddrs sp).map (fun a =>
    let t := tdParse (recAt d r a 128)
    ⟨a, t, if t.blk then some (bldParse (recAt d r t.bld 64)) else none⟩)

/-- The start fails, and lets go of its generation. -/
def startFail (d : Dev) (q sq h g st : Nat) : Dev := cmdFinal (pinMod d h g (· - 1)) q sq st 0

/-- The stream begins. -/
def startGo (d : Dev) (q fn : Nat) (r : Running) (sp : List Byte) (h g : Nat) : Dev :=
  match (handleGet d h).gens.find? (fun x => x.gen == g) with
  | none => d
  | some gn =>
    let tds := (spTds sp).map (fun a => if a = 0 then [] else recAt d r a 128)
    let d := runMod d q r.cmd.cseq.toNat (fun r => { r with started := true, rbuf := [], work := [h, g] })
    stSet d r.engine (newStream d q fn r sp h g (nth gn.entries (fld sp 2 2)) tds)

/-- The second part of a start, with generation `g` of handle `h` pinned: the bound descriptors, and the block-list
descriptors of those with TD_BLK = 1, are read once and checked in the order of Table 3-9. The parameter block was the
command's first record (R412). -/
def startTds (o : Otp) (d : Dev) (q : Nat) (v : Queue) (r : Running) (sp : List Byte) (h g rr : Nat) : Dev :=
  let sq := r.cmd.cseq.toNat
  let recs := (spAddrs sp).map (fun a => (a, 128))
  let st := recStatus d v.owner recs
  if st ≠ stOk then startFail d q sq h g st
  else match gaBar d (gaMissing d r.rbuf recs) with
    | some st => startFail d q sq h g st
    | none => cmdOnce d q r recs (fun d r =>
      let blds := spBlds d r sp
      let st := recStatus d v.owner blds
      if st ≠ stOk then startFail d q sq h g st
      else match gaBar d (gaMissing d r.rbuf blds) with
        | some st => startFail d q sq h g st
        | none => cmdOnce d q r blds (fun d r =>
          let rd := recsRead o d r (recs ++ blds) 1 rr
          if !rd.2 then startFail rd.1 q sq h g stTdCrc
          else
            let st := spTdChecks rd.1 v.owner (spBound rd.1 r sp)
            if st ≠ stOk then startFail rd.1 q sq h g st else startGo rd.1 q v.owner r sp h g))

/-- DC_RUN (R138, R116, R119, R120): the parameter block is read and checked, its generation pinned, the bound descriptors
are read and checked, and the stream starts. `rr` gives the reads of each of these records that fail. -/
def dcRunDev (q rr : Nat) (o : Otp) (d : Dev) : Dev :=
  onActive d q (fun r => r.cmd.op == 0x01 && (stGet d r.engine).isNone) (fun d v r =>
    let sq := r.cmd.cseq.toNat
    let a := fld r.cmd.body 8 8
    if !windowOk d v.owner a 512 false then cmdFinal d q sq stRrWindow 0
    else if !isMul a 512 || !gaMapped d a 512 then cmdFinal d q sq stAddrUnmapped 0
    else match r.work with
      | [h, g] => startTds o d q v r (recAt d r a 512) h g rr
      | _ => cmdOnce d q r [(a, 512)] (fun d r =>
        let x := recRead o d a (recAt d r a 512) (rrOf rr 0)
        if !x.2 then cmdFinal x.1 q sq stSpCrc 0
        else
          let d := x.1
          let sp := recAt d r a 512
          let h := fld sp 0 2 % 1024
          let st := firstBad [(spChecks d v.owner (r.engine / 32) sp == stOk, spChecks d v.owner (r.engine / 32) sp),
            (spWindow d v.owner h, stRrWindow)]
          if st ≠ stOk then cmdFinal d q sq st 0
          else
            let g := (handleGet d h).current
            let d := pinMod d h g (· + 1)
            let r := { r with started := true, work := [h, g] }
            startTds o (runMod d q sq (fun _ => r)) q v r sp h g rr))

/-- DC_RUN. -/
def execDcRun (q rr : Nat) (s : State) : Host.Outcome State Fault Refusal := runDev (dcRunDev q rr) s

/-! ### Retirement (R116, R240) -/

/-- The exponent of the leading bit of a finite nonzero FP32 or FP64 value. -/
def leadExp (v : FVal) : Int :=
  match v with
  | .fin _ m e => e + (bitLen m : Int) - 1
  | _ => 0

/-- The 128 bytes of a gradient statistics record (Table 2-7). -/
def gradRecord (g : GradStat) : List Byte :=
  let es := g.exps.map (·.1)
  let maxE := es.getLast?.getD 0
  let e16 := fun x : Option Nat => match x with
    | some e => natLe 2 (ofSigned 16 ((e : Int) - 2048))
    | none => natLe 2 0x8000
  let bin := fun n => (g.exps.filter (fun x => min 15 ((maxE - x.1) / 4) == n)).map (·.2) |>.foldl (· + ·) 0
  e16 es.getLast? ++ e16 es.head? ++ natLe 4 g.sumsq ++ natLe 8 g.nElem ++ natLe 8 g.nZero ++ natLe 8 g.nNonfin ++
    (List.range 16).flatMap (fun n => natLe 4 (min (bin n) (2 ^ 32 - 1))) ++ natLe 8 g.nUnder ++ zeros 24

/-- Write the statistics records still due (R240); an address that breaks R31 or R311 faults the stream. -/
def statsWrite (d : Dev) (e : Nat) (v : Stream) : Dev :=
  let due := (List.range 4).filterMap (fun s =>
    let g := smGet gstat0 v.gstats s
    let a := param64 v (56 + 2 * s)
    if g.used && a != 0 then some (a, gradRecord g) else none)
  let v := { v with gstats := [] }
  if !due.all (fun x => windowOk d v.fn x.1 128 true) then stSet d e { v with final := some (v.final.getD stRrWindow) }
  else if !due.all (fun x => gaMapped d x.1 128) then stSet d e { v with final := some (v.final.getD stAddrUnmapped) }
  else
    let x := due.foldl (fun acc y =>
      let z := gaWrite acc.1 [y] (.stream e)
      (z.1, acc.2 ++ z.2)) (stSet d e v, [])
    stMod x.1 e (fun v => { v with remote := v.remote ++ x.2 })

/-- STREAM_RETIRE (R116, R72): after the end or a fault, once signals have fired and writes are acknowledged, the pin and
the bind slot are released and the command takes the stream's status. -/
def streamRetireDev (cls inst : Nat) (_o : Otp) (d : Dev) : Dev :=
  let e := ek cls inst
  match stGet d e with
  | none => d
  | some v =>
    if !(v.final.isSome || (v.ending && v.head.isNone)) || v.sigs != [] || v.remote != [] then d
    else if v.gstats ≠ [] then statsWrite d e v
    else
      let d := { d with streams := smSet none d.streams e none,
                        bindsInUse := v.bindSlots.foldl (fun m k => smMod 0 m k (· - 1)) d.bindsInUse }
      let d := runMod (pinMod d v.handle v.gen (· - 1)) v.queue v.seq (fun r => { r with numFlags := r.numFlags ||| v.numFlags })
      cmdFinal d v.queue v.seq (v.final.getD stOk) v.detail

/-- STREAM_RETIRE. -/
def execStreamRetire (cls inst : Nat) (s : State) : Host.Outcome State Fault Refusal := runDev (streamRetireDev cls inst) s

end Sys2Proof.Machine
end

