-- ==== Sys2Proof/Machine/Lanes.lean ====
section
/-!
DEFINITION. Operations that an engine computes in duplicate (R178, R197, R266, R422): what a mismatch does.
-/

namespace Sys2Proof.Machine

/-- One mismatch is counted, on the engine too where its class has a counter for it, and logged. -/
def laneNote (d : Dev) (e : Nat) (key : Option Nat) (injected : Bool) : Dev :=
  let d := pcAdd d kLanemiss 1
  let d := match key with
    | some k => pcAdd d k 1
    | none => d
  logRec d 1 1 (e / 32) 1 e stOk 0 injected []

/-- One operation of a duplicate lane, counted in its engine's window (R424): an injected mismatch (R439) is logged, recovered
and takes no part in the windows. -/
def laneOp (d : Dev) (e : Nat) (key : Option Nat) : Dev :=
  let inj := takeInject d 4 e
  let d := unitOp inj.2 e (2 ^ 32) 1
  if inj.1 then laneNote d e key true else d

/-- An operation of an EBE or VXE whose two computations differ `mm` times (R422, R424): after one mismatch it is computed
again, and a mismatch that this recovers counts as an event (Table 15-5); a second one retires the engine at once. The second
component: the engine has a result. -/
def laneTry (o : Otp) (d : Dev) (e : Nat) (key : Option Nat) (mm : Nat) : Dev × Bool :=
  let d := laneOp d e key
  if mm = 0 then (d, true)
  else if mm = 1 then (unitEvent o (laneNote d e key false) e 4 1, true)
  else
    let d := laneNote (laneNote d e key false) e key false
    (stFault (if retired d e then d else retireUnit o d e) e stEngineRetired, false)

/-- An operation of a stream on its duplicate lane: `k` goes on with its result; a stream whose engine has none faults with
nothing written. -/
def laneRun (o : Otp) (d : Dev) (e : Nat) (key : Option Nat) (mm : Nat) (k : Dev → Dev) : Dev :=
  let r := laneTry o d e key mm
  if r.2 then k r.1 else r.1

end Sys2Proof.Machine
end

