-- ==== Sys2Proof/Machine/Tree.lean ====
section
/-!
DEFINITION. Boxes of modules (R161, R386) and the trees of groups (R387).
-/

namespace Sys2Proof.Machine

/-- Extent of dimension `k` of a box. -/
def boxExt (ext k : Nat) : Nat := bits ext (4 * k) 4 + 1

/-- The number of modules of a box. -/
def boxSize (ext : Nat) : Nat := ((List.range 5).map (boxExt ext)).foldl (· * ·) 1

/-- The offsets of member `i`. -/
def boxOffsets (ext i : Nat) : List Nat :=
  ((List.range 5).foldl (fun (acc : List Nat × Nat) k => (acc.1 ++ [acc.2 % boxExt ext k], acc.2 / boxExt ext k)) ([], i)).1

/-- The coordinate of member `i`. -/
def boxCoord (d : Dev) (base ext i : Nat) : Nat :=
  (List.range 5).foldl (fun c k => coordPut c k ((coordAt base k + nth (boxOffsets ext i) k) % extentOf d k)) 0

/-- The offset of a coordinate in dimension `k`. -/
def coordOff (d : Dev) (base c k : Nat) : Nat := (coordAt c k + extentOf d k - coordAt base k % extentOf d k) % extentOf d k

/-- The member index of a coordinate, if it lies in the box. -/
def boxIndex (d : Dev) (base ext c : Nat) : Option Nat :=
  if (List.range 5).all (fun k => decide (coordOff d base c k < boxExt ext k)) then
    some (((List.range 5).foldl (fun (acc : Nat × Nat) k =>
      (acc.1 + acc.2 * coordOff d base c k, acc.2 * boxExt ext k)) (0, 1)).1)
  else none

/-- The box lies within the machine: every base below, every extent at most, the machine extent. -/
def boxFits (d : Dev) (base ext : Nat) : Bool :=
  (List.range 5).all (fun k => decide (coordAt base k < extentOf d k) && decide (boxExt ext k ≤ extentOf d k))

/-- The parent of coordinate `x` in the tree rooted at coordinate `r` (R387); none for the root. -/
def treeParent (d : Dev) (base ext r x : Nat) : Option Nat :=
  match (List.range 5).find? (fun k => coordOff d base x k != coordOff d base r k) with
  | none => none
  | some k =>
    let m := extentOf d k
    let xk := coordAt x k
    let ox := coordOff d base x k
    let or := coordOff d base r k
    let f := (coordAt r k + m - xk) % m
    let whole := boxExt ext k == m
    let plus := if whole then decide (f ≤ m - f) else decide (ox < or)
    let dist := if whole then (if plus then f else m - f) else (if plus then or - ox else ox - or)
    let s := if 8 ≤ m ∧ 4 ≤ dist then 4 else 1
    some (coordPut x k (if plus then (xk + s) % m else (xk + m - s) % m))

/-- The members whose parent is coordinate `x`, by increasing member index. -/
def treeChildren (d : Dev) (base ext r x : Nat) : List Nat :=
  (List.range (boxSize ext)).filter (fun i => treeParent d base ext r (boxCoord d base ext i) == some x)

end Sys2Proof.Machine
end

