-- ==== Sys2Proof/Machine/Emb.lean ====
section
/-!
DEFINITION. Embedding tables (chapter 6): the Catalog, binding, the Hot-Row Directory, update pairs and the gates of row reads
(R203, R204, R213), the lookup, and the commands of the chapter.
-/

namespace Sys2Proof.Machine

/-! ### Catalog entries (Tables 6-1, 7-4) -/

/-- CE_BASE. -/
def ceBase (e : List Byte) : Nat := fld e 0 8
/-- CE_ROWS. -/
def ceRows (e : List Byte) : Nat := fld e 8 8
/-- CE_SIDE_BASE. -/
def ceSideBase (e : List Byte) : Nat := fld e 16 8
/-- CE_SIDE_COUNT. -/
def ceSideCount (e : List Byte) : Nat := fld e 24 8
/-- CE_DIM. -/
def ceDim (e : List Byte) : Nat := fld e 32 2
/-- CE_STRIDE. -/
def ceStride (e : List Byte) : Nat := fld e 34 2
/-- CE_CODE is 1: 4-bit codes. -/
def ceFour (e : List Byte) : Bool := fld e 36 1 == 1
/-- CE_OOR. -/
def ceOor (e : List Byte) : Nat := fld e 37 1
/-- CE_DIST. -/
def ceDist (e : List Byte) : Nat := fld e 38 1
/-- CE_OWN_BASE. -/
def ceOwnBase (e : List Byte) : Nat := fld e 40 4
/-- CE_OWN_EXT. -/
def ceOwnExt (e : List Byte) : Nat := fld e 44 4
/-- CE_ROWS_PER. -/
def ceRowsPer (e : List Byte) : Nat := fld e 48 8
/-- CE_GEN. -/
def ceGen (e : List Byte) : Nat := fld e 56 2
/-- CU_RULE. -/
def cuRule (e : List Byte) : Nat := fld e 64 1
/-- CU_GMODE is MEAN. -/
def cuMean (e : List Byte) : Bool := fld e 65 1 == 1
/-- CU_NUM_MODE. -/
def cuMode (e : List Byte) : Nat := fld e 66 1
/-- CU_MASTER. -/
def cuHasMaster (e : List Byte) : Bool := (fld e 67 1).testBit 0
/-- CU_SFMT. -/
def cuSfmt (e : List Byte) : Nat := bits (fld e 67 1) 1 2
/-- CU_SCHED. -/
def cuSched (e : List Byte) : Nat := fld e 84 2
/-- CU_STATE_BASE. -/
def cuStateBase (e : List Byte) : Nat := fld e 88 8
/-- CU_MASTER_BASE. -/
def cuMasterBase (e : List Byte) : Nat := fld e 96 8
/-- CU_STATE_STRIDE. -/
def cuStateStride (e : List Byte) : Nat := fld e 104 4
/-- CU_MASTER_STRIDE. -/
def cuMasterStride (e : List Byte) : Nat := fld e 108 4

/-- S_z (R209). -/
def cuStateSize (e : List Byte) : Nat :=
  let n := ceDim e
  if cuRule e = 2 then 4
  else if cuRule e = 3 then (if cuSfmt e = 0 then 4 * n else if cuSfmt e = 1 then 2 * n else n + n / 16)
  else 0

/-- The pre-image size of a row (R216). -/
def cuPreimage (e : List Byte) : Nat :=
  64 * ceilDiv (64 + ceStride e + (if ceSideCount e = 0 then 0 else 16) + cuStateSize e +
    (if cuHasMaster e then 4 * ceDim e else 0)) 64

/-- Owner index and local row of a logical row (R161). -/
def cePlace (e : List Byte) (r : Nat) : Nat × Nat :=
  let p := boxSize (ceOwnExt e)
  if ceDist e = 0 then (r / ceRowsPer e, r % ceRowsPer e) else (r % p, r / p)

/-- The largest local row count (R163). -/
def ceLocalRows (e : List Byte) : Nat :=
  if ceDist e = 0 then ceRowsPer e else ceilDiv (ceRows e) (boxSize (ceOwnExt e))

/-- Owner index of the own module. -/
def ceOwnIndex (d : Dev) (e : List Byte) : Option Nat := boxIndex d (ceOwnBase e) (ceOwnExt e) (ownCoord d)

/-- The coordinate of a row's owner. -/
def ceOwner (d : Dev) (e : List Byte) (r : Nat) : Nat := boxCoord d (ceOwnBase e) (ceOwnExt e) (cePlace e r).1

/-- A table number. -/
def catGet (d : Dev) (t : Nat) : CatTable := smGet table0 d.tables t
/-- Change a table number. -/
def catMod (d : Dev) (t : Nat) (f : CatTable → CatTable) : Dev := { d with tables := smMod table0 d.tables t f }
/-- The hub reads what it holds of a table number (R160, R413): its side states, array 5, and its entries, array 11. -/
def catUse (d : Dev) (t : Nat) : Dev := (ctlUse (ctlUse d 5 t).1 11 t).1
/-- The entry of a side, empty for EMPTY. -/
def catSide (c : CatTable) (s : Nat) : List Byte := if s = 0 then c.a else c.b
/-- CE_GEN of a side, 0 when it is EMPTY. -/
def catGen (c : CatTable) (s : Nat) : Nat := if catSide c s = [] then 0 else ceGen (catSide c s)
/-- The side that holds a generation. -/
def catByGen (c : CatTable) (g : Nat) : Option Nat :=
  if c.a ≠ [] ∧ ceGen c.a = g then some 0 else if c.b ≠ [] ∧ ceGen c.b = g then some 1 else none
/-- The entry of a table that holds a generation, empty when none does. -/
def catEntry (d : Dev) (t g : Nat) : List Byte :=
  match catByGen (catGet d t) g with
  | some s => catSide (catGet d t) s
  | none => []

/-! ### The Hot-Row Directory (R181 to R186) -/

/-- `hrd_set` of R181. -/
def hrdSet (table side row : Nat) : Nat :=
  (row % 2 ^ 21) ^^^ (((table * 0x9E5) ^^^ (side <<< 20)) % 2 ^ 21)

/-- The bits of an entry that are its key, with HRD_V. -/
def hrdKey (table side row : Nat) : Nat := 2 ^ 63 + side * 2 ^ 62 + table * 2 ^ 50 + (row >>> 21) * 2 ^ 31

/-- The map key and the value of the entry that matches. -/
def hrdFind (d : Dev) (table side row : Nat) : Option (Nat × Nat) :=
  let s := hrdSet table side row * 8
  ((List.range 8).map (fun w => (s + w, smGet 0 d.hrd (s + w)))).find? (fun x =>
    x.2 / 2 ^ 31 == hrdKey table side row / 2 ^ 31)

/-- The HRD reads the set of a key (R182, R413): an entry that is lost becomes invalid. -/
def hrdUse (d : Dev) (table side row : Nat) : Dev :=
  (List.range 8).foldl (fun d w => (ctlUse d 1 (hrdSet table side row * 8 + w)).1) d

/-- The region of an entry: base and size. -/
def hrdRegion (d : Dev) (x : Nat) : Nat × Nat := smGet (0, 0) d.hrdRegions (bits x 29 1 * 2 + bits x 30 1)

/-- The slot of an entry. -/
def hrdSlot (d : Dev) (x : Nat) : Nat := (hrdRegion d x).1 + 32 * (x % 2 ^ 29)

/-- Remove every entry that satisfies a condition on its key number and value. -/
def hrdRemove (d : Dev) (p : Nat → Nat → Bool) : Dev := { d with hrd := d.hrd.filter (fun x => !p x.1 x.2) }

/-- Remove every entry of a table and side (R165). -/
def hrdClearSide (d : Dev) (t s : Nat) : Dev := hrdRemove d (fun _ x => bits x 50 12 == t && bits x 62 1 == s)

/-! ### Update pairs (R203, R204) -/

/-- The pairs that the usable units form: EBE and UPE. -/
def rankPairs (o : Otp) (d : Dev) : List (Nat × Nat) :=
  [0, 1].flatMap (fun die =>
    let us := (List.range 8).filter (fun i => usable o d 4 i && dieOf 4 i == die)
    let es := (List.range 32).filter (fun i => usable o d 3 i && dieOf 3 i == die)
    if us = [] then [] else (List.range es.length).map (fun k => (nth es k, us.getD (k / 4) (us.getLast?.getD 0))))

/-- The pairs as they are numbered. -/
def pairList (o : Otp) (d : Dev) : List (Nat × Nat) := if d.pairUnits = [] then rankPairs o d else d.pairUnits

/-- P. -/
def pairCount (o : Otp) (d : Dev) : Nat := (pairList o d).length

/-- The units of pair `p`, those of the next pair of its die with both usable when one of its own has retired. -/
def pairServe (o : Otp) (d : Dev) (p : Nat) : Nat × Nat :=
  let l := pairList o d
  let own := l.getD p (0, 0)
  let n := l.length
  let ok := fun x : Nat × Nat => !retired d (ek 3 x.1) && !retired d (ek 4 x.2) && dieOf 3 x.1 == dieOf 3 own.1
  (((List.range n).map (fun i => l.getD ((p + i) % n) (0, 0))).find? ok).getD own

/-- `pub_bucket` of R204. -/
def pubBucket (table row : Nat) : Nat :=
  let h := (((table * 0x9E5) ^^^ (row % 2 ^ 20)) ^^^ ((row >>> 20) % 2 ^ 32)) % 2 ^ 32
  (h ^^^ (h >>> 6) ^^^ (h >>> 12) ^^^ (h >>> 18)) % 64

/-- The pair of a row on its owner (R204). -/
def rowPair (o : Otp) (d : Dev) (table row : Nat) : Nat :=
  if d.pubMap = [] then pubBucket table row % max 1 (pairCount o d) else nth d.pubMap (pubBucket table row)

/-- Pair `p`. -/
def pairGet (d : Dev) (p : Nat) : Pair := smGet pair0 d.pairs p
/-- Change pair `p`. -/
def pairMod (d : Dev) (p : Nat) (f : Pair → Pair) : Dev := { d with pairs := smMod pair0 d.pairs p f }

/-! ### Row reads at the owner (R180, R213, R214) -/

/-- Home address of a local row. -/
def rowHome (e : List Byte) (l : Nat) : Nat := ceBase e + l * ceStride e

/-- The row bytes that the owner has, and whether they came from a hot slot. -/
def rowBytes (d : Dev) (t s row : Nat) (e : List Byte) (l : Nat) : List Byte × Bool :=
  match hrdFind d t s row with
  | some x => (memRead d (hrdSlot d x.2) (ceStride e), true)
  | none => (memRead d (rowHome e l) (ceStride e), false)

/-- The address of the side entry that a row's header names, if it names one. -/
def sideAddr (e : List Byte) (h : Nat) : Option Nat :=
  if sideIndex h < ceSideCount e then some (ceSideBase e + 16 * sideIndex h) else none

/-- The bytes of a read: the row, then the side entry when ESC_COUNT is nonzero and SIDE_INDEX names one. -/
def rowReply (d : Dev) (e : List Byte) (row : List Byte) : List Byte :=
  let h := fld row 0 8
  match sideAddr e h with
  | some a => if bits h 32 4 = 0 then row else row ++ memRead d a 16
  | none => row

/-- A read passes the gates of Table 7-5 at its pair. No command leaves a row locked, so the third gate holds nothing. -/
def rowPasses (o : Otp) (d : Dev) (r : RowReq) : Bool :=
  let p := pairGet d (rowPair o d r.table r.row)
  if r.pf then decide (r.step ≤ p.applied + 1) else !(p.applying || decide (d.verLastStep.toNat < p.applied))

/-- A row has come to the lookup of an engine. -/
def lookGot (d : Dev) (e row : Nat) (bs : List Byte) : Dev :=
  stMod d e (fun v => match v.look with
    | some l => { v with look := some { l with need := l.need.erase row, got := smSet [] l.got row bs } }
    | none => v)

/-- The lookup that asked for a row still waits for it: the engine's stream is the one that asked, and has not faulted. -/
def rowWanted (d : Dev) (e : Nat) (r : RowReq) : Bool :=
  match stGet d e with
  | some v => (v.queue, v.seq) == r.cmd && (match v.look with
    | some l => l.need.contains r.row
    | none => false)
  | none => false

/-- Refuse a row read: the stream that asked faults, when its lookup still waits. -/
def rowRefuse (d : Dev) (r : RowReq) (st : Nat) : Dev :=
  match r.engine with
  | some e => if rowWanted d e r then stFault d e st else d
  | none => sendNew d 0x05 r.src r.tag (natLe 2 st) []

/-- MR_KEY. -/
def mrKey (table row : Nat) : Nat := table * 2 ^ 40 + row

/-- The ROW_DATA packets of a reply: at most 1,024 bytes each, with their byte offset. -/
def rowData (d : Dev) (r : RowReq) (bs : List Byte) : Dev :=
  (List.range (ceilDiv bs.length 1024)).foldl (fun d i =>
    sendNew d 0x11 r.src r.tag (natLe 8 (mrKey r.table r.row) ++ natLe 2 (1024 * i)) ((bs.drop (1024 * i)).take 1024)) d

/-- Serve a read that has passed the gates: from the side that holds its generation (R169). -/
def rowServe (d : Dev) (r : RowReq) : Dev :=
  let d := catUse d r.table
  match catByGen (catGet d r.table) r.gen with
  | none => rowRefuse d r stEmbGen
  | some s =>
    let e := catSide (catGet d r.table) s
    let l := (cePlace e r.row).2
    if !decide (r.row < ceRows e) || !mapped d (rowHome e l) (ceStride e) then rowRefuse d r stEmbGen
    else
      let d := hrdUse d r.table s r.row
      let x := rowBytes d r.table s r.row e l
      let bs := rowReply d e x.1
      match r.engine with
      | some en =>
        let d := if x.2 then pcAdd d (kEng en + 5) 1 else d
        if rowWanted d en r then lookGot d en r.row bs else d
      | none => rowData d r bs

/-- A read reaches the gates: it is served, or held there. -/
def rowArrive (o : Otp) (d : Dev) (r : RowReq) : Dev :=
  if catByGen (catGet d r.table) r.gen = none then rowRefuse d r stEmbGen
  else if rowPasses o d r then rowServe d r
  else { d with rowReqs := d.rowReqs ++ [{ r with held := true }] }

/-- ROW_READ (R180): the first local gather that has not been to the gates, or the first ROW_READ packet. -/
def rowReadDev (own : Bool) (o : Otp) (d : Dev) : Dev :=
  if own then
    match d.rowReqs.find? (fun r => !r.held) with
    | none => d
    | some r => rowArrive o { d with rowReqs := d.rowReqs.erase r } r
  else onPacket d 0x10 (fun d _ p =>
    let k := fld p.body 0 8
    rowArrive o d ⟨none, (0, 0), p.src, p.tag, bits k 40 12, k % 2 ^ 40, fld p.body 8 2, fld p.payload 0 8,
      (fld p.body 10 1).testBit 0, false⟩)

/-- ROW_READ. -/
def execRowRead (own : Bool) (s : State) : Host.Outcome State Fault Refusal := runDev (rowReadDev own) s

/-- ROW_GATE_PASS (R213): the first held read whose gates have opened. PUB_PC_GATE counts the hub cycles it was held, a free
value. -/
def rowGatePassDev (o : Otp) (d : Dev) : Dev :=
  match d.rowReqs.find? (fun r => r.held && rowPasses o d r) with
  | none => d
  | some r =>
    let d := pcAdd { d with rowReqs := d.rowReqs.erase r } (kPair (rowPair o d r.table r.row) + 4)
      (Config.freeCount d.freeIdx).toNat
    rowServe (bump d) r

/-- ROW_GATE_PASS. -/
def execRowGatePass (s : State) : Host.Outcome State Fault Refusal := runDev rowGatePassDev s

/-- ROW_GATE_TIMEOUT (R214): the held read number `n`, if its gates are still closed. -/
def rowGateTimeoutDev (n : Nat) (o : Otp) (d : Dev) : Dev :=
  match (d.rowReqs.filter (fun r => r.held && !rowPasses o d r))[n]? with
  | none => d
  | some r =>
    rowRefuse (pcAdd { d with rowReqs := d.rowReqs.erase r } (kPair (rowPair o d r.table r.row) + 4) (2 ^ 26)) r stEmbGate

/-- ROW_GATE_TIMEOUT. -/
def execRowGateTimeout (n : Nat) (s : State) : Host.Outcome State Fault Refusal := runDev (rowGateTimeoutDev n) s

/-- The bytes from offset 0 on that the parts cover without a gap. -/
def joinParts (ps : List (Nat × List Byte)) : Nat → List Byte → List Byte
  | 0, acc => acc
  | n + 1, acc => match ps.find? (fun p => p.1 == acc.length && p.2 != []) with
    | some p => joinParts ps n (acc ++ p.2)
    | none => acc

/-- The bytes that a reply has in all, once its first part has told. -/
def replyLen (e : List Byte) (bs : List Byte) : Nat :=
  if bs.length < ceStride e then ceStride e
  else match sideAddr e (fld bs 0 8) with
    | some _ => if bits (fld bs 0 8) 32 4 = 0 then ceStride e else ceStride e + 16
    | none => ceStride e

/-- ROW_DATA (R180): bytes of a row for the lookup that asked; the read has come back with its last byte. A packet that
answers nothing is dropped. -/
def rowDataDev (_o : Otp) (d : Dev) : Dev :=
  onPacket d 0x11 (fun d _ p =>
    match reqGet d p.tag with
    | some ⟨_, .stream e, _, _, _⟩ =>
      match (stGet d e).bind (fun v => v.look.bind (fun l => (l.tags.find? (fun t => t.1 == p.tag)).map (fun t => (l, t.2)))) with
      | none => reqSet d p.tag none
      | some (l, row) =>
        let off := fld p.body 8 2
        let ps := smGet [] l.parts p.tag ++ [(off, p.payload)]
        let bs := joinParts ps (ps.length + 1) []
        let n := replyLen l.entry bs
        if n ≤ bs.length then
          let d := stMod d e (fun v => { v with look := some { l with parts := smSet [] l.parts p.tag [] } })
          lookGot (reqSet d p.tag none) e row (bs.take n)
        else stMod d e (fun v => { v with look := some { l with parts := smSet [] l.parts p.tag ps } })
    | _ => d)

/-- ROW_DATA. -/
def execRowData (s : State) : Host.Outcome State Fault Refusal := runDev rowDataDev s

/-! ### The slot words of E_LOOKUP and E_ACCUM (Tables 6-6, 7-1) -/

/-- EL_IDX. -/
def elIdx (w : Nat) : Nat := bits w 52 4
/-- EL_OFS. -/
def elOfs (w : Nat) : Nat := bits w 48 4
/-- EL_OUT, EA_GRAD. -/
def elOut (w : Nat) : Nat := bits w 44 4
/-- EL_WGT. -/
def elWgt (w : Nat) : Nat := bits w 40 4
/-- EL_TABLE. -/
def elTable (w : Nat) : Nat := bits w 28 12
/-- EL_POOL. -/
def elPool (w : Nat) : Nat := bits w 25 3
/-- EL_PREG. -/
def elPreg (w : Nat) : Nat := bits w 19 6
/-- EL_SREG. -/
def elSreg (w : Nat) : Nat := bits w 15 4
/-- EL_NUM_MODE. -/
def elMode (w : Nat) : Nat := bits w 7 8

/-- The bindings that the slot names, bound or not. -/
def elBindings (w : Nat) : List Nat :=
  [elIdx w] ++ (if elOfs w = 15 then [] else [elOfs w]) ++ [elOut w] ++ (if elPool w = 4 then [elWgt w] else [])

/-- A binding's descriptor; the slot has checked that it is bound. -/
def elTd (v : Stream) (b : Nat) : Td := (stTd v b).getD (tdParse [])

/-- M. -/
def elM (v : Stream) (w : Nat) : Nat := nth (elTd v (elIdx w)).ext 0

/-- B: M for NONE, one less than the offsets' extent, else the output's dimension-1 data extent. -/
def elB (v : Stream) (w : Nat) : Nat :=
  if elPool w = 3 then elM v w
  else if elOfs w = 15 then tdData (elTd v (elOut w)) 1
  else nth (elTd v (elOfs w)).ext 0 - 1

/-- NB. -/
def elNb (v : Stream) (w : Nat) : Nat := param v (elPreg w + 1)

/-- The conditions of R173 that do not depend on the table's entry. -/
def elShape (v : Stream) (w : Nat) : Bool :=
  let i := elTd v (elIdx w)
  let o := elTd v (elOut w)
  let f := elTd v (elOfs w)
  let g := elTd v (elWgt w)
  let isInt := fun t : Td => t.ndim == 1 && (t.etype == 4 || t.etype == 7)
  isInt i && o.ndim == 2 && decide (o.etype ≤ 2) && tdData o 1 == elB v w &&
    (elOfs w == 15 || (isInt f && nth f.ext 0 == elB v w + 1)) &&
    (elPool w != 4 || (g.ndim == 1 && g.etype == 0 && nth g.ext 0 == elM v w)) &&
    decide (1 ≤ elNb v w) && decide (param v (elPreg w) < 16)

/-- The bind slot that the slot names. -/
def elBindKey (v : Stream) (w : Nat) : Nat := v.fn * 16 + param v (elPreg w) % 16

/-- The side and generation that the bind slot recorded. -/
def elSide (d : Dev) (v : Stream) (w : Nat) : Option (Nat × Nat) :=
  let b := smGet bind0 d.binds (elBindKey v w)
  if b.bound then smGet none b.sides (elTable w) else none

/-- The entry that the bind slot recorded, while it still stands. -/
def elEntry (d : Dev) (v : Stream) (w : Nat) : List Byte :=
  match elSide d v w with
  | some (s, g) => if catGen (catGet d (elTable w)) s = g then catSide (catGet d (elTable w)) s else []
  | none => []

/-- Orders 1 to 4 of Table 6-13; a virtual function's mask bars a table as though no side were recorded (R313). -/
def elChecks (d : Dev) (v : Stream) (w : Nat) : List (Bool × Nat) :=
  let e := elEntry d v w
  [(elShape v w, stEmbShape),
   ((elSide d v w).isSome && (v.fn == 0 || smGet false d.rrTables (v.fn * 4096 + elTable w)), stEmbNotable),
   (e != [], stEmbGen),
   (tdData (elTd v (elOut w)) 0 == ceDim e && decide (elNb v w * ceDim e * 4 ≤ 262144), stEmbShape)]

/-- The stream uses the bind slot from now on (R168). -/
def elMarkBind (d : Dev) (e : Nat) (v : Stream) (w : Nat) : Dev :=
  let k := elBindKey v w
  if v.bindSlots.contains k then d
  else stMod { d with bindsInUse := smMod 0 d.bindsInUse k (· + 1) } e (fun v => { v with bindSlots := v.bindSlots ++ [k] })

/-- The bags of an execution (R174). -/
def elBags (v : Stream) (w : Nat) : List Nat :=
  let b0 := loopCtr v 0 * elNb v w
  (List.range (min (elNb v w) (elB v w - b0))).map (· + b0)

/-- The offsets that an execution reads. -/
def elOfsRanges (v : Stream) (w : Nat) : List (Nat × Nat) :=
  if elOfs w = 15 ∨ elPool w = 3 ∨ elBags v w = [] then []
  else tdRanges (elTd v (elOfs w)) ((elBags v w ++ [(elBags v w).getLast?.getD 0 + 1]).map (fun (b : Nat) => [(b : Int)]))

/-- s_b and e_b, and whether e_b lies below s_b. -/
def elSpan (d : Dev) (v : Stream) (w b : Nat) : Nat × Nat × Bool :=
  let m := elM v w
  if elPool w = 3 then (b, b + 1, false)
  else if elOfs w = 15 then (min m (b * param v (elPreg w + 2)), min m ((b + 1) * param v (elPreg w + 2)), false)
  else
    let t := elTd v (elOfs w)
    let at' := fun (i : Nat) => (min (m : Int) (max 0 (toSigned (etBits t.etype) (tdRead d v.rbuf t [(i : Int)])))).toNat
    (at' b, at' (b + 1), decide (at' (b + 1) < at' b))

/-- The positions of an execution: bag and index position. -/
def elPositions (d : Dev) (v : Stream) (w : Nat) : List (Nat × Nat) :=
  (elBags v w).flatMap (fun b =>
    let s := elSpan d v w b
    (List.range (s.2.1 - s.1)).map (fun i => (b, s.1 + i)))

/-- The byte ranges of a one-dimensional tensor at the positions of an execution. -/
def elRanges (v : Stream) (b : Nat) (ps : List (Nat × Nat)) : List (Nat × Nat) :=
  tdRanges (elTd v b) (ps.map (fun p => [(p.2 : Int)]))

/-- The index at a position. -/
def elIndex (d : Dev) (v : Stream) (w n : Nat) : Int :=
  let t := elTd v (elIdx w)
  toSigned (etBits t.etype) (tdRead d v.rbuf t [(n : Int)])

/-- The class of an index (Table 6-5): 0 pad, 1 a row of zeros, row + 2; none under FAULT. The second component: out of
range. -/
def elClass (e : List Byte) (x : Int) : Option Nat × Bool :=
  let n := ceRows e
  if x = -1 then (some 0, false)
  else if 0 ≤ x ∧ x < (n : Int) then (some (x.toNat + 2), false)
  else if ceOor e = 1 then (some 1, true)
  else if ceOor e = 2 then (some (if x < 0 then 2 else n + 1), true)
  else (none, true)

/-- The row reads of an execution with its fan-out of 16,384 keys (R176), in order. -/
def elReads (rows : List Nat) : List Nat :=
  (rows.foldl (fun (acc : List Nat × List Nat) r =>
    if acc.1.contains r then acc
    else if acc.1.length < 16384 then (acc.1 ++ [r], acc.2 ++ [r]) else ([r], acc.2 ++ [r])) ([], [])).2

/-- Classify the indices of an execution (R171, R177), count them, and go on with bag, position and class of each, or fault
the stream. -/
def elClassify (d : Dev) (e : Nat) (v : Stream) (w : Nat) (ent : List Byte)
    (k : Dev → List (Nat × Nat × Nat) → Bool → Dev) : Dev :=
  let ps := elPositions d v w
  let cs := ps.map (fun p => (p.1, p.2, elClass ent (elIndex d v w p.2)))
  match cs.find? (fun c => c.2.2.1.isNone) with
  | some c =>
    stFault (pcAdd { d with rangePos := smSet 0 d.rangePos (e % 32) c.2.1 } (kEng e + 3) ps.length) e stEmbRange
  | none =>
    let zeros := (cs.filter (fun c => c.2.2.1 == some 1)).length
    let d := pcAdd d (kEng e + 3) ps.length
    let d := catMod d (elTable w) (fun c =>
      { c with zeroHits := satAdd 32 c.zeroHits zeros, zeroSat := c.zeroSat || decide (2 ^ 32 ≤ c.zeroHits + zeros) })
    let neg := (elBags v w).any (fun b => (elSpan d v w b).2.2)
    k d (cs.map (fun c => (c.1, c.2.1, c.2.2.1.getD 0))) (neg || cs.any (fun c => c.2.2.2))

/-- Write a summary register. -/
def elSummary (d : Dev) (e w : Nat) (y : Summ) : Dev :=
  stMod d e (fun v => { v with yregs := smSet none v.yregs (elSreg w) (some y) })

/-- The length of the longest bag. -/
def elLongest (d : Dev) (v : Stream) (w : Nat) : Nat :=
  ((elBags v w).map (fun b => (elSpan d v w b).2.1 - (elSpan d v w b).1)).foldl max 0

/-- Issue the row reads of an execution: local gathers, and ROW_READ requests to other owners. -/
def elIssue (d : Dev) (e : Nat) (v : Stream) (w : Nat) (ent : List Byte) (rows : List Nat) : Dev × List (Nat × Nat) :=
  let step := (smGet bind0 d.binds (elBindKey v w)).step
  let g := ceGen ent
  rows.foldl (fun (acc : Dev × List (Nat × Nat)) r =>
    let own := ceOwner acc.1 ent r
    if own = ownCoord acc.1 then
      ({ acc.1 with rowReqs := acc.1.rowReqs ++ [⟨some e, (v.queue, v.seq), own, 0, elTable w, r, g, step, v.fn == 0, false⟩] }, acc.2)
    else
      let x := sendReq acc.1 0x10 own (natLe 8 (mrKey (elTable w) r) ++ natLe 2 g ++ natLe 1 (v.fn == 0).toNat)
        (padTo 64 (natLe 8 step)) (.stream e) r
      (pcAdd x.1 (kEng e + 6) 1, acc.2 ++ [(x.2, r)])) (d, [])

/-- What bars the first of the rows whose owner is another module (R369, R374). -/
def elBar (d : Dev) (ent : List Byte) (rows : List Nat) : Option Nat :=
  rows.findSome? (fun r => if ceOwner d ent r = ownCoord d then none else remoteBar d (ceOwner d ent r))

/-- A compute slot of an EBE with an opcode. -/
def isEbe (op : Nat) (s : Slot) : Bool := (s.kind == 3 || s.kind == 4) && bits s.w 56 8 == op

/-- E_LOOKUP (R172 to R177). -/
def eLookupDev (inst : Nat) (o : Otp) (d : Dev) : Dev :=
  let e := ek 3 inst
  onSlot o d e (isEbe 0x20) (fun d v s =>
    let w := s.w
    if !(elBindings w).all (fun b => (stTd v b).isSome) then stFault d e stSpUnbound
    else
      let d := catUse d (elTable w)
      let st := writeCheck d v (elOut w)
      if st ≠ stOk then stFault d e st
      else
        let d := markChecked (elMarkBind d e v w) e (elOut w)
        let st := firstBad ((!modeStoch (elMode w) || tdStochOk (elTd v (elOut w)), stTdShape) :: elChecks d v w)
        if st ≠ stOk then stFault d e st
        else
          let ent := elEntry d v w
          slotNeed d e v (elOfsRanges v w) <|
            let ps := elPositions d v w
            slotNeed d e v (elRanges v (elIdx w) ps ++ (if elPool w = 4 then elRanges v (elWgt w) ps else [])) <|
              let rows := ps.filterMap (fun p => match (elClass ent (elIndex d v w p.2)).1 with
                | some (c + 2) => some c
                | _ => none)
              let bar := elBar d ent rows
              elClassify d e v w ent (fun d pos any =>
                match bar with
                | some st => stFault d e st
                | none =>
                  let reads := elReads rows
                  let d := pcAdd d (kEng e + 4) reads.length
                  let cnt := (pos.filter (fun p => decide (2 ≤ p.2.2))).length
                  let d := elSummary d e w ⟨cnt, elLongest d v w, any⟩
                  let x := elIssue d e v w ent reads
                  stMod x.1 e (fun v => { v with look := some ⟨w, ent, pos, reads, x.2, [], []⟩ })))

/-- E_LOOKUP. -/
def execELookup (inst : Nat) (s : State) : Host.Outcome State Fault Refusal := runDev (eLookupDev inst) s

/-! ### Pooling (R175) -/

/-- The decoded row of a read (R63, R64). -/
def elDecode (e bs : List Byte) : List Nat × Nat :=
  let n := ceDim e
  let st := ceStride e
  let side := if st + 16 ≤ bs.length then some ((bs.drop st).take 16) else none
  rowDecode (ceFour e) (fld bs 0 8) ((bs.drop 8).take (if ceFour e then n / 2 else n)) side n

/-- The pooled FP32 value of a column: `cs` are its contributions with their weights, pad positions left out. For MEAN it
is the sum. -/
def elPoolCol (pool : Nat) (cs : List (Nat × Nat)) : Flagged :=
  if pool = 2 then
    match cs with
    | [] => (0, 0)
    | c :: t => t.foldl (fun a x => fl2 maxF a (fl0 x.1)) (maxF c.1 c.1, stepFlags [c.1] c.1)
  else if pool = 3 then (match cs with
    | [] => (0, 0)
    | c :: _ => (c.1, 0))
  else if pool = 4 then cs.foldl (fun a x => fl3 fmaF (fl0 x.2) (fl0 x.1) a) (0, 0)
  else cs.foldl (fun a x => fl2 addF a (fl0 x.1)) (0, 0)

/-- The value written (Table 6-7, R175): the pooled accumulator leaves for the output type once under EL_NUM_MODE, FP32
included (R43, R44); MEAN divides, and rounds to odd where it is narrowed again. -/
def elWrite (pool et m hash cnt : Nat) (x : Flagged) : Flagged :=
  if pool = 1 then
    if cnt = 0 then (0, x.2)
    else
      let r := narrowVia fp32 (etFmt et) m hash (fvDiv (fDecode fp32 x.1) (fvInt cnt))
      (r.1, r.2 ||| x.2 ||| (if finF x.1 then 0 else fNfIn))
  else
    let r := leaveAcc (etFmt et) m hash (fDecode fp32 x.1)
    (r.1, r.2 ||| x.2)

/-- The view rows that an execution writes: its bags, with the leading pad rows before bag 0 and the trailing ones behind
the last bag when TD_PAD_STORE = 1. -/
def elRows (t : Td) (bags : List Nat) (b : Nat) : List Nat :=
  let lo := nth t.padLo 1
  let lead := if t.padStore ∧ bags.head? = some 0 then List.range lo else []
  let trail := if t.padStore ∧ bags.getLast? = some (b - 1) ∧ bags ≠ [] then (List.range (nth t.padHi 1)).map (· + lo + b) else []
  lead ++ bags.map (· + lo) ++ trail

/-- What a lookup writes once its rows are there (R175): view positions and values; the flags of the decodes and of the
values written. -/
def elOutputs (d : Dev) (v : Stream) (l : Look) : List (List Int × Nat) × Nat :=
  let w := l.word
  let t := elTd v (elOut w)
  let dec : List (Nat × (List Nat × Nat)) := l.got.map (fun g => (g.1, elDecode l.entry g.2))
  let row := fun r => ((dec.find? (fun x => x.1 == r)).map (·.2)).getD ([], 0)
  let wt := fun (n : Nat) => if elPool w = 4 then tdRead d v.rbuf (elTd v (elWgt w)) [(n : Int)] else 0
  let m := elMode w
  let bagPos := fun b => l.pos.filter (fun p => p.1 == b && p.2.2 != 0)
  let vals := fun p : Nat × Nat × Nat => if p.2.2 = 1 then [] else (row (p.2.2 - 2)).1
  let items : List (List Int × Flagged) := (elRows t (elBags v w) (elB v w)).flatMap (fun vr =>
    let b := vr - nth t.padLo 1
    let ps := if vr < nth t.padLo 1 then [] else (bagPos b).map (fun p => (vals p, wt p.2.1))
    (List.range (nth t.ext 0)).map (fun (vc : Nat) =>
      let j := vc - nth t.padLo 0
      let i : List Int := [(vc : Int), (vr : Int)]
      let hash := if modeStoch m then tdHash d.seed.toNat (param64 v 54) t i else 0
      (i, elWrite (elPool w) t.etype m hash ps.length (elPoolCol (elPool w) (ps.map (fun p => (nth p.1 j, p.2)))))))
  let items := if t.padStore then items else items.filter (fun x => !tdPad t x.1)
  (items.map (fun x => (x.1, x.2.1)), dec.foldl (fun a x => a ||| x.2.2) (itemFlags t items))

/-- E_LOOKUP_ROWS_ARRIVED (R177 to R179): with every row there, `mm` mismatches apart, the outputs are written. -/
def eRowsDev (inst mm : Nat) (o : Otp) (d : Dev) : Dev :=
  let e := ek 3 inst
  match stGet d e with
  | none => d
  | some v =>
    match v.look with
    | none => d
    | some l =>
      let t := elTd v (elOut l.word)
      if l.need ≠ [] then d
      else if ownPending v (tdSpan t ((elOutputs d v l).1.map (·.1))) then d
      else laneRun o d e none mm (fun d =>
        let x := elOutputs d v l
        let d := stMod (stFlags d e x.2) e (fun v => { v with look := none })
        slotWrote (tdWrite d t x.1 (.stream e)) e)

/-- E_LOOKUP_ROWS_ARRIVED. -/
def execELookupRowsArrived (inst mm : Nat) (s : State) : Host.Outcome State Fault Refusal := runDev (eRowsDev inst mm) s

/-! ### Commands (R166, R167, R185, R186) -/

/-- The side that DC_CAT_SWITCH would make active, and the status of its checks. -/
def switchTarget (c : CatTable) (g : Nat) : Nat :=
  if c.active < 2 then
    (if catSide c (1 - c.active) = [] then stCatNone else if catGen c (1 - c.active) = g then stOk else stCatGen)
  else if c.a = [] ∧ c.b = [] then stCatNone
  else if (catByGen c g).isSome then stOk else stCatGen

/-- The front end dispatches the next command of queue `q`, of opcode `op`, and carries it out in the same act: so the
commands on the Catalog are performed one at a time, in dispatch order across all queues (R167). -/
def onDispatch (d : Dev) (q op : Nat) (f : Dev → Queue → Running → Dev) : Dev :=
  if nextQueue d ≠ some q then d
  else match qGet d q with
    | none => d
    | some v => match v.parsed with
      | [] => d
      | c :: rest => if c.op = op ∧ cmdWait d v c = 1 then onFresh (dispatchHead d q v c rest) q (· == op) f else d

/-- DC_CAT_SWITCH (R166). -/
def dcCatSwitchDev (q : Nat) (_o : Otp) (d : Dev) : Dev :=
  onDispatch d q 0x22 (fun d _ r =>
    let b := r.cmd.body
    let sq := r.cmd.cseq.toNat
    let t := fld b 0 2 % 4096
    let d := catUse d t
    let step := fld b 8 8
    if step = 2 ^ 64 - 1 then cmdFinal (catMod d t (fun c => { c with armed := none })) q sq stOk 0
    else
      let st := switchTarget (catGet d t) (fld b 2 2)
      if st ≠ stOk then cmdFinal d q sq st 0
      else if step ≤ d.catLastStep then cmdFinal d q sq stCatLate 0
      else cmdFinal (catMod d t (fun c => { c with armed := some (step, fld b 2 2) })) q sq stOk 0)

/-- DC_CAT_SWITCH. -/
def execDcCatSwitch (q : Nat) (s : State) : Host.Outcome State Fault Refusal := runDev (dcCatSwitchDev q) s

/-- An armed switch takes effect (R167): the side with its generation becomes active. -/
def takeSwitch (step : Nat) (c : CatTable) : CatTable :=
  match c.armed with
  | some (t, g) =>
    if t ≤ step then { c with active := (catByGen c g).getD c.active, armed := none } else c
  | none => c

/-- What a bind records (R167). -/
def bindSides (d : Dev) : SMap (Option (Nat × Nat)) :=
  d.tables.filterMap (fun p => if p.2.active < 2 then some (p.1, some (p.2.active, catGen p.2 p.2.active)) else none)

/-- DC_EMB_BIND (R167). -/
def dcEmbBindDev (q : Nat) (_o : Otp) (d : Dev) : Dev :=
  onDispatch d q 0x20 (fun d v r =>
    let d := (d.int.injects.map (·.index)).foldl catUse d
    let step := fld r.cmd.body 8 8
    let sq := r.cmd.cseq.toNat
    let key := v.owner * 16 + fld r.cmd.body 0 1 % 16
    let rcd := fun d : Dev => { d with binds := smSet bind0 d.binds key ⟨true, step, bindSides d⟩ }
    if v.owner ≠ 0 then cmdFinal (rcd d) q sq stOk 0
    else if step < d.catLastStep then cmdFinal d q sq stEmbStep 0
    else
      let d := { d with tables := d.tables.map (fun p => (p.1, takeSwitch step p.2)), catLastStep := step }
      cmdFinal (rcd d) q sq stOk 0)

/-- DC_EMB_BIND. -/
def execDcEmbBind (q : Nat) (s : State) : Host.Outcome State Fault Refusal := runDev (dcEmbBindDev q) s

/-- Operation `n` of an HRD list. -/
def hrdOp (d : Dev) (list n : Nat) : Nat := memNat d (localOf list + 16 * n) 16

/-- Side, table and row of an operation. -/
def hoSide (x : Nat) : Nat := bits x 52 1
/-- Table of an operation. -/
def hoTable (x : Nat) : Nat := bits x 40 12
/-- Row of an operation. -/
def hoRow (x : Nat) : Nat := bits x 0 40

/-- One removal; the counts are removed and absent. -/
def hrdRemoveOp (acc : Dev × Nat × Nat) (x : Nat) : Dev × Nat × Nat :=
  let d := hrdUse acc.1 (hoTable x) (hoSide x) (hoRow x)
  match hrdFind d (hoTable x) (hoSide x) (hoRow x) with
  | some y => (hrdRemove d (fun k _ => k == y.1), acc.2.1 + 1, acc.2.2)
  | none => (d, acc.2.1, acc.2.2 + 1)

/-- DC_HRD_WRITE (R185): the checks, and every removal in list order. A row read is served in one act, so none that
consulted a removed entry is outstanding. -/
def dcHrdWriteDev (q : Nat) (_o : Otp) (d : Dev) : Dev :=
  onFresh d q (· == 0x21) (fun d _ r =>
    let b := r.cmd.body
    let sq := r.cmd.cseq.toNat
    let list := fld b 0 8
    let n := fld b 8 4
    let res := fld b 16 8
    if !(isMul list 16 && isMul res 32 && isOwn d list && isOwn d res && decide (1 ≤ n ∧ n ≤ 2 ^ 20)) then
      cmdFinal d q sq stHrdList 0
    else if !(mapped d (localOf list) (16 * n) && mapped d (localOf res) 32) then cmdFinal d q sq stAddrUnmapped 0
    else
      let ops := (List.range n).map (hrdOp d list)
      let x := (ops.filter (fun x => bits x 56 2 == 2)).foldl hrdRemoveOp (d, 0, 0)
      runMod x.1 q sq (fun r => { r with work := [x.2.1, x.2.2] }))

/-- DC_HRD_WRITE. -/
def execDcHrdWrite (q : Nat) (s : State) : Host.Outcome State Fault Refusal := runDev (dcHrdWriteDev q) s

/-- The slot of an insert breaks R183. -/
def hrdSlotBad (d : Dev) (x stride : Nat) : Bool :=
  let rg := hrdRegion d x
  decide (rg.1 + rg.2 < hrdSlot d x + stride)

/-- Counts of an insert stage: inserted, present, full, bad. -/
abbrev HrdCounts := Nat × Nat × Nat × Nat

/-- One insert (R186): the row's home bytes are copied to the slot and the entry becomes valid in a free way. Where its slot
overlaps that of another valid entry, the bytes that both have are undefined (R18): of either row. -/
def hrdInsertOp (acc : Dev × HrdCounts) (x : Nat) : Dev × HrdCounts :=
  let c := acc.2
  let t := hoTable x
  let s := hoSide x
  let row := hoRow x
  let d := hrdUse (catUse acc.1 t) t s row
  let e := catSide (catGet d t) s
  let ent := hrdKey t s row + bits x 94 1 * 2 ^ 30 + bits x 93 1 * 2 ^ 29 + bits x 64 29
  if e = [] || !decide (row < ceRows e) || ceOwner d e row != ownCoord d || hrdSlotBad d ent (ceStride e) then
    (d, c.1, c.2.1, c.2.2.1, c.2.2.2 + 1)
  else if (hrdFind d t s row).isSome then (d, c.1, c.2.1 + 1, c.2.2.1, c.2.2.2)
  else match (List.range 8).find? (fun w => smGet 0 d.hrd (hrdSet t s row * 8 + w) == 0) with
    | none => (d, c.1, c.2.1, c.2.2.1 + 1, c.2.2.2)
    | some w =>
      let slot := hrdSlot d ent
      let common := (d.hrd.map (fun y =>
        let a := hrdSlot d y.2
        let n := ceStride (catSide (catGet d (bits y.2 50 12)) (bits y.2 62 1))
        (max a slot, min (a + n) (slot + ceStride e) - max a slot))).filter (fun r => r.2 != 0)
      let new := copyLocal d (rowHome e (cePlace e row).2) slot (ceStride e)
      let d := common.foldl (fun acc r => memMix acc r.1 r.2 [memRead d r.1 r.2]) new
      ({ d with hrd := smSet 0 d.hrd (hrdSet t s row * 8 + w) ent }, c.1 + 1, c.2.1, c.2.2.1, c.2.2.2)

/-- HRD_INSERT_STAGE (R185, R186): every insert in list order, then the result record. -/
def hrdInsertStageDev (q : Nat) (_o : Otp) (d : Dev) : Dev :=
  onActive d q (fun r => r.cmd.op == 0x21 && r.started) (fun d _ r =>
    let b := r.cmd.body
    let ops := (List.range (fld b 8 4)).map (hrdOp d (fld b 0 8))
    let bad := (ops.filter (fun x => bits x 56 2 == 0 || bits x 56 2 == 3)).length
    let x := (ops.filter (fun x => bits x 56 2 == 1)).foldl hrdInsertOp (d, 0, 0, 0, 0)
    let rec' := natLe 4 x.2.1 ++ natLe 4 (nth r.work 0) ++ natLe 4 (nth r.work 1) ++ natLe 4 x.2.2.1 ++ natLe 4 x.2.2.2.1 ++
      natLe 4 (x.2.2.2.2 + bad) ++ zeros 4
    cmdFinal (memWrite x.1 (localOf (fld b 16 8)) (sealRec rec')) q r.cmd.cseq.toNat stOk 0)

/-- HRD_INSERT_STAGE. -/
def execHrdInsertStage (q : Nat) (s : State) : Host.Outcome State Fault Refusal := runDev (hrdInsertStageDev q) s

/-! ### Messages (Table 6-15) -/

/-- Messages that only the physical function may send. -/
def catPf (ch : Nat) (d : Dev) (r : DzRes) : DzRes := dzPf ch d stCatDenied r

/-- A schedule is defined (R288). -/
def schedDefined (d : Dev) (n : Nat) : Bool := smGet [] d.scheds n != []

/-- Form of an entry (R163, R209), its CRC first. -/
def catForm (d : Dev) (e : List Byte) : Bool :=
  let n := ceDim e
  let p := boxSize (ceOwnExt e)
  let fl := fld e 67 1
  let sz := cuStateSize e
  sealOk 128 e && isMul (ceBase e) 32 && decide (1 ≤ ceRows e ∧ ceRows e ≤ 2 ^ 40) && isMul (ceSideBase e) 16 &&
    decide (ceSideCount e < 2 ^ 28) && isMul n 16 && decide (16 ≤ n ∧ n ≤ 1024) && isMul (ceStride e) 32 &&
    decide (8 + (if ceFour e then n / 2 else n) ≤ ceStride e) && decide (fld e 36 1 < 2) && decide (ceOor e < 3) &&
    decide (ceDist e < 2) && zeroAt e 39 1 && decide (ceOwnBase e < 2 ^ 20) && decide (ceOwnExt e < 2 ^ 20) &&
    (if ceDist e = 0 then decide (ceRowsPer e ≠ 0) && decide (ceRows e ≤ p * ceRowsPer e) else ceRowsPer e == 0) &&
    zeroAt e 58 6 && zeroAt e 112 12 && boxFits d (ceOwnBase e) (ceOwnExt e) &&
    decide (cuRule e < 4) && decide (fld e 65 1 < 2) && modeOk (cuMode e) && decide (fl < 8) && cuSfmt e != 3 &&
    decide (cuSched e < 16) && zeroAt e 86 2 && (cuRule e == 0 || schedDefined d (cuSched e)) &&
    (cuHasMaster e || cuRule e == 0 || modeStoch (cuMode e)) && (cuSfmt e == 0 || cuRule e == 3) &&
    (cuSfmt e != 2 || isMul n 64) &&
    (if sz = 0 then cuStateBase e == 0 && cuStateStride e == 0
     else isMul (cuStateStride e) 16 && decide (sz ≤ cuStateStride e) && isMul (cuStateBase e) 16) &&
    (if cuHasMaster e then isMul (cuMasterStride e) 32 && decide (4 * n ≤ cuMasterStride e) && isMul (cuMasterBase e) 32
     else cuMasterBase e == 0 && cuMasterStride e == 0) &&
    [ceBase e, ceSideBase e, cuStateBase e, cuMasterBase e].all (fun a => decide (a < 2 ^ 44)) &&
    ((ceOwnIndex d e).isNone || d.pairs.all (fun p => p.2.je == 0 || decide (cuPreimage e ≤ p.2.je)))

/-- The owner's footprint is mapped (R163, R209). -/
def catMapped (d : Dev) (e : List Byte) : Bool :=
  (ceOwnIndex d e).isNone ||
    (let n := ceLocalRows e
     mapped d (ceBase e) (n * ceStride e) && mapped d (ceSideBase e) (16 * ceSideCount e) &&
       mapped d (cuStateBase e) (n * cuStateStride e) && mapped d (cuMasterBase e) (n * cuMasterStride e))

/-- A side may not change (R165). -/
def catBusy (d : Dev) (t s : Nat) : Bool :=
  let c := catGet d t
  let g := catGen c s
  c.active == s || (match c.armed with
    | some (_, ag) => g != 0 && ag == g
    | none => false) ||
  d.bindsInUse.any (fun u => u.2 != 0 && (match smGet none (smGet bind0 d.binds u.1).sides t with
    | some (bs, bg) => bs == s && g != 0 && bg == g
    | none => false))

/-- Replace a side. -/
def catPut (d : Dev) (t s : Nat) (e : List Byte) : Dev :=
  catMod (hrdClearSide d t s) t (fun c => if s = 0 then { c with a := e } else { c with b := e })

/-- DZ_CAT_WRITE (R163, R165). -/
def hCatWrite (ch : Nat) (p : List Byte) (_o : Otp) (d : Dev) : DzRes :=
  let t := fld p 0 2
  let s := fld p 2 1
  let e := (p.drop 8).take 128
  catPf ch d <| dzNeed d (decide (t < 4096) && decide (s < 2) && zeroAt p 3 5 && catForm d e) stCatEntry <|
    dzNeed d (catMapped d e) stAddrUnmapped <|
    dzNeed d (ceGen e != 0 && ceGen e != catGen (catGet d t) (1 - s)) stCatGen <|
    dzNeed d (!catBusy d t s) stCatBusy <| dzOk (catPut d t s e) []

/-- DZ_CAT_READ. -/
def hCatRead (_ch : Nat) (p : List Byte) (_o : Otp) (d : Dev) : DzRes :=
  dzNeed d (decide (fld p 0 2 < 4096) && decide (fld p 2 1 < 2) && zeroAt p 3 5) stCatEntry <|
    let d := catUse d (fld p 0 2)
    let e := catSide (catGet d (fld p 0 2)) (fld p 2 1)
    dzOk d (padTo 128 e ++ natLe 1 (e == []).toNat ++ zeros 7)

/-- DZ_CAT_CLEAR (R165). -/
def hCatClear (ch : Nat) (p : List Byte) (_o : Otp) (d : Dev) : DzRes :=
  let t := fld p 0 2
  let s := fld p 2 1
  catPf ch d <| dzNeed d (decide (t < 4096) && decide (s < 2) && zeroAt p 3 5) stCatEntry <|
    dzNeed d (!catBusy d t s) stCatBusy <| dzOk (catPut d t s []) []

/-- DZ_CAT_QUERY. -/
def hCatQuery (_ch : Nat) (p : List Byte) (_o : Otp) (d : Dev) : DzRes :=
  dzNeed d (decide (fld p 0 2 < 4096) && zeroAt p 2 6) stCatEntry <|
    let d := catUse d (fld p 0 2)
    let c := catGet d (fld p 0 2)
    dzOk d (natLe 1 (if c.active < 2 then c.active else 0xFF) ++ natLe 1 (c.armed.isSome.toNat + 2 * c.zeroSat.toNat) ++
      natLe 2 (catGen c 0) ++ natLe 2 (catGen c 1) ++ natLe 2 ((c.armed.map (·.2)).getD 0) ++
      natLe 8 ((c.armed.map (·.1)).getD 0) ++ natLe 4 c.zeroHits ++ zeros 4 ++ natLe 8 d.catLastStep)

/-- DZ_CAT_ZERO_CLEAR (R171). -/
def hCatZeroClear (ch : Nat) (p : List Byte) (_o : Otp) (d : Dev) : DzRes :=
  catPf ch d <| dzNeed d (decide (fld p 0 2 < 4096) && zeroAt p 2 6) stCatEntry <|
    dzOk (catMod d (fld p 0 2) (fun c => { c with zeroHits := 0, zeroSat := false })) []

/-- DZ_HRD_REGION (R183). -/
def hHrdRegion (ch : Nat) (p : List Byte) (_o : Otp) (d : Dev) : DzRes :=
  let die := fld p 0 1
  let tier := fld p 1 1
  let base := fld p 8 8
  let size := fld p 16 8
  let k := die * 2 + tier
  catPf ch d <| dzNeed d (decide (die < 2) && decide (tier < 2) && zeroAt p 2 6) stCatEntry <|
    dzNeed d (isMul base 32 && isMul size 32 && decide (size ≤ 2 ^ 34) && inMem d (if tier = 0 then die else 2 + die) base size)
      stHrdRegion <|
    dzNeed d (!d.hrd.any (fun x => bits x.2 29 1 * 2 + bits x.2 30 1 == k)) stHrdBusy <|
    dzOk { d with hrdRegions := smSet (0, 0) d.hrdRegions k (base, size) } []

/-- DZ_HRD_READ. -/
def hHrdRead (_ch : Nat) (p : List Byte) (_o : Otp) (d : Dev) : DzRes :=
  dzNeed d (decide (fld p 0 4 < 2 ^ 21) && zeroAt p 4 4) stCatEntry <|
    let d := (List.range 8).foldl (fun d w => (ctlUse d 1 (fld p 0 4 * 8 + w)).1) d
    dzOk d ((List.range 8).flatMap (fun w => natLe 8 (smGet 0 d.hrd (fld p 0 4 * 8 + w))))

/-- DZ_HRD_CLEAR: the drain of R185 ends at once, since a row read is served in one act. -/
def hHrdClear (ch : Nat) (p : List Byte) (_o : Otp) (d : Dev) : DzRes :=
  let n := fld p 0 1
  catPf ch d <| dzNeed d (decide (n < 3) && zeroAt p 1 7) stCatEntry <|
    dzOk (hrdRemove d (fun k _ => n == 2 || bits (k / 8) 20 1 == n)) []

/-- DZ_EMB_COUNTERS. -/
def hEmbCounters (_ch : Nat) (p : List Byte) (o : Otp) (d : Dev) : DzRes :=
  let n := fld p 0 1
  let k := kEng (ek 3 n)
  dzNeed d (zeroAt p 1 7) stCatEntry <| dzNeed d (present o 3 n) stEngineAbsent <|
    dzOk d (pcBytes d (k + 3) ++ pcBytes d (k + 4) ++ pcBytes d (k + 5) ++ pcBytes d (k + 6) ++
      natLe 8 (smGet 0 d.rangePos n) ++ natLe 1 (pcOvf d (k + 3) 4))

end Sys2Proof.Machine
end

