-- ==== Sys2Proof/Machine/Sched.lean ====
section
/-!
DEFINITION. Learning-rate schedules (R288, R289) and the momentum formats that rows and dense tiles share (R71, R208,
Table 10-2).
-/

namespace Sys2Proof.Machine

/-- Segment `i` of a schedule. -/
def segAt (s : List Byte) (i : Nat) : List Byte := (s.drop (32 * i)).take 32

/-- The segment with the largest start not above `step`. -/
def segFor (s : List Byte) (step : Nat) : List Byte :=
  (((List.range (s.length / 32)).map (segAt s)).filter (fun g => decide (fld g 0 8 ≤ step))).getLast?.getD []

/-- The segment rules of R288. -/
def segOk (g : List Byte) : Bool :=
  decide (fld g 24 1 < 4) && zeroAt g 25 7 && (fld g 24 1 == 0 || decide (1 ≤ fld g 8 8 ∧ fld g 8 8 < 2 ^ 53))

/-- The form of a schedule of `n` segments (R288). -/
def schedOk (s : List Byte) (n : Nat) : Bool :=
  decide (1 ≤ n ∧ n ≤ 64) && s.length == 32 * n && (List.range n).all (fun i => segOk (segAt s i)) && fld s 0 8 == 0 &&
    (List.range (n - 1)).all (fun i => decide (fld (segAt s i) 0 8 < fld (segAt s (i + 1)) 0 8))

/-- The correctly rounded FP64 quotient of two integers. -/
def quotD (a b : Nat) : Nat := fEnc fp64 (fvDiv (fvInt a) (fvInt b))

/-- The rate of a segment in FP64 (R289). -/
def segRate (g : List Byte) (step : Nat) : Nat :=
  let n := fld g 8 8
  let t := step - fld g 0 8
  let a := f32to64 (fld g 16 4)
  let b := f32to64 (fld g 20 4)
  let x := quotD (min t n) n
  match fld g 24 1 with
  | 0 => a
  | 1 => addD a (mulD (subD b a) x)
  | 2 => addD b (mulD (subD a b) (mulD (quotD 1 2) (addD (ofIntD 1) (cospi64 x))))
  | _ => mulD a (sqrtD (quotD n (max t n)))

/-- `lr(sched, S)` (R289): rounded once to FP32. -/
def schedRate (d : Dev) (n step : Nat) : Nat := f64to32 (segRate (segFor (smGet [] d.scheds n) step) step)

/-- Read momentum (R211, R284): `fmt` 0 FP32, 1 BF16, 2 INT8B64 with codes first and one scale per 64 elements. `total` is the
number of elements of the array, `j` the element. -/
def momRead (fmt total : Nat) (st : List Byte) (j : Nat) : Nat :=
  if fmt = 0 then fld st (4 * j) 4
  else if fmt = 1 then bf16to32 (fld st (2 * j) 2)
  else blockDecode (fld st j 1) (fld st (total + 4 * (j / 64)) 4)

/-- Write the momentum of elements of one run: FP32 as it is, BF16 narrowed under the mode, INT8B64 by R71 per block of 64.
The codes and the scales are returned apart, with the flags. -/
def momWrite (fmt m : Nat) (hash : Nat → Nat) (xs : List Nat) : List Byte × List Byte × Nat :=
  if fmt = 0 then (xs.flatMap (natLe 4), [], 0)
  else if fmt = 1 then
    let r := (List.range xs.length).map (fun j =>
      let x := readOp fp32 m (nth xs j)
      let y := narrow bf16 m (hash j) x.1
      (y.1, y.2 ||| x.2))
    (r.flatMap (fun x => natLe 2 x.1), [], r.foldl (fun a x => a ||| x.2) 0)
  else
    let r := (List.range (ceilDiv xs.length 64)).map (fun b =>
      blockEncode m (fun j => hash (64 * b + j)) ((xs.drop (64 * b)).take 64))
    (r.flatMap (fun x => x.1.map (BitVec.ofNat 8)), r.flatMap (fun x => natLe 4 x.2.1), r.foldl (fun a x => a ||| x.2.2) 0)

end Sys2Proof.Machine
end

