-- ==== Sys2Proof/Machine/Sparse.lean ====
section
/-!
DEFINITION. Sparse gradients and row updates (chapter 7): the combiner and E_ACCUM, DC_ROUTE_ROWS with its merged-row
fragments (R200 to R202, R404 to R406), pending updates (R205 to R207), the apply of rows (R210 to R219) and the messages of
Table 7-8.
-/

namespace Sys2Proof.Machine

/-! ### The combiner (R191 to R199) -/

/-- Combiner of EBE `n`. -/
def combGet (d : Dev) (n : Nat) : Combiner := smGet comb0 d.combs n
/-- Replace it. -/
def combSet (d : Dev) (n : Nat) (c : Combiner) : Dev := { d with combs := smSet comb0 d.combs n c }
/-- Bytes of a record of `n` columns (R200). -/
def recBytes (n : Nat) : Nat := 32 + 8 * n
/-- Bytes that records use. -/
def recsUsed (l : List MRow) : Nat := (l.map (fun r => recBytes r.cols.length)).foldl (· + ·) 0

/-- The 32-byte head of a record (Table 7-2). -/
def recHead (r : MRow) : List Byte :=
  natLe 8 (mrKey r.table r.row) ++ natLe 4 r.count ++ natLe 2 r.gen ++ natLe 1 r.flags ++ [0] ++ natLe 8 r.step ++ zeros 8

/-- Columns as they follow a head. -/
def recCols (cols : List (Nat × Nat)) : List Byte := cols.flatMap (fun c => natLe 4 c.1 ++ natLe 4 c.2)

/-- A record in full, or the columns given. -/
def recPack (r : MRow) (cols : List (Nat × Nat)) : List Byte := recHead r ++ recCols cols

/-- The records of an area from `a` on (R200), in order and packed (DESIGN CHOICE, log 67): those that differ from what stood
before are written. -/
def recsPut (d : Dev) (a : Nat) : List MRow → List MRow → Dev
  | _, [] => d
  | old, r :: t =>
    recsPut (if old.head? = some r then d else memWrite d a (recPack r r.cols)) (a + recBytes r.cols.length) old.tail t

/-- A combiner's records, after an E_ACCUM, in its areas. -/
def combPut (d : Dev) (old c : Combiner) : Dev :=
  recsPut (recsPut d c.areaBase old.keys c.keys) c.spillBase old.spills c.spills

/-- The combiner of EBE `n` is read (R413). -/
def combUse (d : Dev) (n : Nat) : Dev := (ctlUse d 2 n).1

/-- A count with one added (R196): count, flags of the record, numeric flags. -/
def countAdd (cnt rfl n : Nat) : Nat × Nat × Nat :=
  if cnt + n < 2 ^ 32 then (cnt + n, rfl, 0) else (2 ^ 32 - 1, rfl ||| 2, fSatI)

/-- What a fold of contributions has done: the combiner, numeric flags, keys added, contributions, spill records, and
whether a spill record did not fit. -/
structure Fold where
  comb : Combiner
  fl : Nat
  added : Nat
  contrib : Nat
  spilled : Nat
  full : Bool
  deriving DecidableEq, Repr

/-- A record with a contribution added to every column (R194 to R196). -/
def recAdd (r : MRow) (xs : List Nat) : MRow × Nat :=
  let cs := (List.range xs.length).map (fun j => accAddFl (r.cols.getD j (0, 0), 0) (nth xs j))
  let k := countAdd r.count r.flags 1
  ({ r with count := k.1, flags := k.2.1, cols := cs.map (·.1) }, cs.foldl (fun a c => a ||| c.2) k.2.2)

/-- One contribution of a row (R198). -/
def foldOne (t gen : Nat) (f : Fold) (row : Nat) (xs : List Nat) : Fold :=
  if f.full then f
  else
    let c := f.comb
    let f := { f with contrib := f.contrib + 1 }
    match c.keys.findIdx? (fun r => r.table == t && r.row == row) with
    | some i =>
      let r := recAdd (c.keys.getD i ⟨t, row, 0, gen, 0, c.step, []⟩) xs
      { f with comb := { c with keys := setAt c.keys i r.1 }, fl := f.fl ||| r.2 }
    | none =>
      let need := recBytes xs.length
      if c.keys.length < 1048576 ∧ recsUsed c.keys + need ≤ c.areaSize then
        let r := recAdd ⟨t, row, 0, gen, 0, c.step, xs.map (fun _ => (0, 0))⟩ xs
        { f with comb := { c with keys := c.keys ++ [r.1] }, fl := f.fl ||| r.2, added := f.added + 1 }
      else if recsUsed c.spills + need ≤ c.spillSize then
        { f with comb := { c with spills := c.spills ++ [⟨t, row, 1, gen, 1, c.step, xs.map (fun x => (x, 0))⟩], spilled := true },
                 spilled := f.spilled + 1 }
      else { f with comb := { c with state := 2 }, full := true, contrib := f.contrib - 1 }

/-- γ(b, j) widened to FP32. -/
def eaGrad (d : Dev) (v : Stream) (w b j : Nat) : Nat :=
  let t := elTd v (elOut w)
  widen32 t.etype (tdRead d v.rbuf t [((nth t.padLo 0 + j : Nat) : Int), ((nth t.padLo 1 + b : Nat) : Int)])

/-- The contribution of a position to every column (R194), with flags: `m` is the divisor of MEAN. -/
def eaVals (d : Dev) (v : Stream) (w b n m dim : Nat) : List Flagged :=
  let wt := if elPool w = 4 then tdRead d v.rbuf (elTd v (elWgt w)) [(n : Int)] else 0
  (List.range dim).map (fun j =>
    let g := fl0 (eaGrad d v w b j)
    if elPool w = 1 then divIntF g m else if elPool w = 4 then fl2 mulF (fl0 wt) g else g)

/-- The gradient bytes that positions read. -/
def eaRanges (v : Stream) (w : Nat) (bags : List Nat) : List (Nat × Nat) :=
  let t := elTd v (elOut w)
  tdRanges t (bags.flatMap (fun b => (List.range (tdData t 0)).map (fun j =>
    [((nth t.padLo 0 + j : Nat) : Int), ((nth t.padLo 1 + b : Nat) : Int)])))

/-- Fold the classified positions of an execution. -/
def eaFold (d : Dev) (v : Stream) (w gen dim : Nat) (c : Combiner) (pos : List (Nat × Nat × Nat)) : Fold :=
  let cnt := fun b => (pos.filter (fun p => p.1 == b && p.2.2 != 0)).length
  (pos.filter (fun p => decide (2 ≤ p.2.2))).foldl (fun f p =>
    let xs := eaVals d v w p.1 p.2.1 (cnt p.1) dim
    let f := foldOne (elTable w) gen f (p.2.2 - 2) (xs.map (·.1))
    if f.full then f else { f with fl := xs.foldl (fun a x => a ||| x.2) f.fl }) ⟨c, 0, 0, 0, 0, false⟩

/-- E_ACCUM (R192 to R199, R221). -/
def eAccumDev (inst mm : Nat) (o : Otp) (d : Dev) : Dev :=
  let e := ek 3 inst
  onSlot o d e (isEbe 0x30) (fun d v s =>
    let w := s.w
    let d := combUse d inst
    let c := combGet d inst
    let step := (smGet bind0 d.binds (elBindKey v w)).step
    if v.fn ≠ 0 then stFault d e stRrResource
    else if !(elBindings w).all (fun b => (stTd v b).isSome) then stFault d e stSpUnbound
    else
      let d := elMarkBind d e v w
      let st := firstBad (elChecks d v w ++ [(c.state == 0 || c.step == step, stCombStep)])
      if st ≠ stOk then stFault d e st
      else
        let ent := elEntry d v w
        slotNeed d e v (elOfsRanges v w) <|
          let ps := elPositions d v w
          slotNeed d e v (elRanges v (elIdx w) ps ++ (if elPool w = 4 then elRanges v (elWgt w) ps else []) ++
              eaRanges v w (ps.map (·.1)).eraseDups) <|
            elClassify d e v w ent (fun d pos _ => laneRun o d e none mm (fun d =>
              let frozen := cuRule ent == 0
              let c0 := if frozen || c.state != 0 then c else { c with state := 1, step := step }
              let f := eaFold d v w (ceGen ent) (ceDim ent) c0 (if frozen then [] else pos)
              let d := combPut (combSet d inst f.comb) c f.comb
              let d := pcAdd (pcAdd (stFlags d e f.fl) (kEng e + 7) f.contrib) (kEng e + 8) f.spilled
              if f.full then stFault d e stCombFull
              else slotDone (elSummary d e w ⟨f.added, f.comb.keys.length, f.comb.spilled⟩) e)))

/-- E_ACCUM. -/
def execEAccum (inst mm : Nat) (s : State) : Host.Outcome State Fault Refusal := runDev (eAccumDev inst mm) s

/-! ### Records and fragments (R200, R404) -/

/-- The record that a payload of `n` columns holds. -/
def recParse (b : List Byte) (n : Nat) : MRow :=
  { table := bits (fld b 0 8) 40 12, row := fld b 0 8 % 2 ^ 40, count := fld b 8 4, gen := fld b 12 2, flags := fld b 14 1,
    step := fld b 16 8, cols := (List.range n).map (fun j => (fld b (32 + 8 * j) 4, fld b (36 + 8 * j) 4)) }

/-- The fragments of a record: first column and columns, 124 at a time. -/
def recFrags (r : MRow) : List (Nat × List (Nat × Nat)) :=
  (List.range (ceilDiv r.cols.length 124)).map (fun f => (124 * f, (r.cols.drop (124 * f)).take 124))

/-! ### Pending updates (R205 to R207) -/

/-- PUB bytes that a pair's entries use. -/
def pubUsed (p : Pair) : Nat :=
  ((p.entries.flatMap (·.parts)).map (fun x => 64 + 8 * x.2.2.cols.length)).foldl (· + ·) 0

/-- The key that an entry stands for. -/
def pubKey (e : PubEntry) : Nat × Nat × Nat × Nat :=
  match e.parts with
  | p :: _ => (p.2.2.table, p.2.2.row, p.2.2.gen, p.2.2.step)
  | [] => (0, 0, 0, 0)

/-- Replace columns from `first` on. -/
def colsPut (l : List (Nat × Nat)) (first : Nat) (new : List (Nat × Nat)) : List (Nat × Nat) :=
  l.take first ++ new ++ l.drop (first + new.length)

/-- A part takes a fragment (R201, R404): columns that it lacks are stored, others merged; counts and flags come with the
fragment of first column 0. -/
def partTake (p : Nat × List Nat × MRow) (first : Nat) (r : MRow) : (Nat × List Nat × MRow) × Nat :=
  let q := p.2.2
  let has := p.2.1.contains first
  let ms := (List.range r.cols.length).map (fun j => accMergeFl (q.cols.getD (first + j) (0, 0)) (r.cols.getD j (0, 0)))
  let cols := if has then ms.map (·.1) else r.cols
  let fl := if has then ms.foldl (fun a m => a ||| m.2) 0 else 0
  let k := if first = 0 then countAdd q.count (q.flags ||| r.flags) r.count else (q.count, q.flags, 0)
  ((p.1, if has then p.2.1 else p.2.1 ++ [first],
    { q with count := k.1, flags := k.2.1, cols := colsPut q.cols first cols }), fl ||| k.2.2)

/-- An empty part for a source. -/
def partNew (src dim : Nat) (r : MRow) : Nat × List Nat × MRow :=
  (src, [], { r with count := 0, flags := 0, cols := List.replicate dim (0, 0) })

/-- The part of an entry that takes a fragment: outside deterministic mode the only one, in it one of the same source that
lacks the columns. -/
def partFor (det : Bool) (e : PubEntry) (src first : Nat) : Option Nat :=
  if det then e.parts.findIdx? (fun p => p.1 == src && !p.2.1.contains first) else some 0

/-- A fragment of a record is dropped (R206): the second component says that no fragment of that record was before. A record
is known by its source, key, generation and step, and by the fragments seen of it. -/
def pubDrop (d : Dev) (n src first : Nat) (r : MRow) : Dev × Bool :=
  let p := pairGet d n
  let key := (r.table, r.row, r.gen, r.step)
  match p.dropped.findIdx? (fun x => x.1 == src && x.2.1 == key && !x.2.2.contains first) with
  | some k => (pairMod d n (fun p => { p with dropped := p.dropped.modify k (fun x => (x.1, x.2.1, first :: x.2.2)) }), false)
  | none => (pcAdd (pairMod d n (fun p => { p with dropped := p.dropped ++ [(src, key, [first])] })) (kPair n + 2) 1, true)

/-- The combiner of a pair works under the duplicate-lane check (R205); when its EBE retires, the pair that takes over does the
work. -/
def pubLane (o : Otp) (d : Dev) (n mm : Nat) : Dev := (laneTry o d (ek 3 (pairServe o d n).1) none mm).1

/-- A fragment arrives for a pair (R205, R206): merged, after `mm` mismatches of the duplicate lane, or dropped (the second
component). -/
def pubAccept (o : Otp) (d : Dev) (src first mm : Nat) (r : MRow) : Dev × Bool :=
  let d := catUse d r.table
  let n := rowPair o d r.table r.row
  let p := pairGet d n
  let late := decide (r.step ≤ d.guard.normRead)
  let e := catEntry d r.table r.gen
  let dim := max (ceDim e) (first + r.cols.length)
  let i := p.entries.findIdx? (fun x => pubKey x == (r.table, r.row, r.gen, r.step))
  let slot := i.bind (fun i => (p.entries[i]?).bind (fun x => partFor d.fab.det x src first))
  let drop := if e = [] then 1 else if r.step ≠ p.applied + 1 ∨ p.applying then 2
    else if slot.isNone ∧ p.pubSize < pubUsed p + 64 + 8 * dim then 3 else 0
  if drop ≠ 0 then
    let x := pubDrop d n src first r
    let d := x.1
    if !x.2 then (d, true)
    else if !late then ({ d with guard := { d.guard with drops := smMod 0 d.guard.drops r.step (· + 1) } }, true)
    else if drop = 2 then (log6 d stOk 0 0, true)
    else (d, true)
  else
    let old := i.bind (fun i => p.entries[i]?)
    let ent : PubEntry := old.getD ⟨[], [], false⟩
    let parts := if slot.isNone then ent.parts ++ [partNew src dim r] else ent.parts
    let k := slot.getD (parts.length - 1)
    let prev := parts.getD k (partNew src dim r)
    let x := partTake prev first r
    let offs := if slot.isNone then ent.offs ++ [pubUsed p] else ent.offs
    let ent' : PubEntry := { ent with parts := setAt parts k x.1, offs := offs }
    let at' := p.pubBase + nth offs k
    let new := recCols ((x.1.2.2.cols.drop first).take r.cols.length)
    let merged := old.isSome && first == 0 && (slot.isNone || prev.2.1.contains 0)
    let put : Pair → Pair := fun p => { p with entries := match i with
      | some i => setAt p.entries i ent'
      | none => p.entries ++ [ent'] }
    let d := pubLane o (pairMod d n put) n mm
    let d := memWrite (memWrite d at' (recHead x.1.2.2)) (at' + 32 + 8 * first) new
    let d := raiseFlags d (ek 3 (pairServe o d n).1) x.2
    let d := if merged then pcAdd d (kPair n) 1 else d
    (if merged && ent.read then pcAdd d (kGuard + 3) 1 else d, false)

/-- Two records of one key merged (R201), with flags. -/
def recMerge (r q : MRow) : MRow × Nat :=
  let k := countAdd r.count (r.flags ||| q.flags) q.count
  let cs := (List.range r.cols.length).map (fun j => accMergeFl (r.cols.getD j (0, 0)) (q.cols.getD j (0, 0)))
  ({ r with count := k.1, flags := k.2.1, cols := cs.map (·.1) }, cs.foldl (fun a c => a ||| c.2) k.2.2)

/-- The record of an entry: its parts merged in increasing order of their source (R207, R406), with the flags of that. -/
def pubRecord (e : PubEntry) : MRow × Nat :=
  match e.parts.mergeSort (fun a b => decide (a.1 ≤ b.1)) with
  | [] => (⟨0, 0, 0, 0, 0, 0, []⟩, 0)
  | p :: t => t.foldl (fun r q =>
    let m := recMerge r.1 q.2.2
    (m.1, r.2 ||| m.2)) (p.2.2, 0)

/-- The merged values G of a record (R195), with flags. -/
def recValues (r : MRow) : List Flagged := r.cols.map (fun c => fl2 addF (fl0 c.1) (fl0 c.2))

/-! ### DC_ROUTE_ROWS (R202) -/

/-- The result record of a route, and the end of the command: the directory is EMPTY. `work` holds keys, spills, local and
remote records, saturated counts, and then the records dropped, by number. -/
def routeFinish (d : Dev) (q : Nat) (r : Running) : Dev :=
  let w := r.work
  let body := natLe 4 (nth w 0) ++ natLe 4 (nth w 1) ++ natLe 4 (nth w 2) ++ natLe 4 (nth w 3) ++ natLe 4 (nth w 4) ++
    natLe 4 (w.drop 5).eraseDups.length ++ zeros 4
  cmdFinal (combEmpty (memWrite d (localOf (fld r.cmd.body 16 8)) (sealRec body)) (fld r.cmd.body 0 1 % 32)) q
    r.cmd.cseq.toNat stOk 0

/-- Note a dropped record of a route. -/
def routeDrop (d : Dev) (q sq idx : Nat) : Dev := runMod d q sq (fun r => { r with work := r.work ++ [idx] })

/-- Send one record to its owner: into the own buffers, with the mismatches of the duplicate lane that `mms` gives by record,
or as fragments that ask for an acknowledgement. -/
def routeOne (o : Otp) (q sq : Nat) (mms : List Nat) (d : Dev) (x : Nat × MRow) : Dev :=
  let r := x.2
  let d := catUse d r.table
  let e := catEntry d r.table r.gen
  let own := ceOwner d e r.row
  let note := fun (d : Dev) (i : Nat) => runMod d q sq (fun v => { v with work := setAt v.work i (nth v.work i + 1) })
  let d := note d (if r.flags.testBit 0 then 1 else 0)
  let d := if r.flags.testBit 1 then note d 4 else d
  if e = [] then routeDrop d q sq x.1
  else if own = ownCoord d then
    (recFrags r).foldl (fun d f =>
      let a := pubAccept o d own f.1 (if f.1 = 0 then nth mms x.1 else 0) { r with cols := f.2 }
      if a.2 then routeDrop a.1 q sq x.1 else a.1) (note d 2)
  else
    (recFrags r).foldl (fun d f =>
      let s := sendReq d 0x30 own (natLe 2 f.1 ++ natLe 1 f.2.length ++ [0] ++ natLe 4 (ownCoord d)) (recPack r f.2) (.cmd q sq) 0
      runMod s.1 q sq (fun v => { v with remote := v.remote ++ [⟨s.2, false, x.1, 0⟩] })) (note d 3)

/-- DC_ROUTE_ROWS (R202). -/
def dcRouteRowsDev (q : Nat) (mms : List Nat) (o : Otp) (d : Dev) : Dev :=
  onFresh d q (· == 0x28) (fun d v r =>
    let b := r.cmd.body
    let sq := r.cmd.cseq.toNat
    let d := combUse d (fld b 0 1 % 32)
    let c := combGet d (fld b 0 1 % 32)
    let discard := (fld b 1 1).testBit 0
    let res := fld b 16 8
    let st := firstBad [(discard || !(c.state == 2 || (c.state == 1 && c.step != fld b 8 8)), stCombState),
      (isMul res 32 && isOwn d res, stCombResult), (windowOk d v.owner res 32 true, stRrWindow),
      (mapped d (localOf res) 32, stAddrUnmapped)]
    let recs := (c.keys ++ c.spills)
    let bar := if discard then none else recs.findSome? (fun r =>
      let e := catEntry d r.table r.gen
      if e = [] ∨ ceOwner d e r.row = ownCoord d then none else remoteBar d (ceOwner d e r.row))
    if st ≠ stOk then cmdFinal d q sq st 0
    else match bar with
      | some st => cmdFinal d q sq st 0
      | none =>
        let d := runMod d q sq (fun v => { v with work := [0, 0, 0, 0, 0] })
        let d := if discard then d else ((List.range recs.length).zip recs).foldl (routeOne o q sq mms) d
        match (qGet d q).bind (fun v => runGet v sq) with
        | some r => if r.remote = [] then routeFinish d q r else d
        | none => d)

/-- DC_ROUTE_ROWS. -/
def execDcRouteRows (x : RouteRun) (s : State) : Host.Outcome State Fault Refusal := runDev (dcRouteRowsDev x.queue x.mms) s

/-- MROW (R205, R404): a fragment arrives at its owner, which acknowledges it to the ack-to module. How many mismatches the
duplicate lane finds in the merge is a free choice (DESIGN CHOICE, log 169). -/
def mrowDev (o : Otp) (d : Dev) : Dev :=
  onPacket d 0x30 (fun d _ p =>
    let r := recParse p.payload (fld p.body 2 1)
    let x := pubAccept o (bump d) p.src (fld p.body 0 2) (Config.freeMismatches d.freeIdx) r
    sendNew x.1 0x31 (fld p.body 4 4 % 2 ^ 20) p.tag [if x.2 then 2 else 1] [])

/-- MROW. -/
def execMrow (s : State) : Host.Outcome State Fault Refusal := runDev mrowDev s

/-- An acknowledgement of a route's fragment: the command is done with the last one. -/
def routeAck (d : Dev) (q sq tag : Nat) (dropped : Bool) : Dev :=
  match (qGet d q).bind (fun v => runGet v sq) with
  | none => d
  | some r =>
    let idx := ((r.remote.find? (fun x => x.tag == tag)).map (·.addr)).getD 0
    let d := runMod d q sq (fun r => { r with remote := r.remote.filter (fun x => x.tag != tag) })
    let d := if dropped then routeDrop d q sq idx else d
    match (qGet d q).bind (fun v => runGet v sq) with
    | some r => if r.remote = [] ∧ r.final = none then routeFinish d q r else d
    | none => d

/-- MROW_ACK (R404, R405): at a relay the same result goes to both pairs that it recorded, unless its entry of the relay table
is lost (R413; DEDUCED, log 168); at the sender the fragment is acknowledged. -/
def mrowAckDev (_o : Otp) (d : Dev) : Dev :=
  onPacket d 0x31 (fun d _ p =>
    match smGet none d.fab.relay p.tag with
    | some r =>
      let u := ctlUse { d with fab := { d.fab with relay := smSet none d.fab.relay p.tag none } } 8 (16 + p.tag)
      let d := u.1
      if u.2 then d else sendNew (sendNew d 0x31 r.to1 r.tag1 p.body []) 0x31 r.to2 r.tag2 p.body []
    | none =>
      match reqGet d p.tag with
      | some ⟨_, .cmd q sq, _, _, _⟩ => routeAck (reqSet d p.tag none) q sq p.tag (fld p.body 0 1 == 2)
      | _ => d)

/-- MROW_ACK. -/
def execMrowAck (s : State) : Host.Outcome State Fault Refusal := runDev mrowAckDev s

/-! ### Applying the verdict (R210 to R219) -/

/-- The entries of a pair for a step. -/
def pubOf (p : Pair) (step : Nat) : List PubEntry := p.entries.filter (fun e => (pubKey e).2.2.2 == step)

/-- A pair acts on a verdict (R210): on skip it discards its entries; on apply it frees those of frozen tables, and starts
when others are left. -/
def pairVerdict (d : Dev) (a : Act) (p : Pair) : Pair :=
  if a.step ≤ p.applied then p
  else
    let rest := p.entries.filter (fun e => (pubKey e).2.2.2 != a.step)
    if a.kind = 2 then { p with entries := rest, applied := a.step }
    else
      let keep := (pubOf p a.step).filter (fun e =>
        let x := catEntry d (pubKey e).1 (pubKey e).2.2.1
        x != [] && cuRule x != 0)
      if keep = [] then { p with entries := rest, applied := a.step }
      else { p with entries := rest ++ keep, applying := true }

/-- Every pair acts. -/
def pairsVerdict (o : Otp) (d : Dev) (a : Act) : Dev :=
  (List.range (pairCount o d)).foldl (fun d p => pairMod d p (pairVerdict d a)) d

/-- Every parameter that the step updates holds its reservation (R281). -/
def allReserved (d : Dev) : Bool := d.params.all (fun p => match p.2 with
  | some x => fld x.entry 40 1 == 0 || x.target.isSome
  | none => true)

/-- The arithmetic of R211: new weights with their flags, the new state before it is written back, its flags. -/
def rowRule (ent : List Byte) (rate clip count : Nat) (gs : List Flagged) (ws : List Nat) (st : List Byte) : List Flagged × List Flagged :=
  let n := ceDim ent
  let eta := fl2 mulF (fl0 rate) (fl0 (fld ent 68 4))
  let wd := fl0 (fld ent 72 4)
  let g := fun j =>
    let x := if eqF clip oneF then gs.getD j (0, 0) else fl2 mulF (gs.getD j (0, 0)) (fl0 clip)
    if cuMean ent then fl2 divF x (fl0 (ofIntF count)) else x
  let w := fun j => fl0 (nth ws j)
  let neg := fun (x : Flagged) => ((negF x.1, x.2) : Flagged)
  let js := List.range n
  if cuRule ent = 2 then
    let q := js.foldl (fun q j => fl3 fmaF (g j) (g j) q) (fl0 0)
    let a := fl2 addF (fl0 (fld st 0 4)) (fl2 divF q (fl0 (ofIntF n)))
    let r := fl2 divF eta (fl2 addF (fl1 sqrtF a) (fl0 (fld ent 76 4)))
    (js.map (fun j => fl3 fmaF (neg r) (fl3 fmaF wd (w j) (g j)) (w j)), [a])
  else if cuRule ent = 3 then
    let m := js.map (fun j => fl3 fmaF (fl0 (fld ent 80 4)) (fl0 (momRead (cuSfmt ent) n st j)) (g j))
    (js.map (fun j => fl3 fmaF (neg eta) (fl3 fmaF wd (w j) (m.getD j (0, 0))) (w j)), m)
  else (js.map (fun j => fl3 fmaF (neg eta) (fl3 fmaF wd (w j) (g j)) (w j)), [])

/-- The places of a local row: row, side entry, state, master, and its valid hot slot, with their sizes. -/
def rowPlaces (d : Dev) (t s row : Nat) (ent : List Byte) : List (Nat × Nat) :=
  let l := (cePlace ent row).2
  let home := rowHome ent l
  let h := memNat d home 8
  [(home, ceStride ent)] ++ (match sideAddr ent h with
    | some a => [(a, 16)]
    | none => []) ++
  (if cuStateSize ent = 0 then [] else [(cuStateBase ent + l * cuStateStride ent, cuStateSize ent)]) ++
  (if cuHasMaster ent then [(cuMasterBase ent + l * cuMasterStride ent, 4 * ceDim ent)] else []) ++
  (match hrdFind d t s row with
    | some x => [(hrdSlot d x.2, ceStride ent)]
    | none => [])

/-- The places of the row of a record; none when no side holds its generation. -/
def recPlaces (d : Dev) (r : MRow) : List (Nat × Nat) :=
  match catByGen (catGet d r.table) r.gen with
  | none => []
  | some s => rowPlaces d r.table s r.row (catSide (catGet d r.table) s)

/-- What places hold. -/
def spansRead (d : Dev) (l : List (Nat × Nat)) : List (Nat × List Byte) := l.map (fun x => (x.1, memRead d x.1 x.2))

/-- The module before it wrote to the places of an undo list, the last one first. -/
def spansBack (d : Dev) (l : List (Nat × List Byte)) : Dev := l.reverse.foldl (fun d x => memWrite d x.1 x.2) d

/-- The bytes of places are undefined (R18): each is what stands there, or what it was before or would be after the act. -/
def spansMix (d before after : Dev) (l : List (Nat × Nat)) : Dev :=
  l.foldl (fun d x => memMix d x.1 x.2 [memRead before x.1 x.2, memRead after x.1 x.2]) d

/-- A pre-image in an entry of a journal with base, entry size and number of entries (R216, R283): a head of 64 bytes whose
contents the spec does not give, then the parts. Which entry takes it is not given either. -/
def journalPut (d : Dev) (base je cap : Nat) (parts : List Byte) : Dev :=
  let head := (List.range 64).map (fun j => Config.freeByte (d.freeIdx * 4294967296 + j))
  bump (memWrite d (base + je * freePick d.freeIdx 0 cap) (head ++ parts))

/-- The entries that the journal of a pair holds (R215). -/
def pairCap (p : Pair) : Nat := if p.je = 0 then 0 else min 65536 (p.jSize / p.je)

/-- The parts of a row's pre-image (R216): row, side entry or zeros, state, master. -/
def rowImage (d : Dev) (r : MRow) : List Byte :=
  match catByGen (catGet d r.table) r.gen with
  | none => []
  | some s =>
    let ent := catSide (catGet d r.table) s
    let l := (cePlace ent r.row).2
    let home := rowHome ent l
    let side := match sideAddr ent (memNat d home 8) with
      | some a => memRead d a 16
      | none => zeros 16
    memRead d home (ceStride ent) ++ (if ceSideCount ent = 0 then [] else side) ++
      memRead d (cuStateBase ent + l * cuStateStride ent) (cuStateSize ent) ++
      (if cuHasMaster ent then memRead d (cuMasterBase ent + l * cuMasterStride ent) (4 * ceDim ent) else [])

/-- Apply one record to its row (R211, R212, R217): master, state, side entry, row and hot slot are written. The second
component holds the numeric flags. -/
def rowApply (d : Dev) (r : MRow) (step clip : Nat) : Dev × Nat :=
  match catByGen (catGet d r.table) r.gen with
  | none => (d, 0)
  | some s =>
    let ent := catSide (catGet d r.table) s
    let n := ceDim ent
    let l := (cePlace ent r.row).2
    let home := rowHome ent l
    let h := memNat d home 8
    let four := ceFour ent
    let cb := if four then n / 2 else n
    let side := sideAddr ent h
    let sa := cuStateBase ent + l * cuStateStride ent
    let ma := cuMasterBase ent + l * cuMasterStride ent
    let dec := rowDecode four h (memRead d (home + 8) cb) (side.map (fun a => memRead d a 16)) n
    let ws := if cuHasMaster ent then (List.range n).map (fun j => memNat d (ma + 4 * j) 4) else dec.1
    let decFl := if cuHasMaster ent then 0 else dec.2
    let x := rowRule ent (schedRate d (cuSched ent) step) clip r.count (recValues r) ws (memRead d sa (cuStateSize ent))
    let hash := fun j => srHash d.seed.toNat r.table r.row j step
    let w' := x.1.map (·.1)
    let d := if cuHasMaster ent then memWrite d ma (w'.flatMap (natLe 4)) else d
    let mo := if cuRule ent = 3 then momWrite (cuSfmt ent) (cuMode ent) hash (x.2.map (·.1))
      else (x.2.flatMap (fun a => natLe 4 a.1), [], 0)
    let d := if cuStateSize ent = 0 then d else memWrite d sa (mo.1 ++ mo.2.1)
    let en := rowEncode four h (cuMode ent) side.isSome hash w'
    let d := match side with
      | some a => memWrite d a en.2.2.1
      | none => d
    let row := natLe 8 en.1 ++ en.2.1
    let d := memWrite d home row
    let d := match hrdFind d r.table s r.row with
      | some y => memWrite d (hrdSlot d y.2) row
      | none => d
    (d, (x.1 ++ x.2).foldl (fun a y => a ||| y.2) (decFl ||| mo.2.2 ||| en.2.2.2))

/-- An audit mismatch of a UPE (R292, R424). -/
def auditFault (o : Otp) (d : Dev) (upe : Nat) : Dev :=
  let d := logRec (pcAdd d (kEng (ek 4 upe) + 5) 1) 1 1 4 1 (ek 4 upe) stOk 0 false []
  unitEvent o d (ek 4 upe) 3 1

/-- The rows of a step on a pair are lost (R219): their bytes are undefined, and the step is not committed. -/
def pairLost (d : Dev) (n step clip : Nat) : Dev :=
  let p := pairGet d n
  let rs := (pubOf p step).map (fun e => (pubRecord e).1)
  let places := p.rowsDone.map (fun x => (x.1, x.2.length)) ++ rs.flatMap (recPlaces d)
  let after := rs.foldl (fun d r => (rowApply d r step clip).1) d
  let d := spansMix (log6 d stJournalLost 0 0) (spansBack d p.rowsDone) after places
  let drop : Pair → Pair := fun p => { p with entries := p.entries.filter (fun e => (pubKey e).2.2.2 != step), rowsDone := [] }
  let lose : Act → Act := fun a => { a with lost := true }
  { pairMod d n drop with act := d.act.map lose }

/-- PUB_ENTRY_APPLY (R217, R218): the UPE of pair `n` applies entry `i` of the step in force, after `recov` recoveries, with an
audit that found a mismatch or not; `lost` a second fault (R219). The pre-image goes to a journal entry, which is retired
within the command; a pair whose journal holds no entry waits (R215). -/
def pubApplyDev (n i recov : Nat) (bad lost : Bool) (o : Otp) (d : Dev) : Dev :=
  match d.act with
  | none => d
  | some a =>
    let p := pairGet d n
    match (pubOf p a.step)[i]? with
    | none => d
    | some e =>
      if !p.applying ∨ a.kind = 2 ∨ pairCap p = 0 ∨ !allReserved d then d
      else
        let d := pcAdd d (kPair n + 3) recov
        if lost then pairLost d n a.step a.clip
        else
          let rec' := pubRecord e
          let r := rec'.1
          let units := pairServe o d n
          let d := match catByGen (catGet d r.table) r.gen with
            | some side => hrdUse (catUse d r.table) r.table side r.row
            | none => catUse d r.table
          let undo := spansRead d (recPlaces d r)
          let d := journalPut (raiseFlags d (ek 3 units.1) rec'.2) p.jBase p.je (pairCap p) (rowImage d r)
          let x := rowApply d r a.step a.clip
          let ent := catEntry d r.table r.gen
          let audit := cuHasMaster ent && (cePlace ent r.row).2 % 64 == a.step % 64
          let d := raiseFlags x.1 (ek 4 units.2) x.2
          let d := if audit then unitOp d (ek 4 units.2) (2 ^ 24) 1 else d
          let d := if audit && bad then auditFault o d units.2 else d
          let left := p.entries.erase e
          let more := left.any (fun x => (pubKey x).2.2.2 == a.step)
          let fin : Pair → Pair := fun p =>
            if more then { p with entries := left, rowsDone := p.rowsDone ++ undo }
            else { p with entries := left, rowsDone := [], applied := a.step, applying := false }
          pcAdd (pairMod d n fin) (kPair n + 1) 1

/-- PUB_ENTRY_APPLY. -/
def execPubEntryApply (n entry recov : Nat) (bad lost : Bool) (s : State) : Host.Outcome State Fault Refusal :=
  runDev (pubApplyDev n entry recov bad lost) s

/-! ### Messages (Table 7-8) -/

/-- Messages that only the physical function may send. -/
def updPf (ch : Nat) (d : Dev) (r : DzRes) : DzRes := dzPf ch d stUpdDenied r

/-- DZ_COMB_AREA (R191); the base of an area of size 0 is not judged against the memory. -/
def hCombArea (ch : Nat) (p : List Byte) (o : Otp) (d : Dev) : DzRes :=
  let n := fld p 0 1
  let m := 2 + dieOf 3 n
  let spans := [(fld p 8 8, fld p 16 8), (fld p 24 8, fld p 32 8)]
  updPf ch d <| dzNeed d (zeroAt p 1 7 && spans.all (fun s => isMul s.1 64 && isMul s.2 64)) stCombParam <|
    dzNeed d (present o 3 n) stEngineAbsent <|
    dzNeed d (spans.all (fun s => s.2 == 0 || inMem d m s.1 s.2)) stCombParam <|
    dzNeed d ((combGet d n).state == 0) stCombBusy <|
    dzOk (combSet d n { combGet d n with areaBase := fld p 8 8, areaSize := fld p 16 8, spillBase := fld p 24 8,
                                         spillSize := fld p 32 8 }) []

/-- DZ_COMB_QUERY. -/
def hCombQuery (_ch : Nat) (p : List Byte) (o : Otp) (d : Dev) : DzRes :=
  let n := fld p 0 1
  let c := combGet d n
  let k := kEng (ek 3 n) + 7
  dzNeed d (zeroAt p 1 7) stCombParam <| dzNeed d (present o 3 n) stEngineAbsent <|
    dzOk d (natLe 4 c.keys.length ++ natLe 4 c.spills.length ++ natLe 8 c.step ++ natLe 1 c.state ++
      natLe 1 c.spilled.toNat ++ zeros 6 ++ pcBytes d k ++ pcBytes d (k + 1) ++ natLe 1 (pcOvf d k 2) ++ zeros 3)

/-- A pair holds entries or is applying; no journal entry is live between commands. -/
def pairBusy (p : Pair) : Bool := p.entries != [] || p.applying

/-- The largest pre-image of a table that the module holds (Table 7-7). -/
def heldPreimage (d : Dev) : Nat :=
  (d.tables.flatMap (fun t => [t.2.a, t.2.b].filter (fun e => e != []))).foldl
    (fun m e => max m (cuPreimage e)) 0

/-- DZ_PUB_AREA (R205, R215). -/
def hPubArea (ch : Nat) (p : List Byte) (o : Otp) (d : Dev) : DzRes :=
  let n := fld p 0 1
  let die := dieOf 3 ((pairList o d).getD n (0, 0)).1
  let pb := fld p 8 8
  let ps := fld p 16 8
  let jb := fld p 24 8
  let js := fld p 32 4
  let je := fld p 36 4
  updPf ch d <| dzNeed d (decide (n < pairCount o d) && zeroAt p 1 7 && isMul pb 64 && isMul ps 64 && isMul jb 64 &&
      isMul je 64 && decide (64 ≤ je ∧ je ≤ 16384) && (ps == 0 || inMem d (2 + die) pb ps) &&
      (js == 0 || inMem d die jb js) && decide (heldPreimage d ≤ je)) stPubParam <|
    dzNeed d (!pairBusy (pairGet d n)) stPubBusy <|
    dzOk (pairMod d n (fun x => { x with pubBase := pb, pubSize := ps, jBase := jb, jSize := js, je := je,
                                         applied := fld p 40 8 })) []

/-- DZ_PUB_MAP (R204): pair numbers follow the usable units from here on. -/
def hPubMap (ch : Nat) (p : List Byte) (o : Otp) (d : Dev) : DzRes :=
  let m := (List.range 64).map (fun i => fld p i 1)
  updPf ch d <| dzNeed d (m.all (fun x => decide (x < pairCount o d))) stPubParam <|
    dzNeed d (d.pairs.all (fun x => !pairBusy x.2)) stPubBusy <|
    dzOk { d with pubMap := m, pairUnits := rankPairs o d } []

/-- DZ_PUB_QUERY. -/
def hPubQuery (_ch : Nat) (p : List Byte) (o : Otp) (d : Dev) : DzRes :=
  let n := fld p 0 1
  let x := pairGet d n
  let st := if x.applying then 1 else if d.verLastStep.toNat < x.applied then 2 else 0
  dzNeed d (decide (n < pairCount o d) && zeroAt p 1 7) stPubParam <|
    dzOk d (natLe 1 st ++ zeros 3 ++ natLe 4 x.entries.length ++ natLe 8 (pubUsed x) ++ natLe 8 x.applied ++ natLe 4 0 ++
      natLe 4 (pairCap x) ++ (List.range 5).flatMap (fun i => pcBytes d (kPair n + i)) ++ natLe 1 (pcOvf d (kPair n) 5) ++ zeros 1)

end Sys2Proof.Machine
end

