-- ==== Sys2Proof/Machine/Dense.lean ====
section
/-!
DEFINITION. Dense parameters (chapter 10): entries (R272, R273), slots and versions (R274 to R279), reservations (R281), the
apply of tiles (R283 to R287), VC_COMMIT, VC_ACQUIRE and VC_RELEASE, the marking of due units (R428) and the messages of
Table 10-8.
-/

namespace Sys2Proof.Machine

/-! ### Parameter entries (Table 10-1) -/

/-- Parameter `n`. -/
def paramGet (d : Dev) (n : Nat) : Option Param := smGet none d.params n
/-- The hub reads the slot state of a parameter, array 6, and its entry, array 11 (R272, R413). -/
def paramUse (d : Dev) (n : Nat) : Dev := (ctlUse (ctlUse d 6 n).1 11 (4096 + n)).1
/-- The hub reads the version record (R274, R413). -/
def verUse (d : Dev) : Dev := (ctlUse d 7 0).1
/-- Replace it. -/
def paramSet (d : Dev) (n : Nat) (p : Option Param) : Dev := { d with params := smSet none d.params n p }
/-- Change every parameter. -/
def paramsMap (d : Dev) (f : Param → Param) : Dev := { d with params := d.params.map (fun x => (x.1, x.2.map f)) }
/-- PE_RULE. -/
def peRule (p : Param) : Nat := fld p.entry 40 1
/-- PE_NUM_MODE. -/
def peMode (p : Param) : Nat := fld p.entry 41 1
/-- PE_GFMT is BF16. -/
def peGrad16 (p : Param) : Bool := (fld p.entry 42 1).testBit 0
/-- PE_SFMT. -/
def peSfmt (p : Param) : Nat := bits (fld p.entry 42 1) 1 2
/-- PE_UPE's instance. -/
def peUpe (p : Param) : Nat := fld p.entry 43 1 % 32
/-- PE_MASTER. -/
def peMaster (p : Param) : Nat := fld p.entry 16 8
/-- PE_STATE. -/
def peState (p : Param) : Nat := fld p.entry 24 8
/-- PE_GRAD. -/
def peGrad (p : Param) : Nat := fld p.entry 32 8
/-- PE_EPS. -/
def peEps (p : Param) : Nat := fld p.entry 60 4
/-- The template. -/
def peTd (p : Param) : Td := tdParse p.td
/-- N. -/
def peN (p : Param) : Nat := product ((peTd p).ext.take (peTd p).ndim)
/-- NC. -/
def peNc (p : Param) : Nat := nth (peTd p).ext 0
/-- NR. -/
def peNr (p : Param) : Nat := peN p / max 1 (peNc p)
/-- Bytes of a working element. -/
def peWidth (p : Param) : Nat := etBits (peTd p).etype / 8
/-- Local address of slot 0 (A) or 1 (B). -/
def peSlot (p : Param) (i : Nat) : Nat := if i = 0 then localOf (peTd p).base else fld p.entry 8 8
/-- Bytes of the optimizer state (Table 10-2). -/
def peStateSize (p : Param) : Nat :=
  let n := peN p
  if peRule p = 2 then (if peSfmt p = 0 then 4 * n else if peSfmt p = 1 then 2 * n else n + n / 16)
  else if peRule p = 3 then 8 * (peNr p + peNc p)
  else 0

/-- The pre-image of a full tile, an in-place target's working bytes included where the rule allows one (R283). -/
def pePreimage (p : Param) : Nat :=
  let n := min 1024 (peN p)
  64 + (if peMaster p = 0 then 0 else 4 * n) +
    (if peRule p = 2 then (if peSfmt p = 0 then 4 * n else if peSfmt p = 1 then 2 * n else n + n / 16) else 0) +
    (if peRule p = 3 then 0 else n * peWidth p)

/-- The regions of a parameter: base and bytes. -/
def peRegions (p : Param) : List (Nat × Nat) :=
  let n := peN p
  [(peSlot p 0, n * peWidth p), (peSlot p 1, n * peWidth p), (peGrad p, if peGrad16 p then 2 * n else 4 * n)] ++
    (if peMaster p = 0 then [] else [(peMaster p, 4 * n)]) ++
    (if peStateSize p = 0 then [] else [(peState p, peStateSize p)])

/-- Some two regions of a list share a byte. -/
def anyOverlap : List (Nat × Nat) → Bool
  | [] => false
  | r :: t => t.any (fun s => overlaps r.1 r.2 s.1 s.2) || anyOverlap t

/-- The template conditions of R273, the logical range of a stochastic write among them (R87). -/
def peTdOk (d : Dev) (addr : Nat) (p : Param) : Bool :=
  let t := peTd p
  isOwn d addr && sealOk 128 p.td && tdAlign addr t && tdRsvd t && tdPack t && tdShape t && !t.blk &&
    decide (t.etype ≤ 2) && (tdDims t).all (fun k => nth t.padLo k == 0 && nth t.padHi k == 0 &&
      tdStride t k == (product (t.ext.take k) : Int)) && isOwn d t.base &&
    (!modeStoch (peMode p) || tdStochOk t)

/-- The conditions of R273 other than the address map. -/
def peOk (o : Otp) (d : Dev) (p : Param) : Bool :=
  let e := p.entry
  let r := peRule p
  sealOk 128 e && isOwn d (fld e 0 8) && peTdOk d (fld e 0 8) p && decide (r < 4) && modeOk (peMode p) &&
    decide (fld e 42 1 < 8) && peSfmt p != 3 && decide (fld e 43 1 / 32 = 4) && usable o d 4 (peUpe p) &&
    decide (fld e 44 2 < 16) && zeroAt e 46 2 && zeroAt e 64 60 && (r == 0 || schedDefined d (fld e 44 2)) &&
    (r == 3 || peEps p == 0) && [8, 16, 24, 32].all (fun i => decide (fld e i 8 < 2 ^ 44)) &&
    (peRegions p).all (fun x => isMul x.1 64) && !anyOverlap (peRegions p) &&
    !(peMaster p == 0 && (peTd p).etype != 0 && r != 0 && !modeStoch (peMode p)) &&
    (r != 3 || (decide (2 ≤ (peTd p).ndim) && ltF 0 (peEps p) && peSfmt p == 0)) &&
    (r != 2 || peSfmt p != 2 || isMul (peNc p) 64) &&
    (r == 0 || decide (pePreimage p ≤ (smGet (0, 0, 0) d.djAreas (peUpe p)).2.2))

/-! ### Versions (R275, R276) -/

/-- A slot of a parameter. -/
def peSlotSt (p : Param) (i : Nat) : Option VSlot := if i = 0 then p.a else p.b
/-- Replace a slot. -/
def peSlotSet (p : Param) (i : Nat) (v : Option VSlot) : Param := if i = 0 then { p with a := v } else { p with b := v }

/-- The slot that a version not above VER_COMMITTED resolves to (R276); none when it is gone. -/
def peResolve (p : Param) (v : Nat) : Option Nat :=
  match p.a, p.b with
  | some x, some y =>
    if x.low ≤ v ∧ y.low ≤ v then some (if x.low < y.low then 1 else 0)
    else if x.low ≤ v then some 0 else if y.low ≤ v then some 1 else none
  | some x, none => if x.low ≤ v then some 0 else none
  | none, some y => if y.low ≤ v then some 1 else none
  | none, none => none

/-! ### Reservations (R281) -/

/-- A slot that the next version may take: EMPTY, or held by no reader. -/
def slotFree (s : Option VSlot) : Bool :=
  match s with
  | none => true
  | some x => x.readers == 0

/-- Reserve a parameter's target slot; `waited` when the reservation has already waited, so that only step 1 of R281 is left.
None when it waits. The second component: in place. -/
def peReserve (d : Dev) (p : Param) (waited : Bool) : Option (Param × Bool) :=
  let v := d.verCommitted.toNat
  let c := (peResolve p v).getD 0
  let o := 1 - c
  if slotFree (peSlotSt p o) then
    some ({ peSlotSet p o (some ⟨v + 1, v + 1, 0, 0⟩) with
      target := some o, src := c, inPlace := false, stats := false, tiles := 0, undo := [] }, false)
  else if waited || d.staleMax == 0 || peRule p == 3 then none
  else match peSlotSt p c with
    | some x =>
      if x.exact = 0 ∧ x.top + 1 - x.low ≤ d.staleMax then
        some ({ peSlotSet p c (some { x with top := v + 1 }) with
          target := some c, src := c, inPlace := true, stats := false, tiles := 0, undo := [] }, true)
      else none
    | none => none

/-- Reserve in parameter order, up to the first that waits; `waited` holds for the first of the list only. -/
def reserveGo (d : Dev) (waited : Bool) : List Nat → Dev
  | [] => d
  | n :: t =>
    let d := paramUse d n
    match paramGet d n with
    | none => reserveGo d false t
    | some p =>
      match peReserve d p waited with
      | none => d
      | some x => reserveGo (if x.2 then pcAdd (paramSet d n (some x.1)) kVerInplace 1 else paramSet d n (some x.1)) false t

/-- Parameters that do not yet hold the reservation that the step needs, in order. -/
def unreserved (d : Dev) : List Nat :=
  d.params.filterMap (fun x => match x.2 with
    | some p => if peRule p ≠ 0 ∧ p.target.isNone then some x.1 else none
    | none => none)

/-- The reservations of a verdict. -/
def reserveAll (d : Dev) (waited : Bool) : Dev := reserveGo d waited (unreserved d)

/-- RESERVATION_GRANT (R281): the reservation that waits takes its target, and those behind it follow. VER_PC_STALL counts
the hub cycles that it waited, a free value. -/
def reservationGrantDev (_o : Otp) (d : Dev) : Dev :=
  match d.act, unreserved d with
  | some a, n :: _ =>
    if a.kind = 2 then d
    else match (paramGet d n).bind (fun p => peReserve d p true) with
      | none => d
      | some _ => bump (pcAdd (reserveAll d true) kVerStall (Config.freeCount d.freeIdx).toNat)
  | _, _ => d

/-- RESERVATION_GRANT. -/
def execReservationGrant (s : State) : Host.Outcome State Fault Refusal := runDev reservationGrantDev s

/-! ### Tiles (R283 to R287) -/

/-- The UPE that serves a parameter: its own, or the next usable one of the die (R283). -/
def peServe (o : Otp) (d : Dev) (p : Param) : Nat :=
  let u := peUpe p
  (((List.range 4).map (fun i => u / 4 * 4 + (u % 4 + i) % 4)).find? (fun i => usable o d 4 i)).getD u

/-- G of an element, clipped (R284). -/
def peG (d : Dev) (p : Param) (clip e : Nat) : Flagged :=
  let x := if peGrad16 p then bf16to32 (memNat d (peGrad p + 2 * e) 2) else memNat d (peGrad p + 4 * e) 4
  if eqF clip oneF then fl0 x else fl2 mulF (fl0 x) (fl0 clip)

/-- A value of the factored accumulators: slot, column statistics or row statistics, index. -/
def peFactor (d : Dev) (p : Param) (slot : Nat) (col : Bool) (i : Nat) : Nat :=
  memNat d (peState p + slot * 4 * (peNr p + peNc p) + (if col then 4 * peNr p else 0) + 4 * i) 4

/-- The statistics pass of FACTORED (R283, R284): R and C of the target from those of the source. -/
def peStats (d : Dev) (p : Param) (clip : Nat) : Dev × Nat :=
  let nr := peNr p
  let nc := peNc p
  let beta := fl0 (fld p.entry 56 4)
  let omb := fl2 subF (fl0 oneF) beta
  let sq := fun i j => fl3 fmaF (peG d p clip (i * nc + j)) (peG d p clip (i * nc + j)) (fl0 (peEps p))
  let mix := fun (old : Nat) (s : Flagged) (n : Nat) =>
    fl3 fmaF beta (fl0 old) (fl2 mulF omb (fl2 divF s (fl0 (ofIntF n))))
  let rows := (List.range nr).map (fun i =>
    mix (peFactor d p p.src false i) ((List.range nc).foldl (fun a j => fl2 addF a (sq i j)) (fl0 0)) nc)
  let cols := (List.range nc).map (fun j =>
    mix (peFactor d p p.src true j) ((List.range nr).foldl (fun a i => fl2 addF a (sq i j)) (fl0 0)) nr)
  let t := p.target.getD 0
  (memWrite d (peState p + t * 4 * (nr + nc)) ((rows ++ cols).flatMap (fun x => natLe 4 x.1)),
    (rows ++ cols).foldl (fun a x => a ||| x.2) 0)

/-- The new weight of an element, with the momentum (R284). `rm` is the mean of the target's row statistics. -/
def peElem (d : Dev) (p : Param) (step clip rm e : Nat) : Flagged × Flagged :=
  let eta := fl2 mulF (fl0 (schedRate d (fld p.entry 44 2) step)) (fl0 (fld p.entry 48 4))
  let neg : Flagged := (negF eta.1, eta.2)
  let g := peG d p clip e
  let wd := fl0 (fld p.entry 52 4)
  let w := if peMaster p = 0 then fl0 (widen32 (peTd p).etype (memNat d (peSlot p p.src + peWidth p * e) (peWidth p)))
    else fl0 (memNat d (peMaster p + 4 * e) 4)
  if peRule p = 2 then
    let m := fl3 fmaF (fl0 (fld p.entry 56 4)) (fl0 (momRead (peSfmt p) (peN p) (memRead d (peState p) (peStateSize p)) e)) g
    (fl3 fmaF neg (fl3 fmaF wd w m) w, m)
  else if peRule p = 3 then
    let t := p.target.getD 0
    let r := fl0 (peFactor d p t false (e / peNc p))
    let c := fl0 (peFactor d p t true (e % peNc p))
    let u := fl2 divF g (fl1 sqrtF (fl2 divF (fl2 mulF r c) (fl0 rm)))
    (fl3 fmaF neg (fl3 fmaF wd w u) w, fl0 0)
  else (fl3 fmaF neg (fl3 fmaF wd w g) w, fl0 0)

/-- The hash of an element (R54, R285). -/
def peHash (d : Dev) (p : Param) (step e : Nat) : Nat := tdHash d.seed.toNat step (peTd p) (boxIdx (peTd p).ext e)

/-- The working element of a new weight (R285). -/
def peWork (d : Dev) (p : Param) (step e w : Nat) : Flagged :=
  if (peTd p).etype = 0 then fl0 w
  else
    let x := readOp fp32 (peMode p) w
    let r := narrow (etFmt (peTd p).etype) (peMode p) (peHash d p step e) x.1
    (r.1, r.2 ||| x.2)

/-- The mean of the target's row statistics. -/
def peRowMean (d : Dev) (p : Param) : Flagged :=
  fl2 divF ((List.range (peNr p)).foldl (fun a i => fl2 addF a (fl0 (peFactor d p (p.target.getD 0) false i))) (fl0 0))
    (fl0 (ofIntF (peNr p)))

/-- The places of a tile's master, momentum and in-place working bytes, which its pre-image holds (R283). -/
def peImageSpans (p : Param) : List (Nat × Nat) :=
  let e0 := 1024 * p.tiles
  let n := min 1024 (peN p - e0)
  let mw := if peSfmt p = 0 then 4 else if peSfmt p = 1 then 2 else 1
  (if peMaster p = 0 then [] else [(peMaster p + 4 * e0, 4 * n)]) ++
    (if peRule p = 2 then (peState p + mw * e0, mw * n) ::
      (if peSfmt p = 2 then [(peState p + peN p + e0 / 16, n / 16)] else []) else []) ++
    (if p.inPlace then [(peSlot p (p.target.getD 0) + peWidth p * e0, peWidth p * n)] else [])

/-- The places that the apply of a tile writes to. -/
def peSpans (p : Param) : List (Nat × Nat) :=
  let e0 := 1024 * p.tiles
  peImageSpans { p with inPlace := false } ++ [(peSlot p (p.target.getD 0) + peWidth p * e0, peWidth p * min 1024 (peN p - e0))]

/-- The factored accumulators of the target. -/
def peStatSpan (p : Param) : Nat × Nat :=
  (peState p + p.target.getD 0 * 4 * (peNr p + peNc p), 4 * (peNr p + peNc p))

/-- Apply a tile: master, momentum and working copy are written. The second component holds the numeric flags. -/
def peTile (d : Dev) (p : Param) (step clip : Nat) : Dev × Nat :=
  let e0 := 1024 * p.tiles
  let n := min 1024 (peN p - e0)
  let rm := if peRule p = 3 then peRowMean d p else fl0 0
  let xs := (List.range n).map (fun i => peElem d p step clip rm.1 (e0 + i))
  let ws := (List.range n).map (fun i => peWork d p step (e0 + i) (xs.getD i ((0, 0), (0, 0))).1.1)
  let mo := if peRule p = 2 then momWrite (peSfmt p) (peMode p) (fun j => peHash d p step (e0 + j)) (xs.map (fun x => x.2.1))
    else ([], [], 0)
  let mw := if peSfmt p = 0 then 4 else if peSfmt p = 1 then 2 else 1
  let d := if peMaster p = 0 then d else memWrite d (peMaster p + 4 * e0) (xs.flatMap (fun x => natLe 4 x.1.1))
  let d := if peRule p = 2 then
      memWrite (memWrite d (peState p + mw * e0) mo.1) (peState p + peN p + e0 / 16) mo.2.1 else d
  let d := memWrite d (peSlot p (p.target.getD 0) + peWidth p * e0) (ws.flatMap (fun x => natLe (peWidth p) x.1))
  (d, (xs.foldl (fun a x => a ||| x.1.2 ||| x.2.2) (rm.2 ||| mo.2.2)) ||| ws.foldl (fun a x => a ||| x.2) 0)

/-- Tiles of a parameter. -/
def peTiles (p : Param) : Nat := ceilDiv (peN p) 1024

/-- The next tile of a parameter, after the statistics pass of FACTORED when that is still to come: the module, the parameter
and the numeric flags. -/
def peNext (d : Dev) (p : Param) (step clip : Nat) : Dev × Param × Nat :=
  let due := decide (peRule p = 3) && !p.stats
  let s := if due then peStats d p clip else (d, 0)
  let undo := spansRead d ((if due then [peStatSpan p] else []) ++ peSpans p)
  let x := peTile s.1 p step clip
  (x.1, { p with stats := true, tiles := p.tiles + 1, undo := p.undo ++ undo }, s.2 ||| x.2)

/-- The apply of parameter `n` is abandoned beyond recovery (R287): what it would have written is undefined, and the step is
not committed. -/
def peLost (d : Dev) (n : Nat) (p : Param) (a : Act) : Dev :=
  let places := (if peMaster p = 0 then [] else [(peMaster p, 4 * peN p)]) ++
    (if peStateSize p = 0 then [] else [(peState p, peStateSize p)]) ++ [(peSlot p (p.target.getD 0), peN p * peWidth p)]
  let after := ((List.range (peTiles p - p.tiles)).foldl (fun (x : Dev × Param × Nat) _ => peNext x.1 x.2.1 a.step a.clip)
    (d, p, 0)).1
  let d := spansMix (log6 d stJournalLost 0 0) (spansBack d p.undo) after places
  let lose : Act → Act := fun a => { a with lost := true }
  { paramSet d n (some { p with tiles := peTiles p, undo := [] }) with act := d.act.map lose }

/-- DENSE_TILE_APPLY (R283 to R286, R292): the next tile of parameter `n`, after `recov` recoveries, with an audit that found a
mismatch or not; `lost` a fault that defeats the restore (R287). The pre-image goes to an entry of the journal of PE_UPE,
which is retired within the command; without a journal the UPE waits. -/
def denseTileDev (n recov : Nat) (bad lost : Bool) (o : Otp) (d : Dev) : Dev :=
  match d.act, paramGet d n with
  | some a, some p =>
    let j := smGet (0, 0, 0) d.djAreas (peUpe p)
    if a.kind = 2 ∨ !allReserved d ∨ p.target.isNone ∨ peTiles p ≤ p.tiles ∨ j.2.1 = 0 then d
    else
      let upe := ek 4 (peServe o d p)
      let d := pcAdd (paramUse d n) (kEng upe + 4) recov
      if lost then peLost d n p a
      else
        let d := journalPut d j.1 j.2.2 j.2.1 ((spansRead d (peImageSpans p)).flatMap (·.2))
        let x := peNext d p a.step a.clip
        let d := raiseFlags x.1 upe x.2.2
        let audit := peMaster p != 0 && decide (a.step % 64 < min 1024 (peN p - 1024 * p.tiles))
        let d := if audit then unitOp d upe (2 ^ 24) 1 else d
        let d := if audit && bad then auditFault o d (upe % 32) else d
        pcAdd (paramSet d n (some x.2.1)) (kEng upe + 3) 1
  | _, _ => d

/-- DENSE_TILE_APPLY. -/
def execDenseTileApply (n recov : Nat) (bad lost : Bool) (s : State) : Host.Outcome State Fault Refusal :=
  runDev (denseTileDev n recov bad lost) s

/-! ### State of the step (R564) -/

/-- Every pair has finished with step `n`. -/
def pairsDone (o : Otp) (d : Dev) (n : Nat) : Bool :=
  (List.range (pairCount o d)).all (fun p => !(pairGet d p).applying && decide (n ≤ (pairGet d p).applied))

/-- Every reserved parameter has all its tiles. -/
def tilesDone (d : Dev) : Bool := d.params.all (fun x => match x.2 with
  | some p => p.target.isNone || decide (peTiles p ≤ p.tiles)
  | none => true)

/-- The apply or the discard of a verdict is finished. -/
def actDone (o : Otp) (d : Dev) (a : Act) : Bool :=
  !a.lost && pairsDone o d a.step && (a.kind == 2 || (allReserved d && tilesDone d))

/-- 0 IDLE, 1 RESERVING, 2 APPLYING, 3 AWAITING_COMMIT. -/
def verState (o : Otp) (d : Dev) : Nat :=
  match d.act with
  | none => 0
  | some a => if a.kind != 2 && !allReserved d then 1 else if actDone o d a then 3 else 2

/-! ### DC_COMMIT (R278, R279, R291) -/

/-- VC_OP. -/
def vcOp (r : Running) : Nat := fld r.cmd.body 0 1
/-- VC_ARG. -/
def vcArg (r : Running) : Nat := fld r.cmd.body 8 8

/-- The form checks of R278. -/
def vcForm (d : Dev) (r : Running) : Bool :=
  let b := r.cmd.body
  let op := vcOp r
  let n := fld b 6 2
  let res := fld b 16 8
  decide (1 ≤ op ∧ op ≤ 3) && decide (fld b 1 1 < 2) && zeroAt b 2 2 && zeroAt b 24 24 &&
    (if op = 1 then fld b 1 1 == 0 && fld b 4 2 == 0 && n == 0 && res == 0
     else decide (1 ≤ n) && decide (fld b 4 2 + n ≤ 4096) &&
       (res == 0 || (op == 2 && isMul res 16 && isOwn d res)))

/-- Units due after a commit or skip of step `s` (R428). -/
def dueUnits (o : Otp) (d : Dev) (s : Nat) : List Nat :=
  let on := fun u n => !retired d u && ((unitGet d u).state == 1 || isMul (s + n) (2 ^ d.int.k))
  ([1, 2, 3, 4].flatMap (fun c => ((List.range (classLimit c)).filter (fun i => present o c i && on (ek c i) i)).map (ek c))) ++
    ([0, 1].filter (fun i => on (collKey i) i)).map collKey

/-- KAT_DUE_MARK (R428). -/
def dueMark (o : Otp) (d : Dev) (s : Nat) : Dev :=
  (dueUnits o d s).foldl (fun d u => unitSet d u { unitGet d u with due := true }) d

/-- A step is committed or skipped: the version record is written (R291), and the reservations end. -/
def stepClose (o : Otp) (d : Dev) (a : Act) : Dev :=
  let d := paramsMap d (fun p => { p with target := none, inPlace := false, stats := false, tiles := 0, undo := [] })
  let d := { d with
    act := none, verLastStep := BitVec.ofNat 64 a.step, verLastKind := if a.kind = 2 then 2 else 1,
    verCommitted := if a.kind = 2 then d.verCommitted else d.verCommitted + 1 }
  dueMark o d a.step

/-- VC_COMMIT (R291): the checks at dispatch; then it waits. A reserved VC_OP fails here. -/
def vcCommitDev (q : Nat) (_o : Otp) (d : Dev) : Dev :=
  match fresh d q (· == 0x32) with
  | none => d
  | some (_, r) =>
    let sq := r.cmd.cseq.toNat
    if vcOp r = 2 ∨ vcOp r = 3 then d
    else
      let d := verUse d
      let st := firstBad [(vcForm d r, stVerParam), (vcArg r == d.verLastStep.toNat + 1, stVerStep),
        (!d.int.noCommit, stVerAbandon)]
      let d := runMod d q sq (fun r => { r with started := true })
      if st = stOk then d else cmdFinal d q sq st 0

/-- VC_COMMIT. -/
def execVcCommit (q : Nat) (s : State) : Host.Outcome State Fault Refusal := runDev (vcCommitDev q) s

/-- A version operation of a kind that has begun and waits. -/
def vcWaits (op : Nat) (r : Running) : Bool := r.cmd.op == 0x32 && r.started && vcOp r == op

/-- What a waiting VC_COMMIT finds: none while it waits, else its status (R291). -/
def vcOutcome (o : Otp) (d : Dev) (r : Running) : Option Nat :=
  if vcArg r ≠ d.verLastStep.toNat + 1 then some stVerStep
  else if d.int.noCommit then some stVerAbandon
  else match d.act with
    | none => none
    | some a =>
      if a.step ≠ vcArg r then none
      else if a.lost then some stVerAbandon
      else if !actDone o d a then none
      else if a.kind ≠ 2 ∧ d.verCommitted.toNat = 2 ^ 64 - 1 then some stVerStep
      else some stOk

/-- VC_COMMIT_ACT (R291): the act that ends the wait; CQ_DETAIL is 1 for a commit and 2 for a skip. -/
def vcCommitActDev (q : Nat) (o : Otp) (d : Dev) : Dev :=
  onActive d q (vcWaits 1) (fun d _ r =>
    let sq := r.cmd.cseq.toNat
    let d := verUse d
    match vcOutcome o d r, d.act with
    | none, _ => d
    | some st, some a =>
      if st = stOk then cmdFinal (stepClose o d a) q sq stOk (if a.kind = 2 then 2 else 1) else cmdFinal d q sq st 0
    | some st, none => cmdFinal d q sq st 0)

/-- VC_COMMIT_ACT. -/
def execVcCommitAct (q : Nat) (s : State) : Host.Outcome State Fault Refusal := runDev (vcCommitActDev q) s

/-- VC_COMMIT_WAIT_EXPIRY (R291). -/
def vcCommitExpiryDev (q : Nat) (o : Otp) (d : Dev) : Dev :=
  onActive d q (vcWaits 1) (fun d _ r =>
    if vcOutcome o d r = none then cmdFinal d q r.cmd.cseq.toNat stVerWait 0 else d)

/-- VC_COMMIT_WAIT_EXPIRY. -/
def execVcCommitWaitExpiry (q : Nat) (s : State) : Host.Outcome State Fault Refusal := runDev (vcCommitExpiryDev q) s

/-- The non-empty numbers of a range. -/
def vcRange (d : Dev) (r : Running) : List (Nat × Param) :=
  (List.range (fld r.cmd.body 6 2)).filterMap (fun i =>
    (paramGet d (fld r.cmd.body 4 2 + i)).map (fun p => (fld r.cmd.body 4 2 + i, p)))

/-- VC_EXACT. -/
def vcExact (r : Running) : Bool := (fld r.cmd.body 1 1).testBit 0

/-- The version that an acquire names. -/
def vcVersion (d : Dev) (r : Running) : Nat := if vcArg r = 2 ^ 64 - 1 then d.verCommitted.toNat else vcArg r

/-- Change the counts of the slot that a version resolves to. -/
def peCount (p : Param) (v : Nat) (f : VSlot → VSlot) : Param :=
  match peResolve p v with
  | some i => peSlotSet p i ((peSlotSt p i).map f)
  | none => p

/-- The slot that a version resolves to. -/
def peFound (p : Param) (v : Nat) : Option VSlot := (peResolve p v).bind (peSlotSt p)

/-- A slot serves a version without values of a later one: an exact acquire and a read of the Reading Room take no other
(R37, R282; DEDUCED, log 156). -/
def slotExact (v : Nat) (s : VSlot) : Bool := decide (s.top ≤ v)

/-- A slot that an acquire of version `v` can take (R276, R282). -/
def acqHas (exact : Bool) (v : Nat) (s : Option VSlot) : Bool :=
  match s with
  | some x => !exact || slotExact v x
  | none => false

/-- One more acquire leaves the counts of a slot at or below 0xFFFF. -/
def acqRoom (exact : Bool) (s : Option VSlot) : Bool :=
  match s with
  | some x => decide (x.readers + 1 < 2 ^ 16) && (!exact || decide (x.exact + 1 < 2 ^ 16))
  | none => true

/-- A release may take one from the counts of a slot. -/
def relHeld (exact : Bool) (s : Option VSlot) : Bool :=
  match s with
  | some x => x.readers != 0 && (!exact || x.exact != 0)
  | none => false

/-- The act of a VC_ACQUIRE whose version is resolvable (R279). -/
def acquireAct (d : Dev) (q : Nat) (r : Running) : Dev :=
  let sq := r.cmd.cseq.toNat
  let d := (vcRange d r).foldl (fun d x => paramUse d x.1) (verUse d)
  let v := vcVersion d r
  let ps := vcRange d r
  let n := fld r.cmd.body 6 2
  let res := fld r.cmd.body 16 8
  let st := firstBad [(ps.all (fun x => acqHas (vcExact r) v (peFound x.2 v)), stVerGone),
    (ps.all (fun x => acqRoom (vcExact r) (peFound x.2 v)), stVerReaders)]
  if st ≠ stOk then cmdFinal d q sq st 0
  else
    let add : VSlot → VSlot := fun s => { s with readers := s.readers + 1, exact := s.exact + (vcExact r).toNat }
    let d := ps.foldl (fun d x => paramSet d x.1 (some (peCount x.2 v add))) d
    let out := (List.range n).flatMap (fun i => match paramGet d (fld r.cmd.body 4 2 + i) with
      | some p => natLe 8 (peSlot p ((peResolve p v).getD 0)) ++ natLe 8 v
      | none => zeros 16)
    cmdFinal (if res = 0 then d else memWrite d (localOf res) out) q sq stOk 0

/-- VC_ACQUIRE (R279): it acts at once when its version is resolvable, else it waits and holds its queue. -/
def vcAcquireDev (q : Nat) (_o : Otp) (d : Dev) : Dev :=
  match fresh d q (· == 0x32) with
  | none => d
  | some (v, r) =>
    let sq := r.cmd.cseq.toNat
    let res := fld r.cmd.body 16 8
    let n := 16 * fld r.cmd.body 6 2
    if vcOp r ≠ 2 then d
    else
      let st := firstBad [(vcForm d r, stVerParam), (res == 0 || windowOk d v.owner res n true, stRrWindow),
        (res == 0 || mapped d (localOf res) n, stAddrUnmapped)]
      let d := runMod d q sq (fun r => { r with started := true })
      if st ≠ stOk then cmdFinal d q sq st 0
      else if vcVersion d r ≤ d.verCommitted.toNat then acquireAct d q r
      else d

/-- VC_ACQUIRE. -/
def execVcAcquire (q : Nat) (s : State) : Host.Outcome State Fault Refusal := runDev (vcAcquireDev q) s

/-- VC_ACQUIRE_RESOLVE (R279). -/
def vcAcquireResolveDev (q : Nat) (_o : Otp) (d : Dev) : Dev :=
  onActive d q (vcWaits 2) (fun d _ r => if vcVersion d r ≤ d.verCommitted.toNat then acquireAct d q r else d)

/-- VC_ACQUIRE_RESOLVE. -/
def execVcAcquireResolve (q : Nat) (s : State) : Host.Outcome State Fault Refusal := runDev (vcAcquireResolveDev q) s

/-- VC_ACQUIRE_WAIT_EXPIRY (R279). -/
def vcAcquireExpiryDev (q : Nat) (_o : Otp) (d : Dev) : Dev :=
  onActive d q (vcWaits 2) (fun d _ r =>
    if d.verCommitted.toNat < vcVersion d r then cmdFinal d q r.cmd.cseq.toNat stVerWait 0 else d)

/-- VC_ACQUIRE_WAIT_EXPIRY. -/
def execVcAcquireWaitExpiry (q : Nat) (s : State) : Host.Outcome State Fault Refusal := runDev (vcAcquireExpiryDev q) s

/-- VC_RELEASE (R279). -/
def vcReleaseDev (q : Nat) (_o : Otp) (d : Dev) : Dev :=
  match fresh d q (· == 0x32) with
  | none => d
  | some (_, r) =>
    let sq := r.cmd.cseq.toNat
    if vcOp r ≠ 3 then d
    else
      let v := vcArg r
      let ps := vcRange d r
      let d := ps.foldl (fun d x => paramUse d x.1) (verUse d)
      let x := vcExact r
      let st := firstBad [(vcForm d r, stVerParam),
        (ps.all (fun y => decide (v ≤ d.verCommitted.toNat) && relHeld x (peFound y.2 v)), stVerRelease)]
      let sub : VSlot → VSlot := fun s => { s with readers := s.readers - 1, exact := s.exact - x.toNat }
      let d := runMod d q sq (fun r => { r with started := true })
      if st ≠ stOk then cmdFinal d q sq st 0
      else cmdFinal (ps.foldl (fun d y => paramSet d y.1 (some (peCount y.2 v sub))) d) q sq stOk 0

/-- VC_RELEASE. -/
def execVcRelease (q : Nat) (s : State) : Host.Outcome State Fault Refusal := runDev (vcReleaseDev q) s

/-! ### Messages (Table 10-8) -/

/-- Messages that only the physical function may send. -/
def paramPf (ch : Nat) (d : Dev) (r : DzRes) : DzRes := dzPf ch d stParamDenied r

/-- A count is nonzero, or the parameter is reserved. -/
def paramBusy (d : Dev) (n : Nat) : Bool :=
  match paramGet d n with
  | none => false
  | some p =>
    let held := fun (s : Option VSlot) => match s with
      | some x => x.readers != 0 || x.exact != 0
      | none => false
    held p.a || held p.b || p.target.isSome

/-- The slots of a parameter that holds only the committed version (R273, R274). -/
def freshSlots (v : Nat) (p : Param) : Param :=
  { p with a := some ⟨v, v, 0, 0⟩, b := none, target := none, src := 0, inPlace := false, stats := false, tiles := 0, undo := [] }

/-- DZ_PARAM_WRITE (R273). -/
def hParamWrite (ch : Nat) (p : List Byte) (o : Otp) (d : Dev) : DzRes :=
  let n := fld p 0 2
  let e := (p.drop 8).take 128
  let ta := fld e 0 8
  let x := freshSlots d.verCommitted.toNat ⟨e, memRead d (localOf ta) 128, none, none, none, 0, false, false, 0, []⟩
  paramPf ch d <| dzNeed d (decide (n < 4096) && zeroAt p 2 6 && sealOk 128 e && isMul ta 128 && isOwn d ta) stParamEntry <|
    dzNeed d (mapped d (localOf ta) 128) stAddrUnmapped <|
    let rd := readRecord o d (localOf ta) (sealOk 128 x.td) d.readFails
    let d := rd.1
    dzNeed d (rd.2 && peOk o d x) stParamEntry <|
    dzNeed d ((peRegions x).all (fun r => mapped d r.1 r.2)) stAddrUnmapped <|
    dzNeed d (!paramBusy d n) stParamBusy <| dzOk (paramSet d n (some x)) []

/-- A slot in a reply. -/
def slotBytes (s : Option VSlot) : List Byte :=
  match s with
  | none => natLe 8 (2 ^ 64 - 1) ++ natLe 8 (2 ^ 64 - 1) ++ zeros 4
  | some x => natLe 8 x.low ++ natLe 8 x.top ++ natLe 2 x.readers ++ natLe 2 x.exact

/-- DZ_PARAM_READ; an empty number reads as zeros with both slots empty, and bit 1 of byte 128 shows a reservation (DEDUCED,
log 157). -/
def hParamRead (ch : Nat) (p : List Byte) (_o : Otp) (d : Dev) : DzRes :=
  let d := paramUse d (fld p 0 2)
  paramPf ch d <| dzNeed d (decide (fld p 0 2 < 4096) && zeroAt p 2 6) stParamEntry <|
    match paramGet d (fld p 0 2) with
    | some x => dzOk d (x.entry ++ natLe 1 (if x.target.isSome then 2 else 0) ++ zeros 7 ++ slotBytes x.a ++ slotBytes x.b)
    | none => dzOk d (zeros 128 ++ natLe 1 1 ++ zeros 7 ++ slotBytes none ++ slotBytes none)

/-- DZ_PARAM_CLEAR. -/
def hParamClear (ch : Nat) (p : List Byte) (_o : Otp) (d : Dev) : DzRes :=
  paramPf ch d <| dzNeed d (decide (fld p 0 2 < 4096) && zeroAt p 2 6) stParamEntry <|
    dzNeed d (!paramBusy d (fld p 0 2)) stParamBusy <| dzOk (paramSet d (fld p 0 2) none) []

/-- A reservation or apply is running (R288). -/
def verBusy (o : Otp) (d : Dev) : Bool := verState o d == 1 || verState o d == 2

/-- DZ_SCHED_WRITE (R288). -/
def hSchedWrite (ch : Nat) (p : List Byte) (o : Otp) (d : Dev) : DzRes :=
  let n := fld p 1 1
  let s := (p.drop 8).take (32 * n)
  paramPf ch d <| dzNeed d (decide (fld p 0 1 < 16) && zeroAt p 2 6 && schedOk s n) stSchedParam <|
    dzNeed d (!verBusy o d) stVerState <| dzOk { d with scheds := smSet [] d.scheds (fld p 0 1) s } []

/-- DZ_SEED_SET (R290). -/
def hSeedSet (ch : Nat) (p : List Byte) (o : Otp) (d : Dev) : DzRes :=
  paramPf ch d <| dzNeed d (!verBusy o d) stVerState <| dzOk { d with seed := BitVec.ofNat 64 (fld p 0 8) } []

/-- A VC_COMMIT runs on some queue. -/
def commitRuns (d : Dev) : Bool := d.queues.any (fun x => match x.2 with
  | some v => v.running.any (fun r => vcWaits 1 r && r.final.isNone)
  | none => false)

/-- DZ_VER_INIT (R274). -/
def hVerInit (ch : Nat) (p : List Byte) (_o : Otp) (d : Dev) : DzRes :=
  let v := fld p 0 8
  paramPf ch d <| dzNeed d (d.act.isNone && !commitRuns d && d.params.all (fun x => !paramBusy d x.1)) stVerState <|
    let last := fld p 8 8
    let d := paramsMap d (freshSlots v)
    let d := { d with guard := { d.guard with normRead := min d.guard.normRead last } }
    dzOk { d with verCommitted := BitVec.ofNat 64 v, verLastStep := BitVec.ofNat 64 last, verLastKind := 0 } []

/-- DZ_VER_CONFIG. -/
def hVerConfig (ch : Nat) (p : List Byte) (_o : Otp) (d : Dev) : DzRes :=
  paramPf ch d <| dzNeed d (decide (fld p 0 1 < 16) && zeroAt p 1 7) stParamEntry <|
    dzOk { d with staleMax := fld p 0 1 } []

/-- DZ_VER_QUERY (R295, R564). -/
def hVerQuery (ch : Nat) (p : List Byte) (o : Otp) (d : Dev) : DzRes :=
  let u := fld p 0 1
  let k := kEng (ek 4 u) + 3
  let d := verUse d
  let st := verState o d
  let wait := if st = 1 then ((unreserved d).head?).getD 0xFFFF else 0xFFFF
  paramPf ch d <| dzNeed d (zeroAt p 1 7) stParamEntry <| dzNeed d (present o 4 u) stEngineAbsent <|
    dzOk d (natLe 8 d.verCommitted.toNat ++ natLe 8 d.verLastStep.toNat ++ natLe 1 d.verLastKind ++ natLe 1 d.staleMax ++
      natLe 1 st ++ zeros 1 ++ natLe 2 wait ++ zeros 2 ++ pcBytes d kVerStall ++ pcBytes d kVerInplace ++
      (List.range 3).flatMap (fun i => pcBytes d (k + i)) ++ natLe 1 (pcOvf d kVerStall 2 + (pcOvf d k 3) <<< 2) ++ zeros 1 ++
      natLe 8 d.seed.toNat)

/-- DZ_DJ_AREA (R283); no journal entry is live between commands. -/
def hDjArea (ch : Nat) (p : List Byte) (o : Otp) (d : Dev) : DzRes :=
  let u := fld p 0 1
  let base := fld p 8 8
  let n := fld p 16 4
  let sz := fld p 20 4
  paramPf ch d <| dzNeed d (zeroAt p 1 7 && isMul base 64 && decide (1 ≤ n ∧ n ≤ 64) && isMul sz 64 &&
      decide (128 ≤ sz ∧ sz ≤ 12352)) stParamEntry <| dzNeed d (present o 4 u) stEngineAbsent <|
    dzNeed d (inMem d (dieOf 4 u) base (n * sz) && d.params.all (fun x => match x.2 with
      | some q => peUpe q != u || peRule q == 0 || decide (pePreimage q ≤ sz)
      | none => true)) stParamEntry <|
    dzOk { d with djAreas := smSet (0, 0, 0) d.djAreas u (base, n, sz) } []

end Sys2Proof.Machine
end

