-- ==== Sys2Proof/Machine/Guard.lean ====
section
/-!
DEFINITION. The step guard and the Reading Room (chapter 11): partial norms (R296 to R299), their reduction and the verdict
(R300 to R307, R403), and the messages of Table 11-7.
-/

namespace Sys2Proof.Machine

/-- Change the guard. -/
def guardMod (d : Dev) (f : Guard → Guard) : Dev := { d with guard := f d.guard }

/-! ### Partial norms (R297, R298) -/

/-- The sum of squares of an item and its non-finite count. -/
def itemNorm (vs : List Nat) : Nat × Nat :=
  let r := vs.foldl (fun (a : (Nat × Nat) × Nat) v =>
    if finF v then (accAdd a.1 (mulF v v), a.2) else (a.1, satAdd 32 a.2 1)) ((0, 0), 0)
  (addF r.1.1 r.1.2, r.2)

/-- The values of the parameter items, by increasing number. -/
def paramItems (d : Dev) : List (List Nat) :=
  d.params.filterMap (fun x => match x.2 with
    | some p => if peRule p = 0 then none else some ((List.range (peN p)).map (fun e => (peG d p oneF e).1))
    | none => none)

/-- The values of a PUB item (R297), with flags. -/
def pubItem (d : Dev) (e : PubEntry) : List Flagged :=
  let r := pubRecord e
  let ent := catEntry d r.1.table r.1.gen
  (recValues r.1).map (fun g => if cuMean ent then divIntF g r.1.count else g)

/-- A PUB entry of step `step` that is an item: its table is not frozen (R297). -/
def pubCounts (d : Dev) (step : Nat) (e : PubEntry) : Bool :=
  let x := catEntry d (pubKey e).1 (pubKey e).2.2.1
  (pubKey e).2.2.2 == step && (x == [] || cuRule x != 0)

/-- The values of the PUB items of a step, by increasing key. -/
def pubItems (d : Dev) (step : Nat) : List (List Nat) :=
  let es := d.pairs.flatMap (fun p => p.2.entries.filter (pubCounts d step))
  (es.mergeSort (fun a b => decide (mrKey (pubKey a).1 (pubKey a).2.1 ≤ mrKey (pubKey b).1 (pubKey b).2.1))).map
    (fun e => (pubItem d e).map (·.1))

/-- The numeric flags that the items of a partial norm raise (R48, R298), by the UPE that computes them. -/
def normFlags (o : Otp) (d : Dev) (step : Nat) : List (Nat × Nat) :=
  let sq := fun (vs : List Flagged) => (vs.foldl (fun (a : (Nat × Nat) × Nat) v =>
    if finF v.1 then accAddFl (a.1, a.2 ||| v.2 ||| stepFlags [v.1, v.1] (mulF v.1 v.1)) (mulF v.1 v.1)
    else (a.1, a.2 ||| v.2)) ((0, 0), 0)).2
  (d.params.filterMap (fun x => match x.2 with
    | some p => if peRule p = 0 then none
      else some (ek 4 (peServe o d p), sq ((List.range (peN p)).map (peG d p oneF)))
    | none => none)) ++
  d.pairs.flatMap (fun p => (p.2.entries.filter (pubCounts d step)).map (fun e =>
    (ek 4 (pairServe o d p.1).2, sq (pubItem d e) ||| (pubRecord e).2)))

/-- A partial record (Table 11-2). -/
def normBytes (ss nf vote step items : Nat) : List Byte :=
  sealRec (natLe 4 ss ++ natLe 4 nf ++ natLe 1 vote ++ zeros 7 ++ natLe 8 step ++ natLe 4 items)

/-- The module's own partial record (R298). -/
def normOwn (d : Dev) (step vote : Nat) : List Byte :=
  let items := (paramItems d ++ pubItems d step).map itemNorm
  let r := items.foldl (fun (a : (Nat × Nat) × Nat) q => (accAdd a.1 q.1, satAdd 32 a.2 q.2))
    ((0, 0), min (smGet 0 d.guard.drops step) (2 ^ 32 - 1))
  normBytes (addF r.1.1 r.1.2) r.2 vote step (min items.length (2 ^ 32 - 1))

/-- Two records combined (R300). -/
def normMerge (a b : List Byte) : List Byte :=
  normBytes (addF (fld a 0 4) (fld b 0 4)) (satAdd 32 (fld a 4 4) (fld b 4 4)) (fld a 8 1 ||| fld b 8 1) (fld a 16 8)
    (satAdd 32 (fld a 24 4) (fld b 24 4))

/-! ### Verdicts (R301 to R305, R321) -/

/-- The verdict record of a total (R301, R302). -/
def verdictOf (c : GuardCfg) (t : List Byte) : List Byte :=
  let q := fld t 0 4
  let nf := fld t 4 4
  let n := sqrtF q
  let r0 := (fld t 8 1 % 2) + (if nf = 0 then 0 else 2) + (if finF q then 0 else 4)
  let r := if r0 = 0 ∧ ltF 0 c.skip ∧ ltF c.skip n then 8 else r0
  let clip := ltF 0 c.clip && ltF c.clip n
  let kind := if r ≠ 0 then 2 else if clip then 1 else 0
  let f := if r ≠ 0 then 0 else if clip then divF c.clip n else oneF
  sealRec (natLe 8 (fld t 16 8) ++ natLe 1 kind ++ natLe 1 r ++ zeros 2 ++ natLe 4 f ++ natLe 4 n ++ natLe 4 nf ++ natLe 4 q)

/-- VD_STEP. -/
def vdStep (r : List Byte) : Nat := fld r 0 8
/-- VD_KIND. -/
def vdKind (r : List Byte) : Nat := fld r 8 1

/-- The kept verdict of a step. -/
def verdictFor (d : Dev) (step : Nat) : Option (List Byte) := d.guard.verdicts.find? (fun r => vdStep r == step)

/-- The module acts on the verdict of the next step, if it holds one and no hold is set (R210, R281, R307). -/
def actVerdict (o : Otp) (d : Dev) : Dev :=
  match d.act, verdictFor d (d.verLastStep.toNat + 1) with
  | none, some r =>
    if d.guard.hold then d
    else
      let a : Act := ⟨vdStep r, vdKind r, fld r 12 4, false⟩
      let d := pairsVerdict o { d with act := some a } a
      if a.kind = 2 then d else reserveAll d false
  | _, _ => d

/-- The end of a DC_VERDICT_WAIT: the record is written, and CQ_DETAIL is VD_KIND (R306). -/
def verdictDone (d : Dev) (q : Nat) (r : Running) (v : List Byte) : Dev :=
  let a := fld r.cmd.body 16 8
  cmdFinal (if a = 0 then d else memWrite d (localOf a) v) q r.cmd.cseq.toNat stOk (vdKind v)

/-- A DC_VERDICT_WAIT that has begun and waits. -/
def verdictWaits (r : Running) : Bool := r.cmd.op == 0x31 && r.started && r.final.isNone

/-- Every DC_VERDICT_WAIT for a step completes. -/
def verdictWake (d : Dev) (v : List Byte) : Dev :=
  (d.queues.flatMap (fun x => match x.2 with
    | some q => (q.running.filter (fun r => verdictWaits r && fld r.cmd.body 0 8 == vdStep v)).map (fun r => (x.1, r))
    | none => [])).foldl (fun d x => verdictDone d x.1 x.2 v) d

/-- Keep a verdict: the last 16, the counters by kind and GD_SKIP_RUN (R303, R321), and what waits for it. -/
def keepVerdict (o : Otp) (d : Dev) (v : List Byte) : Dev :=
  let g := d.guard
  let run := if vdKind v = 2 then satAdd 32 g.skipRun 1 else 0
  let d := pcAdd { d with guard := { g with verdicts := (v :: g.verdicts).take 16, skipRun := run, late := false } }
    (kGuard + vdKind v % 3) 1
  let alert := (g.cfg.map (·.alert)).getD 0
  let d := if alert ≠ 0 ∧ run = alert ∧ g.skipRun ≠ run then log6 d stGuardSkiprun 0 0 else d
  actVerdict o (verdictWake d v)

/-- The coordinates of the children in the guard's tree, by increasing member index (R403). -/
def guardChildren (d : Dev) (c : GuardCfg) : List Nat :=
  let root := boxCoord d c.base c.ext c.root
  (treeChildren d c.base c.ext root (ownCoord d)).map (boxCoord d c.base c.ext)

/-- The parent in the guard's tree. -/
def guardParent (d : Dev) (c : GuardCfg) : Option Nat :=
  treeParent d c.base c.ext (boxCoord d c.base c.ext c.root) (ownCoord d)

/-- A verdict arrives (R303, R305): kept, passed down and acted on; a second copy is compared with the first and dropped. -/
def takeVerdict (o : Otp) (d : Dev) (v : List Byte) : Dev :=
  if d.guard.abandoned.contains (vdStep v) then
    if vdKind v = 2 then d else log6 d stGuardDropped 0 0
  else match verdictFor d (vdStep v) with
    | some w => if w = v then d else logRec d 3 3 11 0 0 stCtlLost 0 false []
    | none =>
      let d := match d.guard.cfg with
        | some c => (guardChildren d c).foldl (fun d x => sendNew d 0x39 x 0 (natLe 2 c.group) v) d
        | none => d
      keepVerdict o d v

/-- The contributions of a complete node, combined in order (R389): in deterministic mode the own record first and then the
children's by member index, else in order of arrival. -/
def normCombine (d : Dev) (c : GuardCfg) (n : NormNode) : Option (List Byte) :=
  let need := ownCoord d :: guardChildren d c
  if need.all (fun x => n.got.any (fun g => g.1 == x)) then
    let rs := if d.fab.det then need.filterMap (fun x => (n.got.find? (fun g => g.1 == x)).map (·.2)) else n.got.map (·.2)
    match rs with
    | [] => none
    | r :: t => some (t.foldl normMerge r)
  else none

/-- A contribution enters the reduction of its step; a complete node sends the result up, or at the root computes the
verdict (R300, R301, R403). -/
def normTake (o : Otp) (d : Dev) (src : Nat) (r : List Byte) : Dev :=
  let step := fld r 16 8
  let old := (d.guard.norms.find? (fun n => n.step == step)).getD ⟨step, []⟩
  let n : NormNode := if old.got.any (fun g => g.1 == src) then old else { old with got := old.got ++ [(src, r)] }
  let rest := d.guard.norms.filter (fun n => n.step != step)
  let keep := guardMod d (fun g => { g with norms := rest ++ [n] })
  match d.guard.cfg with
  | none => keep
  | some c =>
    match normCombine d c n with
    | none => keep
    | some t =>
      let d := guardMod d (fun g => { g with norms := rest })
      match guardParent d c with
      | some p => sendNew d 0x38 p 0 (natLe 2 c.group) t
      | none =>
        let v := verdictOf c t
        takeVerdict o (guardMod d (fun g => { g with computed := (v :: g.computed).take 16 })) v

/-- DC_NORM_SUBMIT (R296). -/
def dcNormSubmitDev (q : Nat) (_o : Otp) (d : Dev) : Dev :=
  onFresh d q (· == 0x30) (fun d v r =>
    let b := r.cmd.body
    let sq := r.cmd.cseq.toNat
    let step := fld b 0 8
    let res := fld b 16 8
    let st := firstBad [(d.guard.cfg.isSome, stGuardConfig),
      (decide (fld b 8 1 < 2) && zeroAt b 9 7 && zeroAt b 24 24 && (res == 0 || (isMul res 32 && isOwn d res)), stGuardParam),
      (step == d.verLastStep.toNat + 1, stGuardStep), (d.guard.submitted != step, stGuardDup),
      (res == 0 || windowOk d v.owner res 32 true, stRrWindow), (res == 0 || mapped d (localOf res) 32, stAddrUnmapped)]
    if st ≠ stOk then cmdFinal d q sq st 0 else guardMod d (fun g => { g with submitted := step }))

/-- DC_NORM_SUBMIT. -/
def execDcNormSubmit (q : Nat) (s : State) : Host.Outcome State Fault Refusal := runDev (dcNormSubmitDev q) s

/-- PARTIAL_NORM_COMPLETE (R297 to R299): every item is read, the record is written and handed to the reduction. -/
def normCompleteDev (q : Nat) (o : Otp) (d : Dev) : Dev :=
  onActive d q (fun r => r.cmd.op == 0x30 && r.started) (fun d _ r =>
    let b := r.cmd.body
    let step := fld b 0 8
    let rec' := normOwn d step (fld b 8 1)
    let d := (normFlags o d step).foldl (fun d x => raiseFlags d x.1 x.2) d
    let seen : Pair → Pair := fun p =>
      { p with entries := p.entries.map (fun e => { e with read := e.read || pubCounts d step e }) }
    let d := { d with pairs := d.pairs.map (fun x => (x.1, seen x.2)) }
    let d := if fld b 16 8 = 0 then d else memWrite d (localOf (fld b 16 8)) rec'
    let d := guardMod d (fun g => { g with normRead := max g.normRead step, drops := smSet 0 g.drops step 0 })
    normTake o (cmdFinal d q r.cmd.cseq.toNat stOk 0) (ownCoord d) rec')

/-- PARTIAL_NORM_COMPLETE. -/
def execPartialNormComplete (q : Nat) (s : State) : Host.Outcome State Fault Refusal := runDev (normCompleteDev q) s

/-- A record of the guard's group with its CRC. -/
def guardPacket (d : Dev) (p : Pkt) : Bool :=
  sealOk 32 (p.payload.take 32) && (match d.guard.cfg with
    | some c => fld p.body 0 2 == c.group
    | none => true)

/-- NORM_UP (R403). -/
def normUpDev (o : Otp) (d : Dev) : Dev :=
  onPacket d 0x38 (fun d _ p => if guardPacket d p then normTake o d p.src (p.payload.take 32) else d)

/-- NORM_UP. -/
def execNormUp (s : State) : Host.Outcome State Fault Refusal := runDev normUpDev s

/-- VERDICT (R303). -/
def verdictDev (o : Otp) (d : Dev) : Dev :=
  onPacket d 0x39 (fun d _ p => if guardPacket d p then takeVerdict o d (p.payload.take 32) else d)

/-- VERDICT. -/
def execVerdict (s : State) : Host.Outcome State Fault Refusal := runDev verdictDev s

/-- VERDICT_REQ (R304, R403): answered by a node that holds the verdict, else passed on toward the root. -/
def verdictReqDev (_o : Otp) (d : Dev) : Dev :=
  onPacket d 0x3A (fun d _ p =>
    match d.guard.cfg with
    | none => d
    | some c =>
      let step := fld p.body 4 8
      match (d.guard.verdicts ++ d.guard.computed).find? (fun r => vdStep r == step) with
      | some v => sendNew d 0x39 p.src 0 (natLe 2 c.group) v
      | none => match guardParent d c with
        | some x => sendNew d 0x3A x 0 (natLe 2 c.group ++ zeros 2 ++ natLe 8 step) []
        | none => d)

/-- VERDICT_REQ. -/
def execVerdictReq (s : State) : Host.Outcome State Fault Refusal := runDev verdictReqDev s

/-- The step that the module has submitted and whose verdict it lacks. -/
def verdictMissing (d : Dev) : Bool :=
  d.guard.submitted == d.verLastStep.toNat + 1 && (verdictFor d d.guard.submitted).isNone

/-- VERDICT_REQUEST_TIMER (R304). -/
def verdictTimerDev (_o : Otp) (d : Dev) : Dev :=
  match d.guard.cfg with
  | none => d
  | some c =>
    if !verdictMissing d then d
    else match guardParent d c with
      | none => d
      | some x => sendNew (pcAdd d (kGuard + 4) 1) 0x3A x 0 (natLe 2 c.group ++ zeros 2 ++ natLe 8 d.guard.submitted) []

/-- VERDICT_REQUEST_TIMER. -/
def execVerdictRequestTimer (s : State) : Host.Outcome State Fault Refusal := runDev verdictTimerDev s

/-- VERDICT_LIMIT_EXPIRY (R304): logged once, with the vector of DZ_INT_CONFIG; the wait goes on. -/
def verdictLimitDev (_o : Otp) (d : Dev) : Dev :=
  if !verdictMissing d || d.guard.late then d
  else
    let d := log6 (guardMod d (fun g => { g with late := true })) stGuardLate 0 0
    if d.int.vector = 0xFFFF then d else msixSend d 0 d.int.vector.toNat

/-- VERDICT_LIMIT_EXPIRY. -/
def execVerdictLimitExpiry (s : State) : Host.Outcome State Fault Refusal := runDev verdictLimitDev s

/-- DC_VERDICT_WAIT (R306). -/
def dcVerdictWaitDev (q : Nat) (_o : Otp) (d : Dev) : Dev :=
  onFresh d q (· == 0x31) (fun d v r =>
    let sq := r.cmd.cseq.toNat
    let step := fld r.cmd.body 0 8
    let res := fld r.cmd.body 16 8
    let last := d.verLastStep.toNat
    let held := verdictFor d step
    let st := firstBad [(decide (step ≤ last + 1) && (decide (last < step) || held.isSome), stGuardStep),
      (res == 0 || windowOk d v.owner res 32 true, stRrWindow), (res == 0 || mapped d (localOf res) 32, stAddrUnmapped)]
    if st ≠ stOk then cmdFinal d q sq st 0
    else match held with
      | some x => verdictDone d q r x
      | none => d)

/-- DC_VERDICT_WAIT. -/
def execDcVerdictWait (q : Nat) (s : State) : Host.Outcome State Fault Refusal := runDev (dcVerdictWaitDev q) s

/-- VERDICT_WAIT_EXPIRY (R306). -/
def verdictExpiryDev (q : Nat) (_o : Otp) (d : Dev) : Dev :=
  onActive d q verdictWaits (fun d _ r => cmdFinal d q r.cmd.cseq.toNat stGuardWait 0)

/-- VERDICT_WAIT_EXPIRY. -/
def execVerdictWaitExpiry (q : Nat) (s : State) : Host.Outcome State Fault Refusal := runDev (verdictExpiryDev q) s

/-! ### Messages (Table 11-7) -/

/-- Messages that only the physical function may send. -/
def stepPf (ch : Nat) (d : Dev) (r : DzRes) : DzRes := dzPf ch d stStepDenied r

/-- A threshold is neither negative nor NaN. -/
def normOk (x : Nat) : Bool := !fvIsNaN (fDecode fp32 x) && !ltF x 0

/-- DZ_GUARD_CONFIG. -/
def hGuardConfig (ch : Nat) (p : List Byte) (_o : Otp) (d : Dev) : DzRes :=
  let n := fld p 0 2
  let lim := fld p 16 4
  stepPf ch d <| dzNeed d (zeroAt p 2 2 && normOk (fld p 4 4) && normOk (fld p 8 4)) stGuardParam <|
    match smGet none d.groups n with
    | none => dzErr d stGuardParam
    | some g =>
      dzNeed d (boxIndex d g.base g.ext (ownCoord d)).isSome stGuardParam <|
      dzNeed d (d.guard.submitted != d.verLastStep.toNat + 1) stGuardBusy <|
      let c : GuardCfg := ⟨n, g.base, g.ext, g.root, fld p 4 4, fld p 8 4, fld p 12 4, if lim = 0 then 2 ^ 26 else lim⟩
      dzOk (guardMod d (fun g => { g with cfg := some c })) []

/-- DZ_GUARD_QUERY. -/
def hGuardQuery (ch : Nat) (_p : List Byte) (_o : Otp) (d : Dev) : DzRes :=
  let g := d.guard
  let root := match g.cfg with
    | some c => boxCoord d c.base c.ext c.root == ownCoord d
    | none => false
  stepPf ch d <| dzOk d (natLe 8 g.submitted ++ padTo 32 (g.verdicts.headD []) ++ natLe 1 (ofBits [root, g.hold, g.late]) ++
    zeros 3 ++ natLe 4 g.skipRun ++ (List.range 5).flatMap (fun i => pcBytes d (kGuard + i)) ++ natLe 1 (pcOvf d kGuard 5) ++
    zeros 1)

/-- What a verdict has started is finished, or has been lost for good: no pair has a row left to apply or discard, and no
parameter a tile. -/
def actQuiet (o : Otp) (d : Dev) : Bool := match d.act with
  | none => true
  | some a => (List.range (pairCount o d)).all (fun n =>
      let p := pairGet d n
      if p.applying then pubOf p a.step == [] else decide (a.step ≤ p.applied)) &&
    (a.kind == 2 || (allReserved d && tilesDone d))

/-- The reply of DZ_GUARD_HOLD. -/
def holdReply (d : Dev) : List Byte := natLe 8 d.verCommitted.toNat ++ natLe 8 d.verLastStep.toNat

/-- DZ_GUARD_HOLD (R307). -/
def hGuardHold (ch : Nat) (p : List Byte) (o : Otp) (d : Dev) : DzRes :=
  let on := fld p 0 1 == 1
  stepPf ch d <| dzNeed d (decide (fld p 0 1 < 2) && zeroAt p 1 7) stGuardParam <|
    let d := guardMod d (fun g => { g with hold := on })
    let d := if on then d else actVerdict o d
    if actQuiet o d then dzOk d (holdReply d) else dzWait d .guardHold

/-- DZ_GUARD_ABANDON (R305). -/
def hGuardAbandon (ch : Nat) (p : List Byte) (o : Otp) (d : Dev) : DzRes :=
  let s := fld p 0 8
  stepPf ch d <| dzNeed d (s == d.guard.submitted && s != 0 && (verdictFor d s).isNone) stGuardStep <|
    let v := sealRec (natLe 8 s ++ [2, 0x10] ++ zeros 18)
    dzOk (keepVerdict o (guardMod d (fun g => { g with abandoned := s :: g.abandoned })) v) []

/-- The export record of a parameter (Table 11-5). -/
def exportParam (d : Dev) (n : Nat) (p : Param) : List Byte :=
  let t := peTd p
  let ext := (List.range 6).flatMap (fun k => natLe 4 (if k < t.ndim then (tdLog t [] k).2 else 0))
  sealRec (natLe 1 1 ++ zeros 3 ++ natLe 2 n ++ zeros 2 ++ natLe 8 d.verCommitted.toNat ++ natLe 8 d.verLastStep.toNat ++
    natLe 8 d.seed.toNat ++ natLe 8 (peSlot p ((peResolve p d.verCommitted.toNat).getD 0)) ++ natLe 8 (peMaster p) ++
    natLe 8 (peState p) ++ natLe 8 (peStateSize p) ++ natLe 4 t.ident ++ natLe 1 t.etype ++ natLe 1 t.ndim ++
    natLe 1 t.shardDim ++ natLe 1 (peRule p) ++ ext ++ natLe 4 t.shardOff ++
    natLe 4 (if t.shardDim < t.ndim then tdData t t.shardDim else 0) ++ natLe 1 (fld p.entry 42 1) ++ zeros 19)

/-- Owned local rows of a table at owner `i`. -/
def ownedRows (e : List Byte) (i : Nat) : Nat :=
  if ceDist e = 0 then min (ceRowsPer e) (ceRows e - i * ceRowsPer e)
  else if ceRows e ≤ i then 0 else ceilDiv (ceRows e - i) (boxSize (ceOwnExt e))

/-- The export record of a table. -/
def exportTable (d : Dev) (n : Nat) (e : List Byte) (i : Nat) : List Byte :=
  sealRec (natLe 1 2 ++ zeros 3 ++ natLe 2 n ++ natLe 2 (ceGen e) ++ natLe 8 d.verCommitted.toNat ++
    natLe 8 d.verLastStep.toNat ++ natLe 8 d.seed.toNat ++ natLe 8 (ceBase e) ++ natLe 8 (cuMasterBase e) ++
    natLe 8 (cuStateBase e) ++ natLe 8 (ceSideBase e) ++ natLe 4 (ceSideCount e) ++ natLe 1 (fld e 36 1) ++ zeros 1 ++
    natLe 1 (ceDist e) ++ natLe 1 (cuRule e) ++ natLe 8 (ceRows e) ++
    natLe 8 (if ceDist e = 0 then i * ceRowsPer e else i) ++ natLe 8 (if ceDist e = 0 then 1 else boxSize (ceOwnExt e)) ++
    natLe 8 (ownedRows e i) ++ natLe 2 (ceDim e) ++ natLe 2 (ceStride e) ++ natLe 4 (cuStateStride e) ++
    natLe 4 (cuMasterStride e) ++ zeros 8)

/-- DZ_EXPORT_DESC (R317). -/
def hExportDesc (ch : Nat) (p : List Byte) (_o : Otp) (d : Dev) : DzRes :=
  let kind := fld p 0 1
  let side := fld p 1 1
  let n := fld p 2 2
  stepPf ch d <| dzNeed d (decide (kind = 1 ∨ kind = 2) && decide (side < 2 ∨ side = 0xFF) && zeroAt p 4 4) stExportParam <|
    if kind = 1 then
      match paramGet d n with
      | some x => dzOk d (exportParam d n x)
      | none => dzErr d stExportParam
    else
      let c := catGet d n
      let s := if side = 0xFF then c.active else side
      let e := if s < 2 then catSide c s else []
      match (if e = [] then none else ceOwnIndex d e) with
      | some i => dzNeed d (ownedRows e i != 0) stExportParam <| dzOk d (exportTable d n e i)
      | none => dzErr d stExportParam

/-- A virtual function's number. -/
def rrFn (n : Nat) : Bool := decide (1 ≤ n ∧ n ≤ 7)

/-- Classes with the offset and width of their mask in DZ_RR_ASSIGN; class 7 is the SCC. -/
def rrMasks : List (Nat × Nat × Nat) := [(1, 4, 4), (3, 8, 4), (2, 12, 2), (4, 14, 1), (5, 15, 1), (6, 16, 2), (7, 18, 1)]

/-- The keys of the masked instances. -/
def rrMasked (p : List Byte) : List Nat :=
  rrMasks.flatMap (fun m => (onesBelow 32 (fld p m.2.1 m.2.2)).map (ek m.1))

/-- The instances whose function a request changes. -/
def rrChanged (d : Dev) (f : Nat) (new : List Nat) : List Nat :=
  new.filter (fun e => smGet 0 d.rrAssign e != f) ++
    (d.rrAssign.filter (fun x => x.2 == f && !new.contains x.1)).map (·.1)

/-- DZ_RR_ASSIGN (R310). -/
def hRrAssign (ch : Nat) (p : List Byte) (o : Otp) (d : Dev) : DzRes :=
  let f := fld p 0 1
  let new := rrMasked p
  stepPf ch d <| dzNeed d (rrFn f && zeroAt p 1 3 && zeroAt p 19 5) stRrParam <|
    dzNeed d (new.all (fun e => decide (224 ≤ e) || present o (e / 32) (e % 32))) stEngineAbsent <|
    dzNeed d ((rrChanged d f new).all (fun e => !engineBusy d e && (smGet none d.streams e).isNone)) stRrBusy <|
    let back := d.rrAssign.filter (fun x => x.2 != f)
    dzOk { d with rrAssign := new.foldl (fun m e => smSet 0 m e f) back } []

/-- The running commands of a function's queues. -/
def fnCommands (d : Dev) (f : Nat) : List (Nat × Nat) :=
  d.queues.flatMap (fun x => match x.2 with
    | some v => if v.owner = f then v.running.map (fun r => (x.1, r.cmd.cseq.toNat)) else []
    | none => [])

/-- DZ_RR_WINDOW (R311): the reply waits for the commands of the function that are running. -/
def hRrWindow (ch : Nat) (p : List Byte) (_o : Otp) (d : Dev) : DzRes :=
  let f := fld p 0 1
  let a := fld p 2 1
  let b := fld p 8 8
  let n := fld p 16 8
  stepPf ch d <| dzNeed d (rrFn f && decide (fld p 1 1 < 16) && decide (a < 3) && zeroAt p 3 5 && isMul b 4096 &&
      isMul n 4096) stRrParam <|
    let w : RrWindow := if a = 0 then ⟨0, 0, 0⟩ else ⟨b, n, a⟩
    let d := { d with rrWindows := smSet ⟨0, 0, 0⟩ d.rrWindows (f * 16 + fld p 1 1) w }
    if fnCommands d f = [] then dzOk d [] else dzWait d (.rrWindow (fnCommands d f))

/-- DZ_RR_TABLES (R313). -/
def hRrTables (ch : Nat) (p : List Byte) (_o : Otp) (d : Dev) : DzRes :=
  let f := fld p 0 1
  stepPf ch d <| dzNeed d (rrFn f && zeroAt p 1 7) stRrParam <|
    let rest := d.rrTables.filter (fun x => x.1 / 4096 != f)
    let on := (List.range 4096).filter (fun t => (fld p (8 + t / 8) 1).testBit (t % 8))
    dzOk { d with rrTables := on.foldl (fun m t => smSet false m (f * 4096 + t) true) rest } []

/-- DZ_RR_TALLY (R312). -/
def hRrTally (ch : Nat) (p : List Byte) (_o : Otp) (d : Dev) : DzRes :=
  let f := fld p 0 1
  let rg := (List.range 3).map (fun i => (fld p (2 + 4 * i) 2, fld p (4 + 4 * i) 2))
  stepPf ch d <| dzNeed d (rrFn f && zeroAt p 1 1 && (List.range 3).all (fun i =>
      decide ((rg.getD i (0, 0)).1 + (rg.getD i (0, 0)).2 ≤ if i = 2 then 256 else 1024))) stRrParam <|
    dzOk { d with rrTallies := (List.range 3).foldl (fun m i => smSet (0, 0) m (f * 3 + i) (rg.getD i (0, 0))) d.rrTallies } []

/-- DZ_RR_QUERY: a virtual function may ask for its own. -/
def hRrQuery (ch : Nat) (p : List Byte) (_o : Otp) (d : Dev) : DzRes :=
  let f := fld p 0 1
  let mask := fun (m : Nat × Nat × Nat) =>
    natLe m.2.2 (ofBits ((List.range 32).map (fun i => smGet 0 d.rrAssign (ek m.1 i) == f)))
  let win := (List.range 16).flatMap (fun w =>
    let x := smGet ⟨0, 0, 0⟩ d.rrWindows (f * 16 + w)
    natLe 1 f ++ natLe 1 w ++ natLe 1 x.flags ++ zeros 5 ++ natLe 8 x.base ++ natLe 8 x.size)
  let tal := (List.range 3).flatMap (fun i =>
    let x := smGet (0, 0) d.rrTallies (f * 3 + i)
    natLe 2 x.1 ++ natLe 2 x.2)
  dzNeed d (!isVf ch || fnOf ch == f) stStepDenied <| dzNeed d (rrFn f) stRrParam <|
    dzOk d (natLe 1 f ++ zeros 3 ++ rrMasks.flatMap mask ++ zeros 5 ++ win ++ tal ++ zeros 4 ++
      natLe 512 (ofBits ((List.range 4096).map (fun t => smGet false d.rrTables (f * 4096 + t)))))

end Sys2Proof.Machine
end

