-- ==== Sys2Proof/Machine/Coll.lean ====
section
/-!
DEFINITION. Collectives (chapter 14): groups and channels (R386 to R394), reduce-scatter with its reduction table (R395 to
R399), all-gather with the versioned reads that it sends (R400, R277), all-to-all (R401), barrier (R402) and the messages of
Table 14-5.
-/

namespace Sys2Proof.Machine

/-! ### Channels -/

/-- Channel `n`, none while it is CLOSED. -/
def chGet (d : Dev) (n : Nat) : Option Chan := smGet none d.chans n
/-- Open or replace a channel. -/
def chSet (d : Dev) (n : Nat) (c : Option Chan) : Dev := { d with chans := smSet none d.chans n c }
/-- Change an open channel. -/
def chMod (d : Dev) (n : Nat) (f : Chan → Chan) : Dev := match chGet d n with
  | some c => chSet d n (some (f c))
  | none => d

/-- CL_OP. -/
def clOp (b : List Byte) : Nat := fld b 0 1
/-- CL_CHAN. -/
def clChan (b : List Byte) : Nat := fld b 1 1 % 16
/-- CL_GFMT. -/
def clGfmt (b : List Byte) : Nat := fld b 2 1 % 4
/-- CL_K. -/
def clK (b : List Byte) : Int := toSigned 8 (fld b 3 1)
/-- CL_N. -/
def clN (b : List Byte) : Nat := fld b 8 8
/-- CL_Q. -/
def clQ (b : List Byte) : Nat := fld b 16 8
/-- CL_RESULT. -/
def clResult (b : List Byte) : Nat := fld b 56 8
/-- CL_COUNTS. -/
def clCounts (b : List Byte) : Nat := fld b 64 8
/-- c: elements of a chunk (R393). -/
def chunkElems (gfmt : Nat) : Nat := if gfmt = 0 then 16 else if gfmt = 3 then 64 else 32

/-- P. -/
def chP (c : Chan) : Nat := boxSize c.group.ext
/-- The coordinate of a member. -/
def chCoord (d : Dev) (c : Chan) (i : Nat) : Nat := boxCoord d c.group.base c.group.ext i
/-- The own member index. -/
def chMe (d : Dev) (c : Chan) : Nat := (boxIndex d c.group.base c.group.ext (ownCoord d)).getD 0
/-- The destination descriptor. -/
def chDst (c : Chan) : Td := tdParse c.dst
/-- The source descriptor. -/
def chSrc (c : Chan) : Td := tdParse c.src
/-- The children of the own module in the tree rooted at a member. -/
def chChildren (d : Dev) (c : Chan) (root : Nat) : List Nat :=
  treeChildren d c.group.base c.group.ext (chCoord d c root) (ownCoord d)
/-- The parent's coordinate in that tree. -/
def chParent (d : Dev) (c : Chan) (root : Nat) : Option Nat :=
  treeParent d c.group.base c.group.ext (chCoord d c root) (ownCoord d)

/-- The result record (Table 14-2). -/
def chRecord (c : Chan) : List Byte :=
  sealRec (natLe 4 c.own ++ natLe 4 c.reduced ++ natLe 4 c.written ++ natLe 4 c.dup ++ natLe 4 c.resent ++
    natLe 4 c.nonfin ++ zeros 4)

/-- The bytes on the own module of the data positions of a destination: local address and bytes. -/
def dstBytes (d : Dev) (t : Td) : List (Nat × Nat) :=
  ((tdSpan t ((tdAll t).filter (fun i => !tdPad t i))).filter (fun r => isOwn d r.1)).map (fun r => (localOf r.1, r.2))

/-- What a failure leaves of the destination: after ST_COLL_WAIT its data is undefined (R399, Table 14-4), after a refused
read of an AGATHER the bytes already written are, each being the byte written or the one before it (R18, R400); after any
other failure the bytes stay as they are. -/
def dstLost (d : Dev) (c : Chan) (st : Nat) : Dev :=
  if clOp c.body = 4 then d
  else if st = stCollWait then (dstBytes d (chDst c)).foldl (fun d r => memLoose d r.1 r.2) d
  else c.undo.foldl (fun d u => memMix d u.1 u.2.length [u.2]) d

/-- Drop the requests that channel `n` keeps. -/
def chDrop (d : Dev) (n : Nat) : Dev :=
  let mine := fun (r : Option Req) => match r with
    | some ⟨_, .chan m, _, _, _⟩ => m == n
    | _ => false
  { d with fab := { d.fab with reqs := d.fab.reqs.filter (fun x => !mine x.2) },
           shardReqs := d.shardReqs.filter (fun s => s.chan != some n) }

/-- A channel closes with a status: a success writes the result record, a failure spoils the destination. -/
def chEnd (d : Dev) (n st : Nat) : Dev :=
  match chGet d n with
  | none => d
  | some c =>
    let d := chDrop d n
    let d := if st ≠ stOk then dstLost d c st
      else if clResult c.body = 0 then d else memWrite d (localOf (clResult c.body)) (chRecord c)
    cmdFinal (chSet d n none) c.queue c.seq st 0

/-- Write elements of the destination for a channel's command; writes to another module are awaited by the command. -/
def chWrite (d : Dev) (c : Chan) (items : List (List Int × Nat)) : Dev :=
  let x := tdWrite d (chDst c) items (.cmd c.queue c.seq)
  runMod x.1 c.queue c.seq (fun r => { r with remote := r.remote ++ x.2 })

/-- Every write of the channel's command to another module has been acknowledged. -/
def chQuiet (d : Dev) (c : Chan) : Bool :=
  match (qGet d c.queue).bind (fun v => runGet v c.seq) with
  | some r => r.remote == []
  | none => true

/-- Elements of the destination that are not finite (CR_NONFIN). -/
def nonFinite (t : Td) (items : List (List Int × Nat)) : Nat :=
  if etFloat t.etype then (items.filter (fun x => !fIsFinite (etFmt t.etype) x.2)).length else 0

/-! ### DC_COLL (R391, R392) -/

/-- R392, check 1; P is that of the group, when it is defined. -/
def clForm (d : Dev) (b : List Byte) (p : Nat) : Bool :=
  let op := clOp b
  let rs := op == 1
  let ag := op == 2
  let own := fun (a m : Nat) => isMul a m && isOwn d a
  decide (1 ≤ op ∧ op ≤ 4) && decide (fld b 1 1 < 16) && (if rs then decide (fld b 2 1 < 4) else fld b 2 1 == 0) &&
    (if rs && fld b 2 1 == 2 then decide (-64 ≤ clK b ∧ clK b ≤ 63) else fld b 3 1 == 0) && decide (fld b 4 2 < 64) &&
    (if rs || ag then clN b != 0 && isMul (clN b) 64 && decide (clN b < 2 ^ 31) && clQ b != 0 && isMul (clQ b) 64 &&
       decide (clN b ≤ p * clQ b)
     else clQ b == 0 && (op != 4 || clN b == 0)) &&
    (if op = 4 then fld b 24 8 == 0 else isOwn d (fld b 24 8)) && (if op = 3 then isOwn d (fld b 32 8) else fld b 32 8 == 0) &&
    (if ag then decide (fld b 48 2 < 4096) else fld b 40 8 == 0 && fld b 48 2 == 0) && zeroAt b 50 2 &&
    (clResult b == 0 || own (clResult b) 32) && (if op = 3 then own (clCounts b) 8 else clCounts b == 0) && zeroAt b 72 40

/-- The elements of the own slice (R396). -/
def sliceLen (b : List Byte) (i : Nat) : Nat := min (clQ b) (clN b - i * clQ b)

/-- R392, check 5. -/
def clShape (d : Dev) (b : List Byte) (me p : Nat) (dst src : Td) : Bool :=
  if clOp b = 1 then dst.ndim == 1 && decide (dst.etype ≤ 1) && tdData dst 0 == sliceLen b me
  else if clOp b = 2 then
    dst.ndim == 1 && tdData dst 0 == clN b && (match paramGet d (fld b 48 2) with
      | some x => (peTd x).etype == dst.etype
      | none => decide (dst.etype ≤ 2))
  else if clOp b = 3 then
    dst.ndim == 2 && src.ndim == 2 && dst.etype == src.etype && nth dst.ext 0 == nth src.ext 0 &&
      tdData dst 0 == tdData src 0 && tdData dst 1 == p * clN b && tdData src 1 == p * clN b
  else true

/-- An open channel that has done nothing. -/
def chan0 (q sq fn : Nat) (g : Group) (b dst src : List Byte) : Chan :=
  { queue := q, seq := sq, fn := fn, opseq := fld b 6 2, group := g, body := b, dst := dst, src := src, table := [],
    closed := [], sent := [], left := [], rows := [], counts := [], tokens := [], own := 0, reduced := 0, written := 0,
    dup := 0, resent := 0, nonfin := 0, undo := [] }

/-- Where the destination descriptor stands; BARRIER has none. -/
def clDstA (b : List Byte) : Nat := if clOp b = 4 then 0 else fld b 24 8
/-- Where the source descriptor of an ALLTOALL stands. -/
def clSrcA (b : List Byte) : Nat := if clOp b = 3 then fld b 32 8 else 0
/-- The destination descriptor of a DC_COLL. -/
def clDst (d : Dev) (r : Running) : List Byte := if clOp r.cmd.body = 4 then [] else recAt d r (clDstA r.cmd.body) 128
/-- The source descriptor of a DC_COLL. -/
def clSrc (d : Dev) (r : Running) : List Byte := if clOp r.cmd.body = 3 then recAt d r (clSrcA r.cmd.body) 128 else []
/-- The descriptors that a DC_COLL names. -/
def clRecs (b : List Byte) : List (Nat × Nat) :=
  (if clOp b = 4 then [] else [(clDstA b, 128)]) ++ (if clOp b = 3 then [(clSrcA b, 128)] else [])

/-- Checks 1 to 3 of R392: the first status that applies, stOk for none. -/
def collForm (d : Dev) (b : List Byte) (grp : Option Group) : Nat :=
  let p := match grp with
    | some g => boxSize g.ext
    | none => 2 ^ 20
  firstBad [(clForm d b p, stCollParam),
    ((grp.bind (fun g => boxIndex d g.base g.ext (ownCoord d))).isSome, stCollGroup),
    (clOp b != 1 || decide (clN b / chunkElems (clGfmt b) ≤ 8 * (smGet (0, 0) d.collAreas (clChan b)).2), stCollArea)]

/-- Checks 4 and 5 of R392 from row 3 of Table 3-9 on, row by row over the descriptors, the window check of R311 just before
the last row; `s` and `t` are the source and the destination where the operation has them. -/
def collStatus (d : Dev) (fn : Nat) (r : Running) (g : Group) : Nat :=
  let b := r.cmd.body
  let t := tdParse (clDst d r)
  let s := tdParse (clSrc d r)
  let dst := fun ok => clOp b == 4 || ok
  let src := fun ok => clOp b != 3 || ok
  let p := boxSize g.ext
  firstBad [
    (dst (tdAlign (clDstA b) t) && src (tdAlign (clSrcA b) s), stTdAlign),
    (dst (tdRsvd t) && src (tdRsvd s), stTdRsvd), (dst (tdPack t) && src (tdPack s), stTdPack),
    (dst (tdShape t && !t.blk) && src (tdShape s && !s.blk), stTdShape), (dst (tdAlias t), stTdAlias),
    (dst (!t.padStore || r.cmd.ctl.testBit 5), stTdOrder),
    (dst (tdWindow d fn t true) && src (tdWindow d fn s false && windowOk d fn (clCounts b) (8 * p) true) &&
      (clResult b == 0 || windowOk d fn (clResult b) 32 true), stRrWindow),
    (dst (tdMapped d t true) && src (tdMapped d s false && ownMapped d (clCounts b) (8 * p)) &&
      (clResult b == 0 || ownMapped d (clResult b) 32), stAddrUnmapped),
    (clShape d b ((boxIndex d g.base g.ext (ownCoord d)).getD 0) p t s, stCollShape)]

/-- The operation is at work on its channel. -/
def collAtWork (r : Running) : Bool := r.work == [1]

/-- Read the descriptors once, with their CRCs (R77, R412); `rr` gives the reads that fail. A command judges them once. -/
def collRead (o : Otp) (d : Dev) (r : Running) (rr : Nat) : Dev × Bool :=
  if r.work = [2] then (d, true) else recsRead o d r (clRecs r.cmd.body) 0 rr

/-- A DC_COLL with one of the CL_OP that `ops` accepts: a command that passes the checks of R392 goes on with `f`, which opens
its channel. -/
def collOpen (o : Otp) (d : Dev) (q rr : Nat) (ops : Nat → Bool) (f : Dev → Nat → Chan → Running → Dev) : Dev :=
  onActive d q (fun r => r.cmd.op == 0x38 && ops (clOp r.cmd.body) && !collAtWork r) (fun d v r =>
    let b := r.cmd.body
    let sq := r.cmd.cseq.toNat
    let grp := smGet none d.groups (fld b 4 2)
    let st := firstBad [(collForm d b grp == stOk, collForm d b grp),
      (recStatus d v.owner (clRecs b) == stOk, recStatus d v.owner (clRecs b))]
    match grp with
    | none => cmdFinal d q sq st 0
    | some g =>
      if st ≠ stOk then cmdFinal d q sq st 0
      else cmdOnce d q r (clRecs b) (fun d r =>
        let rd := collRead o d r rr
        if !rd.2 then cmdFinal rd.1 q sq stTdCrc 0
        else
          let d := runMod rd.1 q sq (fun x => { x with started := true, work := [2] })
          let st := collStatus d v.owner r g
          if st ≠ stOk then cmdFinal d q sq st 0
          else f d (clChan b) (chan0 q sq v.owner g b (clDst d r) (clSrc d r)) r))

/-- The bytes of the channel area that hold the closed map of an operation (R390, R395). -/
def closedBytes (c : Chan) : Nat := ceilDiv (clN c.body / chunkElems (clGfmt c.body)) 8

/-- Open a command's channel: the closed map of an RSCAT is cleared in its area, and TD_PAD_STORE = 1 has the pads of the
destination written (R83). -/
def collStart (d : Dev) (n : Nat) (c : Chan) : Dev :=
  let d := runMod (chDrop d n) c.queue c.seq (fun r => { r with work := [1] })
  let d := if clOp c.body = 1 then memZero d (smGet (0, 0) d.collAreas n).1 (closedBytes c) else d
  let d := chSet d n (some c)
  if clOp c.body = 4 then d
  else chWrite d c (((tdAll (chDst c)).filter (tdPad (chDst c))).map (fun i => (i, 0)))

/-- The closed-map bit of a chunk, in its area: bit `q % 8` of byte `q / 8` (log 163). -/
def closedPut (d : Dev) (n q : Nat) : Dev :=
  let a := (smGet (0, 0) d.collAreas n).1 + q / 8
  memWrite d a [byteAt d a ||| BitVec.ofNat 8 (2 ^ (q % 8))]

/-! ### Reduce-scatter (R393 to R399) -/

/-- The owner of a chunk. -/
def chunkOwner (c : Chan) (q : Nat) : Nat := chunkElems (clGfmt c.body) * q / clQ c.body

/-- Encode values for the wire (Table 2-6): bytes, scale, flags. -/
def rsEncode (gfmt : Nat) (k : Int) (m : Nat) (hash : Nat → Nat) (vs : List Nat) : List Byte × Nat × Nat :=
  let js := List.range vs.length
  if gfmt = 0 then (vs.flatMap (natLe 4), 0, 0)
  else if gfmt = 1 then
    let r := js.map (fun j =>
      let x := readOp fp32 m (nth vs j)
      let y := narrow bf16 m (hash j) x.1
      (y.1, y.2 ||| x.2))
    (r.flatMap (fun x => natLe 2 x.1), 0, r.foldl (fun a x => a ||| x.2) 0)
  else if gfmt = 2 then
    let r := js.map (fun j => scaledEncode m (hash j) k (nth vs j))
    (r.flatMap (fun x => natLe 2 x.1), 0, r.foldl (fun a x => a ||| x.2) 0)
  else
    let r := blockEncode m hash vs
    (r.1.map (BitVec.ofNat 8), r.2.1, r.2.2)

/-- Decode a chunk (R396). -/
def rsDecode (gfmt : Nat) (k : Int) (bs : List Byte) (scale : Nat) : List Nat :=
  (List.range (chunkElems gfmt)).map (fun j =>
    if gfmt = 0 then fld bs (4 * j) 4
    else if gfmt = 1 then bf16to32 (fld bs (2 * j) 2)
    else if gfmt = 2 then scaledDecode k (fld bs (2 * j) 2)
    else blockDecode (fld bs j 1) scale)

/-- The entries of the reduction table that an open chunk takes (R397): one, in deterministic mode one for each
contribution. -/
def rsTakes (d : Dev) (e : RsEntry) : Nat := if d.fab.det then e.got.length else 1

/-- The entries that the chunks of all channels take that satisfy `p`, given the channel too. -/
def rsCount (d : Dev) (p : Chan → RsEntry → Bool) : Nat :=
  ((d.chans.flatMap (fun x => match x.2 with
    | some c => c.table.filter (p c)
    | none => [])).map (rsTakes d)).foldl (· + ·) 0

/-- Entries of the reduction table in use (R397). -/
def rsUsed (d : Dev) : Nat := rsCount d (fun _ _ => true)

/-- Those of chunks that the module's own drains opened, for which 4,096 entries are reserved. -/
def rsUsedOwn (d : Dev) : Nat := rsCount d (fun c e => (e.got.head?.map (·.1)) == some (chMe d c))

/-- A child's packet may take a new entry: one is free beside those that stay reserved for own drains (R397). -/
def rsChildRoom (d : Dev) : Bool := decide (rsUsed d + (4096 - min 4096 (rsUsedOwn d)) < 32768)

/-- Something stalls or is refused for want of an entry: CL_PC_FULL counts the cycles during which none is free, a free value
(log 85). -/
def tableFull (d : Dev) : Dev :=
  if 32768 ≤ rsUsed d then bump (pcAdd d (kColl + 4) (Config.freeCount d.freeIdx).toNat) else d

/-- The sum of a complete entry in the order of R389. -/
def rsSum (d : Dev) (c : Chan) (e : RsEntry) : List Nat :=
  let need := chMe d c :: chChildren d c (chunkOwner c e.chunk)
  let vs := if d.fab.det then need.filterMap (fun i => (e.got.find? (fun g => g.1 == i)).map (·.2)) else e.got.map (·.2)
  match vs with
  | [] => []
  | v :: t => t.foldl (fun a b => (List.range a.length).map (fun j => addF (nth a j) (nth b j))) v

/-- RSCAT is done when every chunk has left the node and every packet and write is acknowledged (R399). -/
def rsSettle (d : Dev) (n : Nat) : Dev :=
  match chGet d n with
  | some c =>
    if clOp c.body = 1 ∧ c.sent = [] ∧ clN c.body / chunkElems (clGfmt c.body) ≤ c.closed.length ∧ chQuiet d c then
      chEnd d n stOk
    else d
  | none => d

/-- The payload of one chunk. -/
def rsPayload (x : List Byte × Nat × Nat) (gfmt : Nat) : List Byte :=
  padTo 64 x.1 ++ (if gfmt = 3 then padTo 64 (natLe 4 x.2.1) else [])

/-- A complete chunk leaves the node: written to the slice by its owner, else encoded and sent to the parent. -/
def rsLeave (d : Dev) (n : Nat) (c : Chan) (e : RsEntry) : Dev :=
  let g := clGfmt c.body
  let own := chunkOwner c e.chunk
  let v := rsSum d c e
  let d := closedPut (pcAdd d kColl 1) n e.chunk
  let c := { c with table := c.table.filter (fun x => x.chunk != e.chunk), closed := smSet false c.closed e.chunk true,
                    reduced := c.reduced + 1 }
  if own = chMe d c then
    let t := chDst c
    let e0 := chunkElems g * e.chunk - own * clQ c.body
    let items : List (List Int × Nat) := ((List.range v.length).filter (fun j => decide (e0 + j < tdData t 0))).map (fun j =>
      ([((nth t.padLo 0 + e0 + j : Nat) : Int)], if t.etype = 1 then fEnc bf16 (fDecode fp32 (nth v j)) else nth v j))
    chSet (chWrite d c items) n (some { c with written := c.written + 1, nonfin := c.nonfin + nonFinite t items })
  else match chParent d c own with
    | none => chSet d n (some c)
    | some p =>
      let body := natLe 4 e.chunk ++ natLe 2 c.opseq ++ natLe 1 (n + g * 16) ++ natLe 1 1
      let x := sendReq d 0x20 p body (rsPayload (rsEncode g (clK c.body) 4 (fun _ => 0) v) g) (.chan n) 0
      chSet x.1 n (some { c with sent := c.sent ++ [x.2] })

/-- A contribution of a member enters the table; a chunk that is then complete leaves. An entry of the table that is lost ends
the operation (R413). -/
def rsEnter (d : Dev) (n q member : Nat) (v : List Nat) : Dev :=
  let u := ctlUse d 8 n
  let d := u.1
  match chGet d n with
  | none => d
  | some c =>
    if u.2 then chEnd d n stCtlLost else
    let old := (c.table.find? (fun e => e.chunk == q)).getD ⟨q, []⟩
    let e : RsEntry := { old with got := old.got ++ [(member, v)] }
    let c := { c with table := c.table.filter (fun x => x.chunk != q) ++ [e] }
    let need := chMe d c :: chChildren d c (chunkOwner c q)
    if need.all (fun i => e.got.any (fun g => g.1 == i)) then rsLeave d n c e else chSet d n (some c)

/-- A chunk is a duplicate from a member (R398). -/
def rsDup (c : Chan) (q member : Nat) : Bool :=
  smGet false c.closed q || (match c.table.find? (fun e => e.chunk == q) with
    | some e => e.got.any (fun g => g.1 == member)
    | none => false)

/-- A chunk of a child may be entered now: the chunk is open, or an entry is free for it (R397). -/
def rsRoom (d : Dev) (c : Chan) (q : Nat) : Bool := c.table.any (fun e => e.chunk == q) || rsChildRoom d

/-- RSCAT (R395): the channel opens for drains. A reserved CL_OP fails here. -/
def rscatDev (q rr : Nat) (o : Otp) (d : Dev) : Dev :=
  collOpen o d q rr (fun op => op != 2 && op != 3 && op != 4) (fun d n c _ => collStart d n c)

/-- RSCAT. -/
def execRscat (x : CollRun) (s : State) : Host.Outcome State Fault Refusal := runDev (rscatDev x.queue x.fails) s

/-- What the receiver of a collective packet finds (R394): 0 process, 1 refuse, 2 stray. A packet of another operation than the
channel's own, with the channel's CL_OPSEQ, is a stray (DEDUCED, log 161). -/
def chMatch (d : Dev) (n op seq : Nat) : Nat :=
  match chGet d n with
  | none => 1
  | some c =>
    if c.opseq = seq ∧ clOp c.body = op then 0
    else if 1 ≤ subMod 65536 seq c.opseq ∧ subMod 65536 seq c.opseq ≤ 32767 then 1 else 2

/-- Process a packet of an operation, refuse it, or drop it as a stray (R394). -/
def onChan (d : Dev) (p : Pkt) (n op seq : Nat) (f : Dev → Chan → Dev) : Dev :=
  match chMatch d n op seq, chGet d n with
  | 0, some c => f d c
  | 1, _ => sendRefuse d p stCollClosed
  | _, _ => pcAdd d (kColl + 3) 1

/-- The chunks of an RS_CHUNK packet with their values, decoded as R396 says. -/
def rsChunks (c : Chan) (p : Pkt) : List (Nat × List Nat) :=
  let b := p.body
  let cnt := fld b 7 1
  (List.range cnt).map (fun i => (fld b 0 4 + i, rsDecode (bits (fld b 6 1) 4 2) (clK c.body)
    ((p.payload.drop (64 * i)).take 64) (fld p.payload (64 * cnt + 4 * i) 4)))

/-- Take a chunk of member `m`: a duplicate is counted, one that finds no table entry is noted, any other is entered. -/
def rsTake (n m : Nat) (a : Dev × Nat × Bool) (x : Nat × List Nat) : Dev × Nat × Bool :=
  match chGet a.1 n with
  | none => a
  | some c =>
    if rsDup c x.1 m then (a.1, a.2.1 + 1, a.2.2)
    else if !rsRoom a.1 c x.1 then (a.1, a.2.1, true)
    else (rsEnter a.1 n x.1 m x.2, a.2.1, a.2.2)

/-- RS_CHUNK (R396 to R398): every chunk is entered or found to be a duplicate, and the packet acknowledged; a new entry that
the table cannot give refuses it. -/
def rsChunkDev (_o : Otp) (d : Dev) : Dev :=
  onPacket d 0x20 (fun d _ p =>
    let n := fld p.body 6 1 % 16
    onChan d p n 1 (fld p.body 4 2) (fun d c =>
      match boxIndex d c.group.base c.group.ext p.src with
      | none => pcAdd d (kColl + 3) 1
      | some m =>
        let r := (rsChunks c p).foldl (rsTake n m) (d, 0, false)
        let d := chMod r.1 n (fun c => { c with dup := c.dup + r.2.1 })
        let d := if (chGet d n).isNone then sendRefuse d p stCollClosed
          else if r.2.2 then sendRefuse (tableFull d) p stCollFull
          else sendNew d 0x21 p.src p.tag (p.body.take 8 ++ natLe 1 (if r.2.1 = 0 then 0 else 1)) []
        rsSettle d n))

/-- RS_CHUNK. -/
def execRsChunk (s : State) : Host.Outcome State Fault Refusal := runDev rsChunkDev s

/-- The channel that keeps a request. -/
def reqChan (d : Dev) (t : Nat) : Option (Nat × Req) :=
  match reqGet d t with
  | some r => match r.issuer with
    | .chan n => some (n, r)
    | _ => none
  | none => none

/-- A channel's request has been answered. -/
def chAnswered (d : Dev) (n t : Nat) : Dev :=
  chMod (reqSet d t none) n (fun c => { c with sent := c.sent.filter (· != t) })

/-- An acknowledgement of operation `op`: it answers the packet of kind `k` that a channel keeps, else R394 says what becomes of
it, its body naming the channel and CL_OPSEQ as the acknowledged packet did. -/
def onAck (d : Dev) (p : Pkt) (k op : Nat) (f : Dev → Nat → Dev) : Dev :=
  match reqChan d p.tag with
  | some (n, r) =>
    if r.pkt.kind = k ∧ r.pkt.dst = p.src then f (chAnswered d n p.tag) n
    else onChan d p (fld p.body 6 1 % 16) op (fld p.body 4 2) (fun d _ => d)
  | none => onChan d p (fld p.body 6 1 % 16) op (fld p.body 4 2) (fun d _ => d)

/-- RS_ACK (R398, R399). -/
def rsAckDev (_o : Otp) (d : Dev) : Dev := onPacket d 0x21 (fun d _ p => onAck d p 0x20 1 rsSettle)

/-- RS_ACK. -/
def execRsAck (s : State) : Host.Outcome State Fault Refusal := runDev rsAckDev s

/-- Send a channel's request again: CL_PC_RESEND and CR_RESENT count it. -/
def chResend (d : Dev) (n t : Nat) (r : Req) : Dev :=
  let d := reqSet (pcAdd d (kColl + 2) 1) t (some { r with waiting := false })
  sendPkt (chMod d n (fun c => { c with resent := c.resent + 1 })) r.pkt

/-- RS_CHUNK_ACK_TIMEOUT (R398): the packet with tag `t` is sent again. -/
def rsTimeoutDev (t : Nat) (_o : Otp) (d : Dev) : Dev :=
  match reqChan d t with
  | some (n, r) => if r.pkt.kind = 0x20 ∧ !r.waiting then chResend d n t r else d
  | none => d

/-- RS_CHUNK_ACK_TIMEOUT. -/
def execRsChunkAckTimeout (t : Nat) (s : State) : Host.Outcome State Fault Refusal := runDev (rsTimeoutDev t) s

/-- COLL_REFUSE_RESEND (R394, R397): a refused packet is sent again. -/
def collResendDev (t : Nat) (_o : Otp) (d : Dev) : Dev :=
  match reqChan d t with
  | some (n, r) => if r.waiting then chResend d n t r else d
  | none => d

/-- COLL_REFUSE_RESEND. -/
def execCollRefuseResend (t : Nat) (s : State) : Host.Outcome State Fault Refusal := runDev (collResendDev t) s

/-- COLL_PROGRESS_LIMIT (R399): the operation on channel `n` fails. -/
def collLimitDev (n : Nat) (_o : Otp) (d : Dev) : Dev := chEnd d n stCollWait

/-- COLL_PROGRESS_LIMIT. -/
def execCollProgressLimit (n : Nat) (s : State) : Host.Outcome State Fault Refusal := runDev (collLimitDev n) s

/-! ### Versioned reads and all-gather (R277, R314, R400) -/

/-- What stands on the own module where a write of destination positions goes. -/
def dstNow (d : Dev) (t : Td) (is : List (List Int)) : List (Nat × List Byte) :=
  ((tdSpan t is).filter (fun r => isOwn d r.1)).map (fun r => (localOf r.1, memRead d (localOf r.1) r.2))

/-- Bytes of a gather have come to offset `off` of the destination. -/
def agStore (d : Dev) (n off : Nat) (bs : List Byte) : Dev :=
  match chGet d n with
  | none => d
  | some c =>
    let t := chDst c
    let w := etBits t.etype / 8
    let items : List (List Int × Nat) := (List.range (bs.length / w)).map (fun j =>
      ([((nth t.padLo 0 + off / w + j : Nat) : Int)], fld bs (w * j) w))
    chMod (chWrite d c items) n (fun c => { c with written := c.written + bs.length, nonfin := c.nonfin + nonFinite t items,
                                                   undo := c.undo ++ dstNow d t (items.map (·.1)) })

/-- AGATHER is done when every byte is written, and acknowledged where it is not the own module's. -/
def agSettle (d : Dev) (n : Nat) : Dev :=
  match chGet d n with
  | some c => if clOp c.body = 2 ∧ c.sent = [] ∧ c.left = [] ∧ chQuiet d c then chEnd d n stOk else d
  | none => d

/-- Refuse a versioned read: a gather of the own module fails with the status. -/
def shardRefuse (d : Dev) (r : ShardReq) (st : Nat) : Dev :=
  match r.chan with
  | some n => chEnd d n st
  | none => sendNew d 0x05 r.src r.tag (natLe 2 st) []

/-- Serve a read whose version is resolvable (R276, R277, R314). A read beyond the working copy names no byte of it; a tenant's
read needs a slot that holds the version exactly (log 156). -/
def shardServe (d : Dev) (r : ShardReq) : Dev :=
  let d := paramUse d r.param
  match paramGet d r.param with
  | none => shardRefuse d r stVerGone
  | some p =>
    match peResolve p r.version with
    | none => shardRefuse d r stVerGone
    | some i =>
      let ok := !r.vf || (match peSlotSt p i with
        | some s => s.exact != 0 && slotExact r.version s
        | none => false)
      if !ok then shardRefuse d r stVerGone
      else if peN p * peWidth p < r.off + r.len then shardRefuse d r stAddrUnmapped
      else
        let bs := memRead d (peSlot p i + r.off) r.len
        match r.chan with
        | none => sendNew d 0x13 r.src r.tag (natLe 2 r.param ++ natLe 2 r.len ++ natLe 8 r.off) bs
        | some n =>
          let at' := match chGet d n with
            | some c => chMe d c * clQ c.body * (etBits (chDst c).etype / 8) + r.off
            | none => 0
          let d := chMod (agStore d n at' bs) n (fun c => { c with left := c.left.filter (fun x => x.1 != r.off) })
          agSettle d n

/-- A versioned read at its owner: served, or held until its version is resolvable. -/
def shardArrive (d : Dev) (r : ShardReq) : Dev :=
  if d.verCommitted.toNat < r.version then { d with shardReqs := d.shardReqs ++ [r] } else shardServe d r

/-- SHARD_READ (R277). -/
def shardReadDev (_o : Otp) (d : Dev) : Dev :=
  onPacket d 0x12 (fun d _ p =>
    shardArrive d ⟨none, p.src, p.tag, fld p.body 0 2, fld p.payload 0 8, fld p.body 4 8, fld p.body 2 2,
      (fld p.payload 8 1).testBit 0⟩)

/-- SHARD_READ. -/
def execShardRead (s : State) : Host.Outcome State Fault Refusal := runDev shardReadDev s

/-- SHARD_READ_RESOLVE (R277): the first held read whose version has been committed. -/
def shardResolveDev (_o : Otp) (d : Dev) : Dev :=
  match d.shardReqs.find? (fun r => decide (r.version ≤ d.verCommitted.toNat)) with
  | none => d
  | some r => shardServe { d with shardReqs := d.shardReqs.erase r } r

/-- SHARD_READ_RESOLVE. -/
def execShardReadResolve (s : State) : Host.Outcome State Fault Refusal := runDev shardResolveDev s

/-- SHARD_READ_WAIT_EXPIRY (R277): the held read number `n`, if its version is still to come. -/
def shardExpiryDev (n : Nat) (_o : Otp) (d : Dev) : Dev :=
  match (d.shardReqs.filter (fun r => decide (d.verCommitted.toNat < r.version)))[n]? with
  | none => d
  | some r => shardRefuse { d with shardReqs := d.shardReqs.erase r } r stVerWait

/-- SHARD_READ_WAIT_EXPIRY. -/
def execShardReadWaitExpiry (n : Nat) (s : State) : Host.Outcome State Fault Refusal := runDev (shardExpiryDev n) s

/-- SHARD_DATA (R400). -/
def shardDataDev (_o : Otp) (d : Dev) : Dev :=
  onPacket d 0x13 (fun d _ p =>
    match reqChan d p.tag with
    | some (n, r) => agSettle (agStore (chAnswered d n p.tag) n r.off (p.payload.take (fld p.body 2 2))) n
    | none => d)

/-- SHARD_DATA. -/
def execShardData (s : State) : Host.Outcome State Fault Refusal := runDev shardDataDev s

/-- The pieces of a byte range, 1,024 bytes at a time. -/
def pieces (n : Nat) : List (Nat × Nat) := (List.range (ceilDiv n 1024)).map (fun i => (1024 * i, min 1024 (n - 1024 * i)))

/-- The first status that bars the fabric for members other than the own. -/
def collBar (d : Dev) (c : Chan) : Option Nat :=
  (List.range (chP c)).findSome? (fun i => if i = chMe d c then none else remoteBar d (chCoord d c i))

/-- The version that an AGATHER names; all ones names VER_COMMITTED. -/
def gatherVer (d : Dev) (b : List Byte) : Nat := if fld b 40 8 = 2 ^ 64 - 1 then d.verCommitted.toNat else fld b 40 8

/-- Bytes of an element of a channel's destination. -/
def gatherWidth (c : Chan) : Nat := etBits (chDst c).etype / 8

/-- The reads of member `i`'s share (R400). -/
def gatherAsk (n : Nat) (c : Chan) (ver : Nat) (d : Dev) (i : Nat) : Dev :=
  let b := c.body
  let w := gatherWidth c
  (pieces (sliceLen b i * w)).foldl (fun d x =>
    let r := sendReq d 0x12 (chCoord d c i) (natLe 2 (fld b 48 2) ++ natLe 2 x.2 ++ natLe 8 x.1)
      (padTo 64 (natLe 8 ver ++ natLe 1 (c.fn != 0).toNat)) (.chan n) (i * clQ b * w + x.1)
    chMod r.1 n (fun c => { c with sent := c.sent ++ [r.2] })) d

/-- The own share, read locally under the same rule (R400). -/
def gatherOwn (n : Nat) (c : Chan) (ver : Nat) (d : Dev) : Dev :=
  (pieces (sliceLen c.body (chMe d c) * gatherWidth c)).foldl (fun d x => match chGet d n with
    | some _ => shardArrive d ⟨some n, ownCoord d, 0, fld c.body 48 2, ver, x.1, x.2, c.fn != 0⟩
    | none => d) d

/-- AGATHER (R400): reads of every member's share, the own share locally. -/
def agatherDev (q rr : Nat) (o : Otp) (d : Dev) : Dev :=
  collOpen o d q rr (· == 2) (fun d n c _ =>
    match collBar d c with
    | some st => cmdFinal d c.queue c.seq st 0
    | none =>
      let d := verUse d
      let ver := gatherVer d c.body
      let me := chMe d c
      let own := sliceLen c.body me * gatherWidth c
      let d := collStart d n { c with left := pieces own, own := own }
      agSettle (gatherOwn n c ver (((List.range (chP c)).filter (· != me)).foldl (gatherAsk n c ver) d)) n)

/-- AGATHER. -/
def execAgather (x : CollRun) (s : State) : Host.Outcome State Fault Refusal := runDev (agatherDev x.queue x.fails) s

/-! ### All-to-all (R401) -/

/-- The view index of element `j` of data row `r`. -/
def a2aIdx (t : Td) (r j : Nat) : List Int := [((nth t.padLo 0 + j : Nat) : Int), ((nth t.padLo 1 + r : Nat) : Int)]

/-- Pack elements of `n` bits. -/
def elemPack (n : Nat) (vs : List Nat) : List Byte :=
  if n = 4 then (List.range (vs.length / 2)).map (fun i => BitVec.ofNat 8 (nth vs (2 * i) + 16 * nth vs (2 * i + 1)))
  else vs.flatMap (natLe (n / 8))

/-- Element `j` of packed bytes. -/
def elemAt (n : Nat) (bs : List Byte) (j : Nat) : Nat :=
  if n = 4 then bits (fld bs (j / 2) 1) (4 * (j % 2)) 4 else fld bs (n / 8 * j) (n / 8)

/-- Bytes of a row. -/
def a2aRow (t : Td) : Nat := tdData t 0 * etBits t.etype / 8

/-- Rows in one packet. -/
def a2aRows (t : Td) : Nat := max 1 (1024 / max 1 (a2aRow t))

/-- Pieces of 1,024 bytes that a row takes: a row that no packet can hold goes in several, each packet with its number in the
bits of its body above the channel (DESIGN CHOICE, log 162). -/
def a2aPieces (t : Td) : Nat := max 1 (ceilDiv (a2aRow t) 1024)

/-- Elements in a piece of 1,024 bytes. -/
def a2aPer (t : Td) : Nat := 8192 / etBits t.etype

/-- The elements of piece `k` of `rows` rows, as (row, element of the row). -/
def a2aSpots (t : Td) (k rows : Nat) : List (Nat × Nat) :=
  let w := tdData t 0
  let lo := k * a2aPer t
  let n := if a2aPieces t = 1 then w else min (a2aPer t) (w - lo)
  (List.range (rows * n)).map (fun x => (x / n, lo + x % n))

/-- Store piece `k` of `rows` rows of member `i` from row `first` of its block, and note them. -/
def a2aStore (d : Dev) (n : Nat) (c : Chan) (i first k rows : Nat) (bs : List Byte) : Dev :=
  let t := chDst c
  let items : List (List Int × Nat) := (a2aSpots t k rows).zipIdx.map (fun x =>
    (a2aIdx t (i * clN c.body + first + x.1.1) x.1.2, elemAt (etBits t.etype) bs x.2))
  chMod (chWrite d c items) n (fun c => { c with nonfin := c.nonfin + nonFinite t items })

/-- ALLTOALL is done when every block has been acknowledged and has arrived, and every write is acknowledged; the receive
counts are written. -/
def a2aSettle (d : Dev) (n : Nat) : Dev :=
  match chGet d n with
  | none => d
  | some c =>
    let p := chP c
    let w := a2aPieces (chDst c)
    let all := (List.range p).all (fun i =>
      smGet 0 c.counts i != 0 && decide ((smGet 0 c.counts i - 1) * w ≤ smGet 0 c.rows i))
    if clOp c.body = 3 ∧ c.sent = [] ∧ all ∧ chQuiet d c then
      chEnd (memWrite d (localOf (clCounts c.body) + 4 * p)
        ((List.range p).flatMap (fun i => natLe 4 (smGet 0 c.counts i - 1)))) n stOk
    else d

/-- The source bytes of piece `k` of `rows` rows from data row `r`. -/
def a2aBytes (d : Dev) (rb : RBuf) (t : Td) (r k rows : Nat) : List Byte :=
  elemPack (etBits t.etype) ((a2aSpots t k rows).map (fun x => tdRead d rb t (a2aIdx t (r + x.1) x.2)))

/-- Where the send counts stand. -/
def a2aCounts (b : List Byte) (p : Nat) : List (Nat × Nat) := [(clCounts b, 4 * p)]

/-- The send count of member `i` (R401), of the copy that the command has read at the start. -/
def a2aCount (d : Dev) (rb : RBuf) (b : List Byte) (i : Nat) : Nat := leNat (gaRead d rb (clCounts b + 4 * i) 4)

/-- Note `k` pieces of rows of a block of `s` rows of member `i`, `whole` of which end a row. -/
def a2aNote (c : Chan) (i k s whole : Nat) : Chan :=
  { c with rows := smMod 0 c.rows i (· + k), counts := smSet 0 c.counts i (s + 1), written := c.written + whole }

/-- The packets of the block for member `i`, `cnt` rows. -/
def a2aSend (n : Nat) (c : Chan) (rb : RBuf) (cnt : Nat → Nat) (d : Dev) (i : Nat) : Dev :=
  let t := chSrc c
  let w := a2aPieces t
  let k := a2aRows t
  (List.range (max 1 (ceilDiv (cnt i) k * w))).foldl (fun d f =>
    let first := f / w * k
    let x := sendReq d 0x28 (chCoord d c i)
      (natLe 4 first ++ natLe 2 c.opseq ++ natLe 2 (n + 16 * (f % w)) ++ natLe 4 (cnt i))
      (a2aBytes d rb t (i * clN c.body + first) (f % w) (min k (cnt i - first))) (.chan n) 0
    chMod x.1 n (fun c => { c with sent := c.sent ++ [x.2] })) d

/-- The source elements that the blocks name. -/
def a2aNeeds (c : Chan) (cnt : Nat → Nat) : List (Nat × Nat) :=
  let t := chSrc c
  tdRanges t (((List.range (chP c)).flatMap (fun i => (List.range (cnt i)).map (fun k => i * clN c.body + k))).flatMap
    (fun x => (List.range (tdData t 0)).map (fun j => a2aIdx t x j)))

/-- The own block, from the source to the destination. -/
def a2aOwn (n : Nat) (rb : RBuf) (cnt : Nat → Nat) (d : Dev) (c : Chan) : Dev :=
  let me := chMe d c
  let w := a2aPieces (chSrc c)
  let d := chMod d n (fun c => { a2aNote c me (cnt me * w) (cnt me) (cnt me) with own := chP c })
  (List.range w).foldl (fun d k =>
    a2aStore d n c me 0 k (cnt me) (a2aBytes d rb (chSrc c) (me * clN c.body) k (cnt me))) d

/-- ALLTOALL (R401). -/
def alltoallDev (q rr : Nat) (o : Otp) (d : Dev) : Dev :=
  collOpen o d q rr (· == 3) (fun d n c r =>
    cmdOnce d q r (a2aCounts c.body (chP c)) (fun d r =>
      let cnt := a2aCount d r.rbuf c.body
      if (List.range (chP c)).any (fun i => decide (clN c.body < cnt i)) then cmdFinal d c.queue c.seq stCollShape 0
      else match collBar d c with
        | some st => cmdFinal d c.queue c.seq st 0
        | none =>
          cmdNeed d q r (a2aNeeds c cnt) <|
            let d := ((List.range (chP c)).filter (· != chMe d c)).foldl (a2aSend n c r.rbuf cnt) (collStart d n c)
            a2aSettle (a2aOwn n r.rbuf cnt d c) n))

/-- ALLTOALL. -/
def execAlltoall (x : CollRun) (s : State) : Host.Outcome State Fault Refusal := runDev (alltoallDev x.queue x.fails) s

/-- The block names rows of the destination, with the bytes that they take. -/
def a2aForm (c : Chan) (p : Pkt) : Bool :=
  let first := fld p.body 0 4
  let s := fld p.body 8 4
  decide (first ≤ s ∧ s ≤ clN c.body) && decide (fld p.body 6 2 / 16 < a2aPieces (chDst c)) &&
    p.len == ceilDiv ((a2aSpots (chDst c) (fld p.body 6 2 / 16) (min (a2aRows (chDst c)) (s - first))).length *
      etBits (chDst c).etype) 512

/-- A2A_BLOCK (R401). One that names no rows of the destination has a value out of its range (log 158). -/
def a2aBlockDev (_o : Otp) (d : Dev) : Dev :=
  onPacket d 0x28 (fun d port p =>
    let b := p.body
    let n := fld b 6 1 % 16
    onChan d p n 3 (fld b 4 2) (fun d c =>
      match boxIndex d c.group.base c.group.ext p.src with
      | none => pcAdd d (kColl + 3) 1
      | some i =>
        if !a2aForm c p then pktBad d port
        else
          let first := fld b 0 4
          let s := fld b 8 4
          let k := fld b 6 2 / 16
          let rows := min (a2aRows (chDst c)) (s - first)
          let d := chMod (a2aStore d n c i first k rows p.payload) n (fun c =>
            a2aNote c i rows s (if k + 1 = a2aPieces (chDst c) then rows else 0))
          a2aSettle (sendNew d 0x29 p.src p.tag p.body []) n))

/-- A2A_BLOCK. -/
def execA2aBlock (s : State) : Host.Outcome State Fault Refusal := runDev a2aBlockDev s

/-- A2A_ACK. -/
def a2aAckDev (_o : Otp) (d : Dev) : Dev := onPacket d 0x29 (fun d _ p => onAck d p 0x28 3 a2aSettle)

/-- A2A_ACK. -/
def execA2aAck (s : State) : Host.Outcome State Fault Refusal := runDev a2aAckDev s

/-- An operation is done once the last write that it awaited is acknowledged. -/
def collSettle (d : Dev) (q sq : Nat) : Dev :=
  match d.chans.find? (fun c => match c.2 with
    | some c => c.queue == q && c.seq == sq
    | none => false) with
  | some (n, _) => a2aSettle (agSettle (rsSettle d n) n) n
  | none => d

/-! ### Barrier (R402) -/

/-- The body of a barrier token. -/
def barBody (c : Chan) (n : Nat) : List Byte := natLe 2 (fld c.body 4 2) ++ natLe 2 c.opseq ++ natLe 1 n

/-- BAR_DOWN goes to the children, and the barrier is done here. No packet answers a BAR_DOWN: it is kept, to be sent again
when it is refused, until the channel opens again (DEDUCED, log 164). -/
def barDone (d : Dev) (n : Nat) (c : Chan) : Dev :=
  (chChildren d c c.group.root).foldl (fun d i => (sendReq d 0x41 (chCoord d c i) (barBody c n) [] (.chan n) 0).1)
    (chEnd d n stOk)

/-- A member's token; with all of them the node sends its own up, or at the root the barrier falls. -/
def barToken (d : Dev) (n member : Nat) : Dev :=
  match chGet d n with
  | none => d
  | some c =>
    let c := { c with tokens := if c.tokens.contains member then c.tokens else c.tokens ++ [member] }
    let d := chSet d n (some c)
    let need := chMe d c :: chChildren d c c.group.root
    if c.sent ≠ [] ∨ !need.all c.tokens.contains then d
    else match chParent d c c.group.root with
      | none => barDone d n c
      | some p =>
        let x := sendReq d 0x40 p (barBody c n) [] (.chan n) 0
        chSet x.1 n (some { c with sent := [x.2] })

/-- BARRIER (R402). -/
def barrierDev (q : Nat) (o : Otp) (d : Dev) : Dev :=
  collOpen o d q 0 (· == 4) (fun d n c _ => match collBar d c with
    | some st => cmdFinal d c.queue c.seq st 0
    | none => barToken (collStart d n c) n (chMe d c))

/-- BARRIER. -/
def execBarrier (q : Nat) (s : State) : Host.Outcome State Fault Refusal := runDev (barrierDev q) s

/-- BAR_UP (R402). -/
def barUpDev (_o : Otp) (d : Dev) : Dev :=
  onPacket d 0x40 (fun d _ p =>
    let n := fld p.body 4 1 % 16
    onChan d p n 4 (fld p.body 2 2) (fun d c => match boxIndex d c.group.base c.group.ext p.src with
      | some i => barToken d n i
      | none => pcAdd d (kColl + 3) 1))

/-- BAR_UP. -/
def execBarUp (s : State) : Host.Outcome State Fault Refusal := runDev barUpDev s

/-- BAR_DOWN (R402). -/
def barDownDev (_o : Otp) (d : Dev) : Dev :=
  onPacket d 0x41 (fun d _ p =>
    let n := fld p.body 4 1 % 16
    onChan d p n 4 (fld p.body 2 2) (fun d c => barDone d n c))

/-- BAR_DOWN. -/
def execBarDown (s : State) : Host.Outcome State Fault Refusal := runDev barDownDev s

/-! ### Drains into a channel (R241, R395) -/

/-- What a channel answers a drain: stOk, or the status with which the stream faults. `orig` and `cols` are the tile's
dimension-0 origin and extent, `last` the largest element index. -/
def drainStatus (d : Dev) (n gfmt : Nat) (k : Int) (e0 orig cols last : Nat) : Nat :=
  match chGet d n with
  | none => stCollClosed
  | some c =>
    let ce := chunkElems (clGfmt c.body)
    if clOp c.body ≠ 1 then stCollClosed
    else if gfmt = clGfmt c.body ∧ (gfmt ≠ 2 ∨ k = clK c.body) ∧ isMul e0 64 ∧ isMul orig ce ∧ isMul cols ce ∧
        last < clN c.body then stOk
    else stCollFormat

/-- The module's own contribution of whole chunks; none while the table has no free entry (R397). A chunk that the module has
already contributed is dropped as a duplicate. -/
def drainEnter (d : Dev) (n : Nat) (qs : List (Nat × List Nat)) : Option Dev :=
  match chGet d n with
  | none => some d
  | some c =>
    let fresh := (qs.filter (fun x => !c.table.any (fun e => e.chunk == x.1))).length
    if 32768 < rsUsed d + fresh then none
    else
      let me := chMe d c
      some (rsSettle (qs.foldl (fun d x => match chGet d n with
        | some c =>
          if rsDup c x.1 me then chMod d n (fun c => { c with dup := c.dup + 1 })
          else rsEnter (chMod d n (fun c => { c with own := c.own + 1 })) n x.1 me x.2
        | none => d) d) n)

/-! ### Messages (Table 14-5) -/

/-- Messages that only the physical function may send. -/
def collPf (ch : Nat) (d : Dev) (r : DzRes) : DzRes := dzPf ch d stCollDenied r

/-- DZ_COLL_GROUP (R386, R410). -/
def hCollGroup (ch : Nat) (p : List Byte) (_o : Otp) (d : Dev) : DzRes :=
  let n := fld p 0 1
  let on := fld p 1 1 == 1
  let base := fld p 4 4
  let ext := fld p 8 4
  let root := fld p 12 4
  collPf ch d <| dzNeed d (decide (n < 64) && decide (fld p 1 1 < 2) && zeroAt p 2 2 && decide (base < 2 ^ 20) &&
      decide (ext < 2 ^ 20) && (!on || (boxFits d base ext && decide (root < boxSize ext)))) stCollParam <|
    dzNeed d (d.chans.all (fun x => match x.2 with
      | some c => fld c.body 4 2 != n
      | none => true)) stCollMode <|
    dzOk { d with groups := smSet none d.groups n (if on then some ⟨base, ext, root⟩ else none) } []

/-- DZ_COLL_AREA (R390). -/
def hCollArea (ch : Nat) (p : List Byte) (_o : Otp) (d : Dev) : DzRes :=
  let n := fld p 0 1
  let a := fld p 8 8
  let sz := fld p 16 8
  collPf ch d <| dzNeed d (decide (n < 16) && zeroAt p 1 7 && isMul a 64 && isMul sz 64) stCollParam <|
    dzNeed d (sz == 0 || inHbm d a sz) stAddrUnmapped <|
    dzNeed d (chGet d n).isNone stCollMode <|
    dzOk { d with collAreas := smSet (0, 0) d.collAreas n (a, sz) } []

/-- DZ_COLL_MODE (R388). -/
def hCollMode (ch : Nat) (p : List Byte) (_o : Otp) (d : Dev) : DzRes :=
  let on := fld p 0 1 == 1
  let routing := d.queues.any (fun x => match x.2 with
    | some v => v.running.any (fun r => r.cmd.op == 0x28)
    | none => false)
  collPf ch d <| dzNeed d (decide (fld p 0 1 < 2) && zeroAt p 1 7) stCollParam <|
    dzNeed d (d.chans == [] && !routing && !verdictMissing d) stCollMode <|
    dzOk { d with fab := { d.fab with det := on } } []

/-- DZ_COLL_QUERY. -/
def hCollQuery (_ch : Nat) (p : List Byte) (_o : Otp) (d : Dev) : DzRes :=
  let n := fld p 0 1
  dzNeed d (decide (n < 16) && zeroAt p 1 7) stCollParam <|
    let c := chGet d n
    dzOk d (natLe 1 c.isSome.toNat ++ natLe 1 ((c.map (fun c => clOp c.body)).getD 0) ++
      natLe 2 ((c.map (·.opseq)).getD 0) ++ natLe 1 d.fab.det.toNat ++ zeros 3 ++ natLe 4 (rsUsed d) ++
      natLe 4 d.fab.relay.length ++ (List.range 5).flatMap (fun i => pcBytes d (kColl + i)) ++ natLe 1 (pcOvf d kColl 5) ++
      zeros 1)

end Sys2Proof.Machine
end

