-- ==== Sys2Proof/Machine/Plan.lean ====
section
/-!
DEFINITION. The passage plan on the transfer engines (R343 to R347), write-backs to any home (R341), and DZ_MEM_FLUSH.
-/

namespace Sys2Proof.Machine

/-! ### Homes (R334, R340, R341) -/

/-- The global address of an object's home byte; for tier 4 the host bus address. -/
def homeAddr (d : Dev) (ob : MemObj) (off : Nat) : Nat :=
  if maTier ob.flags ≤ 2 then ownCoord d * 2 ^ 44 + ob.base + off else ob.base + off

/-- The home is host memory. -/
def homeHost (ob : MemObj) : Bool := maTier ob.flags == 4

/-- The home is memory of the module. -/
def homeOwn (d : Dev) (ob : MemObj) : Bool := !homeHost ob && isOwn d (homeAddr d ob 0)

/-- Runs of bytes leave for a home: the tags of the writes to other modules, and the flushing reads of host memory. The last
write to host memory is followed by its flushing read (R341, R454). -/
def homeWrite (d : Dev) (ob : MemObj) (runs : List (Nat × List Byte)) (who : Issuer) : Dev × List Remote × Nat :=
  let runs := runs.map (fun r => (homeAddr d ob r.1, r.2))
  if homeHost ob then
    let rs := joinRuns runs
    match rs.getLast? with
    | none => (d, [], 0)
    | some l => (hostPut (rs.foldl (fun d r => hostWrite d 0 r.1 r.2) d) (.memRead 0 l.1 0), [], 1)
  else
    let x := gaWrite d runs who
    (x.1, x.2, 0)

/-- A write-back whose lines have been issued: what it still waits for, and the lines. -/
structure Back where
  dev : Dev
  remote : List Remote
  flush : Nat
  lines : List Nat

/-- The write-back is complete (R341). -/
def Back.done (b : Back) : Bool := b.remote == [] && b.flush == 0

/-- Write a slot back (R341): its dirty lines go to the home page, and the slot is clean once that is complete; at once on the
own module. Lines that a home write has met are settled with it (R342). -/
def writeBack (d : Dev) (n : Nat) (ob : MemObj) (slot : Nat) (who : Issuer) : Back :=
  let page := smGet 0 ob.dir slot - 1
  let ls := dirtyLines d ob slot
  let base := (ob.cacheBase + slot * 4096) / 64
  let cl := if smGet false ob.dirty slot then clashLines d ob slot page else []
  let x := homeWrite d ob (ls.map (fun l => (page * 4096 + (l - base) * 64, memRead d (l * 64) 64))) who
  let d := clashSettle x.1 n page cl
  let b : Back := ⟨d, x.2.1, x.2.2, ls⟩
  if b.done then { b with dev := cleanSlot d n slot ls } else b

/-- What bars the remote home of an object (R369, R374). -/
def homeBar (d : Dev) (ob : MemObj) : Option Nat :=
  if homeHost ob || homeOwn d ob then none else remoteBar d (coordOf (homeAddr d ob 0))

/-! ### The state of a plan -/

/-- The plan of an XFE. -/
def planGet (d : Dev) (x : Nat) : Option Plan := smGet none d.plans x
/-- Replace it. -/
def planSet (d : Dev) (x : Nat) (p : Plan) : Dev := { d with plans := smSet none d.plans x (some p) }
/-- Change it, if there is one. -/
def planMod (d : Dev) (x : Nat) (f : Plan → Plan) : Dev :=
  match planGet d x with
  | some p => planSet d x (f p)
  | none => d

/-- The result record of a plan (Table 12-11). -/
def planRecord (next fail filled wb : Nat) : List Byte :=
  sealRec (natLe 4 next ++ natLe 4 fail ++ natLe 4 filled ++ natLe 4 wb ++ zeros 12)

/-- The plan ends with a status: its result record is written, and its command's status is final (R347). -/
def planEnd (d : Dev) (x : Nat) (p : Plan) (st : Nat) : Dev :=
  let d := if p.result = 0 then d
    else memWrite d (localOf p.result) (planRecord p.next (if st = stOk then 0xFFFFFFFF else p.next) p.filled p.wb)
  cmdFinal { d with plans := smSet none d.plans x none } p.queue p.seq st 0

/-- The plan of an XFE fails at its entry in progress. -/
def planFail (d : Dev) (x st : Nat) : Dev :=
  match planGet d x with
  | some p => planEnd d x p st
  | none => d

/-- The entry is done: it signals when asked (R345), and the plan goes on or ends. -/
def planDone (d : Dev) (x : Nat) : Dev :=
  match planGet d x with
  | none => d
  | some p =>
    let sig := fld p.entry 1 1
    let kind := fld p.entry 0 1
    let d := if sig.testBit 7 then
        tallyAdd d (nth p.tallies (sig % 8)) (if kind = 7 then fld p.entry 4 4 else 1) else d
    let p := { p with next := p.next + 1, phase := 0, entry := [], rbuf := [], waitRes := 0 }
    if p.next = p.count then planEnd d x p stOk else planSet d x p

/-- Nothing that the entry issued is outstanding. -/
def planIdle (p : Plan) : Bool := p.remote == [] && p.hostWait == [] && p.flush == 0

/-! ### DC_PLAN (R343) -/

/-- ST_PLAN_PARAM. -/
def planParam (d : Dev) (b : List Byte) : Bool :=
  let n := fld b 4 4
  let own := fun a => isMul a 32 && isOwn d a
  zeroAt b 1 3 && decide (1 ≤ n ∧ n ≤ 2 ^ 24) && own (fld b 8 8) && (fld b 32 8 == 0 || own (fld b 32 8)) &&
    (fld b 40 8 == 0 || own (fld b 40 8)) &&
    (List.range 8).all (fun i => fld b (16 + 2 * i) 2 == 0xFFFF || tallyRefOk (fld b (16 + 2 * i) 2))

/-- A plan that runs no entry fails: its result record says so where its address can be written (R347). -/
def planRefuse (d : Dev) (q sq fn res st : Nat) : Dev :=
  let d := if res ≠ 0 ∧ isMul res 32 ∧ windowOk d fn res 32 true ∧ ownMapped d res 32 then
    memWrite d (localOf res) (planRecord 0 0xFFFFFFFF 0 0) else d
  cmdFinal d q sq st 0

/-- DC_PLAN: the body and the expectations are read, and the plan begins on its XFE. -/
def dcPlanDev (q : Nat) (_o : Otp) (d : Dev) : Dev :=
  onFresh d q (· == 0x05) (fun d v r =>
    let b := r.cmd.body
    let sq := r.cmd.cseq.toNat
    let list := fld b 8 8
    let ex := fld b 32 8
    let res := fld b 40 8
    let n := fld b 4 4
    let st := firstBad [(planParam d b, stPlanParam),
      (windowOk d v.owner list (32 * n) false && (ex == 0 || windowOk d v.owner ex 32 false) &&
        (res == 0 || windowOk d v.owner res 32 true), stRrWindow),
      (ownMapped d list (32 * n) && (ex == 0 || ownMapped d ex 32) && (res == 0 || ownMapped d res 32), stAddrUnmapped)]
    if st ≠ stOk then planRefuse d q sq v.owner res st
    else
      let exps := (List.range 8).map (fun i => if ex = 0 then 0 else memNat d (localOf ex + 4 * i) 4)
      let tallies := (List.range 8).map (fun i => fld b (16 + 2 * i) 2)
      planSet d (r.engine % 32) ⟨q, sq, list, n, tallies, exps, res, 0, 0, 0, 0, [], [], [], 0, [], 0, [], [], []⟩)

/-- DC_PLAN. -/
def execDcPlan (q : Nat) (s : State) : Host.Outcome State Fault Refusal := runDev (dcPlanDev q) s

/-! ### Entries (Table 12-9) -/

/-- ST_PLAN_ENTRY: kind, reserved fields, condition, increment and binding. -/
def entryOk (p : Plan) (e : List Byte) : Bool :=
  let kind := fld e 0 1
  let sig := fld e 1 1
  let w := fld e 4 4
  let bound := fun b => nth p.tallies b != 0xFFFF
  let sigOk := bits sig 3 4 == 0 && (!sig.testBit 7 || bound (sig % 8))
  if 1 ≤ kind ∧ kind ≤ 4 then
    sigOk && (kind == 1 || w == 0) && decide (1 ≤ fld e 12 4 ∧ fld e 12 4 ≤ 2 ^ 20) && zeroAt e 16 12
  else if kind = 5 then sigOk && w != 0 && isMul w 64 && zeroAt e 26 2
  else if kind = 6 then
    sig == 0 && zeroAt e 2 2 && bits w 30 2 != 0 && bits w 24 3 == 0 && zeroAt e 8 20 && bound (bits w 27 3)
  else if kind = 7 then
    sigOk && sig.testBit 7 && zeroAt e 2 2 && decide (1 ≤ w ∧ w < 2 ^ 24) && zeroAt e 8 20
  else false

/-- An object that plan entries may name; with `cached`, through its cache (R413 included). -/
def planObj (d : Dev) (n : Nat) (cached : Bool) : Option MemObj :=
  match objLive d n with
  | some ob => if maPlan ob.flags && !ob.lost && (!cached || maCache ob.flags != 0) then some ob else none
  | none => none

/-- ST_PLAN_OBJ and ST_PLAN_PIN. -/
def entryObj (d : Dev) (e : List Byte) : Nat :=
  let kind := fld e 0 1
  if kind ≤ 4 then
    match planObj d (fld e 2 2) true with
    | none => stPlanObj
    | some ob =>
      let slot := fld e 8 4
      let n := fld e 12 4
      firstBad [(decide (slot + n ≤ ob.slots) && (kind != 1 || decide (fld e 4 4 + n ≤ ob.size / 4096)), stPlanObj),
        (!maPin ob.flags || kind == 2 || (kind == 1 && fld e 4 4 == slot), stPlanPin)]
  else if kind = 5 then
    match planObj d (fld e 2 2) false, planObj d (fld e 24 2) false with
    | some a, some b =>
      if fld e 8 8 + fld e 4 4 ≤ a.size ∧ fld e 16 8 + fld e 4 4 ≤ b.size then stOk else stPlanObj
    | _, _ => stPlanObj
  else stOk

/-- The slots of a FILL that do not hold their page, each with its page (Table 12-10). -/
def fillNeeds (ob : MemObj) (e : List Byte) : List (Nat × Nat) :=
  (List.range (fld e 12 4)).filterMap (fun i =>
    let s := fld e 8 4 + i
    let p := fld e 4 4 + i
    if smGet 0 ob.dir s = p + 1 then none else some (s, p))

/-- Set a slot's directory entry: page + 1, or 0 for EMPTY. -/
def dirSet (d : Dev) (n slot v : Nat) : Dev :=
  let f : MemObj → MemObj := fun ob => { ob with dir := smSet 0 ob.dir slot v }
  { d with objs := smMod none d.objs n (fun x => x.map f) }

/-- Another plan that runs has acted on a slot (R346). -/
def slotShared (d : Dev) (x n slot : Nat) : Bool :=
  d.plans.any (fun y => y.1 != x && (match y.2 with
    | some p => p.touched.any (fun t => t.1 == n && decide (t.2.1 ≤ slot) && decide (slot < t.2.1 + t.2.2))
    | none => false))

/-- A slot takes a page: SB_TIER CACHE, SB_DIRTY clear (Table 12-10). The bytes of a slot that two plans act on are undefined
(R18, R346). -/
def fillSlot (d : Dev) (x n : Nat) (ob : MemObj) (slot page : Nat) (bs : List Byte) : Dev :=
  let a := ob.cacheBase + slot * 4096
  let w := if slotShared d x n slot then memMix (memWrite d a bs) a 4096 [memRead d a 4096] else memWrite d a bs
  let d := dirSet (cleanSlot w n slot ((List.range 64).map (fun i => a / 64 + i))) n slot (page + 1)
  let k := kEng (ek 6 x) + 3
  planMod (pcAdd (pcAdd d k 4096) (k + 1) 1) x (fun p => { p with filled := p.filled + 1 })

/-- A slot that holds a page is written back for a plan entry; its lines count. -/
def planBack (d : Dev) (x n : Nat) (ob : MemObj) (slot : Nat) : Dev :=
  if smGet 0 ob.dir slot = 0 then d
  else
    let r := writeBack d n ob slot (.plan x)
    let k := kEng (ek 6 x) + 3
    let m := r.lines.length
    let d := pcAdd (pcAdd r.dev k (64 * m)) (k + 2) m
    planMod d x (fun p => { p with wb := p.wb + m, remote := p.remote ++ r.remote, flush := p.flush + r.flush,
                                   cleans := if r.done then p.cleans else p.cleans ++ [(n, slot, r.lines)] })

/-- The write-backs of the entry are complete: their slots are clean. -/
def planCleaned (d : Dev) (x : Nat) : Dev :=
  match planGet d x with
  | none => d
  | some p => planMod (p.cleans.foldl (fun d c => cleanSlot d c.1 c.2.1 c.2.2) d) x (fun p => { p with cleans := [] })

/-- Reads of at most 4,096 bytes of host memory. -/
def hostReads (a : Nat) : Nat → Nat → List Remote
  | 0, _ => []
  | fuel + 1, n => if n = 0 then [] else ⟨0, true, a, min n 4096⟩ :: hostReads (a + min n 4096) fuel (n - min n 4096)

/-- Fetch ranges of an object's home for the plan: from another module, or from host memory. -/
def planFetch (d : Dev) (x : Nat) (ob : MemObj) (rs : List (Nat × Nat)) : Dev :=
  let rs := joinRanges (rs.map (fun r => (homeAddr d ob r.1, r.2)))
  if homeHost ob then
    let hs := rs.flatMap (fun r => hostReads r.1 (r.2 / 4096 + 1) r.2)
    planMod (hs.foldl (fun d h => hostPut d (.memRead 0 h.addr h.len)) d) x (fun p => { p with hostWait := p.hostWait ++ hs })
  else
    match planGet d x with
    | none => d
    | some p =>
      let y := gaFetch d (gaMissing d p.rbuf rs) (.plan x)
      planMod y.1 x (fun p => { p with remote := p.remote ++ y.2 })

/-- The bytes of an object's home that the plan has at hand. -/
def planBytes (d : Dev) (p : Plan) (ob : MemObj) (off n : Nat) : List Byte := gaRead d p.rbuf (homeAddr d ob off) n

/-- A FILL from another module or the host fills one slot after the other: its page is asked for once the slot's own write-back
is complete. -/
def fillAsk (d : Dev) (x : Nat) (ob : MemObj) (page : Nat) : Dev :=
  planFetch (planMod (planCleaned d x) x (fun p => { p with phase := 2, rbuf := [] })) x ob [(page * 4096, 4096)]

/-- The next slot of such a FILL: written back first, when it holds another page. -/
def fillNext (d : Dev) (x n : Nat) (ob : MemObj) (todo : List (Nat × Nat)) : Dev :=
  match todo with
  | [] => planDone d x
  | (slot, page) :: _ =>
    let d := planBack (planMod d x (fun p => { p with todo := todo, phase := 1 })) x n ob slot
    match planGet d x with
    | some p => if planIdle p then fillAsk d x ob page else d
    | none => d

/-- What such a FILL does when nothing that it issued is outstanding. -/
def fillGo (d : Dev) (x : Nat) (p : Plan) (n : Nat) (ob : MemObj) : Dev :=
  match p.todo with
  | [] => planDone d x
  | (slot, page) :: rest =>
    if p.phase = 1 then fillAsk d x ob page
    else
      let d := fillSlot d x n ob slot page (planBytes d p ob (page * 4096) 4096)
      match objGet d n with
      | some ob => fillNext d x n ob rest
      | none => planFail d x stPlanObj

/-- A COPY's bytes leave for their destination. -/
def copyFinish (d : Dev) (x : Nat) (p : Plan) : Dev :=
  match objGet d (fld p.entry 2 2), objGet d (fld p.entry 24 2) with
  | some a, some b =>
    let n := fld p.entry 4 4
    let r := homeWrite d b [(fld p.entry 16 8, planBytes d p a (fld p.entry 8 8) n)] (.plan x)
    planMod (pcAdd r.1 (kEng (ek 6 x) + 3) n) x (fun p => { p with phase := 2, remote := p.remote ++ r.2.1, flush := p.flush + r.2.2 })
  | _, _ => planFail d x stPlanObj

/-- The entry goes on when nothing that it issued is outstanding. -/
def planGo (d : Dev) (x : Nat) : Dev :=
  match planGet d x with
  | none => d
  | some p =>
    if !planIdle p then d
    else
      let kind := fld p.entry 0 1
      let n := fld p.entry 2 2
      if kind = 1 then
        match objGet d n with
        | some ob => fillGo d x p n ob
        | none => planFail d x stPlanObj
      else if kind = 2 then planDone (planCleaned d x) x
      else if kind = 3 then
        planDone ((List.range (fld p.entry 12 4)).foldl (fun d i => dirSet d n (fld p.entry 8 4 + i) 0) (planCleaned d x)) x
      else if kind = 5 ∧ p.phase = 1 then
        let d := copyFinish d x p
        match planGet d x with
        | some p => if planIdle p then planDone d x else d
        | none => d
      else planDone d x

/-- A checked entry begins (Table 12-10). -/
def planBegin (d : Dev) (x : Nat) (e : List Byte) : Dev :=
  let kind := fld e 0 1
  let n := fld e 2 2
  match objGet d n with
  | none => d
  | some ob =>
    let slots := (List.range (fld e 12 4)).map (fun i => fld e 8 4 + i)
    if kind = 1 then
      if homeOwn d ob then
        planDone ((fillNeeds ob e).foldl (fun d y =>
          match objGet d n with
          | some ob =>
            let d := planBack d x n ob y.1
            fillSlot d x n ob y.1 y.2 (gaRead d [] (homeAddr d ob (y.2 * 4096)) 4096)
          | none => d) d) x
      else fillNext d x n ob (fillNeeds ob e)
    else if kind = 2 ∨ kind = 3 then planGo (slots.foldl (fun d s => planBack d x n ob s) d) x
    else if kind = 4 then
      let clean := fun (d : Dev) s => cleanSlot d n s (dirtyLines d ob s)
      planDone (slots.foldl (fun d s => dirSet (clean d s) n s 0) d) x
    else planGo (planFetch d x ob [(fld e 8 8, fld e 4 4)]) x

/-- The ranges of homes that an entry reads or writes: object, offset, bytes, and whether it writes. -/
def entryHomes (d : Dev) (e : List Byte) : List (Nat × Nat × Nat × Bool) :=
  let kind := fld e 0 1
  let n := fld e 2 2
  if kind = 4 then []
  else if kind = 5 then [(n, fld e 8 8, fld e 4 4, false), (fld e 24 2, fld e 16 8, fld e 4 4, true)]
  else match objGet d n with
    | none => []
    | some ob =>
      let held := fun s => if smGet 0 ob.dir s = 0 then [] else [(n, (smGet 0 ob.dir s - 1) * 4096, 4096, true)]
      if kind = 1 then
        (n, fld e 4 4 * 4096, fld e 12 4 * 4096, false) :: (fillNeeds ob e).flatMap (fun y => held y.1)
      else (List.range (fld e 12 4)).flatMap (fun i => held (fld e 8 4 + i))

/-- The slots that an entry reads or writes, as a local range: a CLEAN or EVICT reads them, a FILL writes them too. -/
def entrySlots (d : Dev) (e : List Byte) : Option (Nat × Nat × Bool) :=
  if fld e 0 1 = 5 then none
  else (objGet d (fld e 2 2)).map (fun ob => (ob.cacheBase + fld e 8 4 * 4096, fld e 12 4 * 4096, fld e 0 1 == 1))

/-- The windows of a virtual function's plan hold what its entry reads and writes on the module (R311). -/
def entryWindow (d : Dev) (fn : Nat) (e : List Byte) : Bool :=
  (entryHomes d e).all (fun h => match objGet d h.1 with
    | some ob => homeHost ob || windowOk d fn (homeAddr d ob h.2.1) h.2.2.1 h.2.2.2
    | none => true) &&
  (match entrySlots d e with
   | some s => windowOk d fn (ownCoord d * 2 ^ 44 + s.1) s.2.1 s.2.2
   | none => true)

/-- What bars an entry from a home: bytes that the module does not have (R31), or a module that cannot be reached. -/
def entryBar (d : Dev) (e : List Byte) : Option Nat :=
  (entryHomes d e).findSome? (fun h => match objGet d h.1 with
    | none => none
    | some ob =>
      if homeHost ob then none
      else if homeOwn d ob then
        (if mapped d (localOf (homeAddr d ob h.2.1)) h.2.2.1 then none else some stAddrUnmapped)
      else remoteBar d (coordOf (homeAddr d ob h.2.1)))

/-- The function that a plan runs for. -/
def planFn (d : Dev) (p : Plan) : Nat := ((qGet d p.queue).map (·.owner)).getD 0

/-- An entry in progress on another XFE acts on a slot of this one: entries on common slots take effect one at a time (R346). -/
def slotsBusy (d : Dev) (x : Nat) (e : List Byte) : Bool :=
  decide (fld e 0 1 ≤ 4) && d.plans.any (fun y => y.1 != x && (match y.2 with
    | some p => (p.phase == 1 || p.phase == 2) && decide (fld p.entry 0 1 ≤ 4) && fld p.entry 2 2 == fld e 2 2 &&
        overlaps (fld p.entry 8 4) (fld p.entry 12 4) (fld e 8 4) (fld e 12 4)
    | none => false))

/-- The slots that the plan has acted on, with those of an entry. -/
def planTouch (d : Dev) (x : Nat) (e : List Byte) : Dev :=
  if fld e 0 1 ≤ 4 then planMod d x (fun p => { p with touched := p.touched ++ [(fld e 2 2, fld e 8 4, fld e 12 4)] }) else d

/-- Read the next entry, when it is of a kind that `k` names: its CRC with the retries of R412, its checks in the order of
Table 12-12, and then `f`. -/
def onEntry (o : Otp) (d : Dev) (x rr : Nat) (k : Nat → Bool) (f : Dev → Plan → List Byte → Dev) : Dev :=
  match planGet d x with
  | none => d
  | some p =>
    let a := localOf p.list + 32 * p.next
    let e := memRead d a 32
    if p.phase ≠ 0 ∨ k (fld e 0 1) = false ∨ slotsBusy d x e = true then d
    else
      let r := readRecord o d a (sealOk 32 e) rr
      let r := (if fld e 0 1 ≤ 4 then dirUse r.1 (fld e 2 2) else r.1, r.2)
      let st := firstBad [(r.2, stPlanCrc), (entryOk p e, stPlanEntry), (entryObj r.1 e == stOk, entryObj r.1 e),
        (decide (5 < fld e 0 1) || entryWindow r.1 (planFn r.1 p) e, stRrWindow)]
      if st ≠ stOk then planFail r.1 x st else f (planMod r.1 x (fun p => { p with entry := e, phase := 1 })) p e

/-- The side-bands that an entry reads (R333, R341): those of the slots that it writes back, and the home bytes in HBM or the
Shelf that a FILL or a COPY reads. -/
def planSides (o : Otp) (d : Dev) (e : List Byte) : Dev :=
  let kind := fld e 0 1
  match objGet d (fld e 2 2) with
  | none => d
  | some ob =>
    if kind = 5 then (if homeOwn d ob then (sideRead o d (localOf (homeAddr d ob (fld e 8 8))) (fld e 4 4)).1 else d) else
    let slots := (List.range (fld e 12 4)).map (fun i => fld e 8 4 + i)
    let back := decide (kind ≤ 3) && slots.any (fun s => dirtyLines d ob s != [])
    let home := decide (kind = 1) && fillNeeds ob e != [] && homeOwn d ob
    let d := (sideRead o d (ob.cacheBase + fld e 8 4 * 4096) (if back then fld e 12 4 * 4096 else 0)).1
    (sideRead o d (ob.base + fld e 4 4 * 4096) (if home then fld e 12 4 * 4096 else 0)).1

/-- An entry that moves bytes: begun, or carried on when its accesses have been answered. -/
def planRow (x rr kind : Nat) (o : Otp) (d : Dev) : Dev :=
  match planGet d x with
  | none => d
  | some p =>
    if p.phase = 1 ∨ p.phase = 2 then (if fld p.entry 0 1 = kind then planGo d x else d)
    else onEntry o d x rr (fun k => k == kind || (kind == 1 && (k == 0 || decide (7 < k)))) (fun d _ e =>
      match entryBar d e with
      | some st => planFail d x st
      | none => planBegin (planTouch (planSides o d e) x e) x e)

/-- PP_FILL (R345); an entry of a reserved kind is refused here. -/
def execPpFill (xfe rr : Nat) (s : State) : Host.Outcome State Fault Refusal := runDev (planRow xfe rr 1) s
/-- PP_CLEAN. -/
def execPpClean (xfe rr : Nat) (s : State) : Host.Outcome State Fault Refusal := runDev (planRow xfe rr 2) s
/-- PP_EVICT. -/
def execPpEvict (xfe rr : Nat) (s : State) : Host.Outcome State Fault Refusal := runDev (planRow xfe rr 3) s
/-- PP_DROP. -/
def execPpDrop (xfe rr : Nat) (s : State) : Host.Outcome State Fault Refusal := runDev (planRow xfe rr 4) s
/-- PP_COPY. -/
def execPpCopy (xfe rr : Nat) (s : State) : Host.Outcome State Fault Refusal := runDev (planRow xfe rr 5) s

/-! ### Waits and signals (R345, R346) -/

/-- What the wait of an entry finds (R108, R109): a wait that was met, or that saw its tally saturate, stays so. -/
def planTest (d : Dev) (p : Plan) (e : List Byte) : Nat :=
  let w := fld e 4 4
  waitStill p.waitRes (tallyGet d (nth p.tallies (bits w 27 3))) (nth p.exps (bits w 27 3)) (bits w 30 2) (bits w 0 24)

/-- The wait is met: the expectation advances, and the entry is done. -/
def planMet (d : Dev) (x : Nat) (e : List Byte) : Dev :=
  let w := fld e 4 4
  let b := bits w 27 3
  planDone (planMod d x (fun p => { p with exps := setAt p.exps b (waitExp (nth p.exps b) (bits w 30 2) (bits w 0 24)) })) x

/-- XFE_PC_WAIT gains the cycles of a wait, a free value. -/
def planWaited (d : Dev) (x : Nat) : Dev := bump (pcAdd d (kEng (ek 6 x) + 6) (Config.freeCount d.freeIdx).toNat)

/-- PP_WAIT. -/
def ppWaitDev (x rr : Nat) (o : Otp) (d : Dev) : Dev :=
  onEntry o d x rr (· == 6) (fun d p e =>
    let d := tallyLook d (nth p.tallies (bits (fld e 4 4) 27 3))
    let t := planTest d { p with waitRes := 0 } e
    if t = 2 then planFail d x stTallySat
    else if t = 1 then planMet d x e
    else planMod d x (fun p => { p with phase := 3, waitRes := 0 }))

/-- PP_WAIT. -/
def execPpWait (xfe rr : Nat) (s : State) : Host.Outcome State Fault Refusal := runDev (ppWaitDev xfe rr) s

/-- PLAN_WAIT_MET (R346): a wait in progress is met, or its tally has saturated. -/
def planWaitMetDev (x : Nat) (_o : Otp) (d : Dev) : Dev :=
  match planGet d x with
  | none => d
  | some p =>
    if p.phase ≠ 3 ∨ planTest d p p.entry = 0 then d
    else
      let d := planWaited d x
      if planTest d p p.entry = 2 then planFail d x stTallySat else planMet d x p.entry

/-- PLAN_WAIT_MET. -/
def execPlanWaitMet (xfe : Nat) (s : State) : Host.Outcome State Fault Refusal := runDev (planWaitMetDev xfe) s

/-- PLAN_WAIT_LIMIT_EXPIRY (R346). -/
def planWaitLimitDev (x : Nat) (_o : Otp) (d : Dev) : Dev :=
  match planGet d x with
  | none => d
  | some p => if p.phase = 3 ∧ planTest d p p.entry = 0 then planFail (planWaited d x) x stWaitLimit else d

/-- PLAN_WAIT_LIMIT_EXPIRY. -/
def execPlanWaitLimitExpiry (xfe : Nat) (s : State) : Host.Outcome State Fault Refusal := runDev (planWaitLimitDev xfe) s

/-- PP_SIGNAL. -/
def ppSignalDev (x rr : Nat) (o : Otp) (d : Dev) : Dev := onEntry o d x rr (· == 7) (fun d _ _ => planDone d x)

/-- PP_SIGNAL. -/
def execPpSignal (xfe rr : Nat) (s : State) : Host.Outcome State Fault Refusal := runDev (ppSignalDev xfe rr) s

/-! ### DZ_MEM_FLUSH (R341, R354) -/

/-- Every dirty slot of an object is written back: what is still to come, and the slots that are clean only then. -/
def flushObject (d : Dev) (n : Nat) (ob : MemObj) : Dev × List Remote × Nat × List (Nat × List Nat) :=
  (ob.dirty.map (·.1)).foldl (fun (acc : Dev × List Remote × Nat × List (Nat × List Nat)) s =>
    if smGet 0 ob.dir s = 0 then acc
    else
      let r := writeBack acc.1 n ob s (.flush n)
      (r.dev, acc.2.1 ++ r.remote, acc.2.2.1 + r.flush, if r.done then acc.2.2.2 else acc.2.2.2 ++ [(s, r.lines)])) (d, [], 0, [])

/-- The side-bands that a flush reads (R333): one line of each slot that it writes back. -/
def flushSides (o : Otp) (d : Dev) (ob : MemObj) : Dev :=
  (ob.dirty.map (·.1)).foldl (fun d s => (sideRead o d (ob.cacheBase + s * 4096) 4096).1) d

/-- DZ_MEM_FLUSH: the reply follows the write-back of every dirty slot. -/
def hMemFlush (ch : Nat) (p : List Byte) (o : Otp) (d : Dev) : DzRes :=
  memPf ch d <|
  let n := fld p 0 2
  dzNeed d (zeroAt p 2 6) stMemFlags <|
  let d := dirUse d n
  match objLive d n with
  | none => dzErr d stMemNone
  | some ob =>
    dzNeed d (maCache ob.flags != 0) stMemFlags <|
    match homeBar d ob with
    | some st => dzErr d st
    | none =>
      let r := flushObject (flushSides o d ob) n ob
      if r.2.1 = [] ∧ r.2.2.1 = 0 then dzOk r.1 []
      else
        let f : MemObj → MemObj := fun ob => { ob with flushing := r.2.2.1, flushSt := stOk, flushSlots := r.2.2.2 }
        dzWait { r.1 with objs := smMod none r.1.objs n (fun x => x.map f) } (.memFlush n)

/-- The write-backs of a flush have all been acknowledged (R341). -/
def flushDone (d : Dev) (n : Nat) : Bool :=
  (match objGet d n with
   | some ob => ob.flushing == 0
   | none => true) &&
  d.fab.reqs.all (fun r => match r.2 with
    | some q => q.issuer != .flush n
    | none => true)

/-- Once they have, the slots are clean, unless one has failed. -/
def flushSettle (d : Dev) (n : Nat) : Dev :=
  match objGet d n with
  | none => d
  | some ob =>
    if !flushDone d n then d
    else
      let d := if ob.flushSt = stOk then ob.flushSlots.foldl (fun d s => cleanSlot d n s.1 s.2) d else d
      let f : MemObj → MemObj := fun ob => { ob with flushSlots := [] }
      { d with objs := smMod none d.objs n (fun x => x.map f) }

end Sys2Proof.Machine
end

