-- ==== Sys2Proof/Machine/Host.lean ====
section
/-!
DEFINITION. The host interface (chapter 16): configuration requests (R442, R458, R560), BAR2 (R446 to R448), DC_STAGE (R450,
R451), completions of reads of host memory, resets of functions and of the host side (R456, R457), and the messages of
Table 16-10.
-/

namespace Sys2Proof.Machine

/-! ### Mailboxes and functions -/

/-- Change a channel's mailbox. -/
def mbxMod (d : Dev) (ch : Nat) (f : Mailbox → Mailbox) : Dev := { d with mbox := smMod mailbox0 d.mbox ch f }

/-- A mailbox returns to IDLE with no kept reply and no vector; an OFFLINE one stays so (R464, R466). -/
def mbxReturn (m : Mailbox) : Mailbox :=
  { m with phase := if m.phase = 3 then 3 else 0, vector := 0xFFFF, seqFree := true, buffer := [], kept := none, busy := none,
           late := [] }

/-- The channels of a function's mailboxes (R462). -/
def fnChannels (fn : Nat) : List Nat := if fn = 0 then List.range 9 else [8 + fn]

/-- The stream of an engine ends with its command (R456): statistics records due are written, the pin and the bind slots are
released. -/
def streamDrop (d : Dev) (e : Nat) : Dev :=
  match stGet d e with
  | none => d
  | some v =>
    let d := if v.gstats = [] then d else statsWrite d e v
    let mine := fun (r : Option Req) => match r with
      | some ⟨_, .stream x, _, _, _⟩ => x == e
      | _ => false
    let d := { d with streams := smSet none d.streams e none,
                      bindsInUse := v.bindSlots.foldl (fun m k => smMod 0 m k (· - 1)) d.bindsInUse,
                      rowReqs := d.rowReqs.filter (fun r => !(e / 32 == 3 && r.engine == some e)),
                      fab := { d.fab with reqs := d.fab.reqs.filter (fun x => !mine x.2) } }
    pinMod d v.handle v.gen (· - 1)

/-- A plan ends with its command. -/
def planDrop (d : Dev) (x : Nat) : Dev :=
  let mine := fun (r : Option Req) => match r with
    | some ⟨_, .plan y, _, _, _⟩ => y == x
    | _ => false
  { d with plans := smSet none d.plans x none, fab := { d.fab with reqs := d.fab.reqs.filter (fun y => !mine y.2) } }

/-- Everything that a queue has dispatched ends as after a fault, without a record or a signal, and the queue is removed
(R456). -/
def queueDrop (d : Dev) (q : Nat) : Dev :=
  let mine := fun (r : Option Req) => match r with
    | some ⟨_, .cmd y _, _, _, _⟩ => y == q
    | _ => false
  let st := (d.streams.map (·.1)).filter (fun e => (stGet d e).any (·.queue == q))
  let pl := (d.plans.map (·.1)).filter (fun x => (planGet d x).any (·.queue == q))
  let chs := (d.chans.map (·.1)).filter (fun n => (chGet d n).any (·.queue == q))
  let d := { d with fab := { d.fab with reqs := d.fab.reqs.filter (fun x => !mine x.2) } }
  let d := pl.foldl planDrop (st.foldl streamDrop (chs.foldl (fun d n => chEnd d n stCollWait) d))
  releaseDead { d with queues := smSet none d.queues q none }

/-- A Function Level Reset of one function (R456). -/
def functionReset (d : Dev) (fn : Nat) : Dev :=
  let qs := (d.queues.map (·.1)).filter (fun q => (qGet d q).any (·.owner == fn))
  let d := (fnChannels fn).foldl (fun d c => mbxMod d c mbxReturn) (qs.foldl queueDrop d)
  { d with host := { d.host with apertures := d.host.apertures.filter (fun a => a.1 / 16 != fn),
                                 d3hot := d.host.d3hot.filter (· != fn) } }

/-- A host-side reset (R457); Memory Space Enable and the number of virtual functions go with the configuration space. -/
def hostSideReset (d : Dev) : Dev :=
  let d := (List.range 8).foldl functionReset d
  { d with rrAssign := [], rrWindows := [], rrTables := [], rrTallies := [],
           host := { d.host with vfEnable := false, numVfs := 0, apertures := [], msix := [], msixEnable := [], msixFnMask := [],
                                 mse := [], d3hot := [] } }

/-- FUNCTION_LEVEL_RESET (R456, R457). -/
def flrDev (fn : Nat) (_o : Otp) (d : Dev) : Dev :=
  if d.pow.phase ≠ .hostReady ∨ !d.host.dlUp then d
  else if fn = 0 then hostSideReset d
  else if d.host.vfEnable ∧ fn ≤ d.host.numVfs then functionReset d fn
  else d

/-- FUNCTION_LEVEL_RESET. -/
def execFunctionLevelReset (fn : Nat) (s : State) : Host.Outcome State Fault Refusal := runDev (flrDev fn) s

/-- HOT_RESET (R457). -/
def hotResetDev (_o : Otp) (d : Dev) : Dev := if d.host.dlUp then hostSideReset d else d

/-- HOT_RESET. -/
def execHotReset (s : State) : Host.Outcome State Fault Refusal := runDev hotResetDev s

/-- D3HOT_TO_D0 (R457). -/
def d3hotDev (_o : Otp) (d : Dev) : Dev := if d.host.d3hot.contains 0 then hostSideReset d else d

/-- D3HOT_TO_D0. -/
def execD3hotToD0 (s : State) : Host.Outcome State Fault Refusal := runDev d3hotDev s

/-! ### The link -/

/-- The PCI Express controller is out of reset (R558). -/
def pcieRuns (d : Dev) : Bool := d.pow.phase != .off && d.pow.phase != .inReset

/-- LINK_DL_UP (R440, R458): the count stops, HOST_LINK_STATUS shows the link, and the PCIE fix is taken (Table 18-4) with
the root port's highest rate, its widest width, and whether it offers FLIT mode. -/
def dlUpDev (rate width : Nat) (flit : Bool) (rootRate rootWidth : Nat) (rootFlit : Bool) (_o : Otp) (d : Dev) : Dev :=
  if !pcieRuns d || d.pow.perst || d.host.dlUp then d
  else
    let d := { d with host := { d.host with dlUp := true, everUp := true, counting := false, training := false, rate := rate,
                                            width := width, flit := flit } }
    putFix d 7 0 0 (natLe 1 rootRate ++ natLe 1 rootWidth ++ natLe 1 rootFlit.toNat ++ natLe 1 rate ++ natLe 1 width)

/-- LINK_DL_UP. -/
def execLinkDlUp (rate width : Nat) (flit : Bool) (rootRate rootWidth : Nat) (rootFlit : Bool) (s : State) :
    Host.Outcome State Fault Refusal := runDev (dlUpDev rate width flit rootRate rootWidth rootFlit) s

/-- The link goes from DL_Up to DL_Down (R457, R458). -/
def linkDown (d : Dev) : Dev :=
  if d.host.dlUp then
    let d := hostSideReset (pcAdd d kHostDown 1)
    { d with host := { d.host with dlUp := false, counting := true, training := !d.pow.perst } }
  else d

/-- LINK_DL_DOWN. -/
def dlDownDev (_o : Otp) (d : Dev) : Dev := linkDown d

/-- LINK_DL_DOWN. -/
def execLinkDlDown (s : State) : Host.Outcome State Fault Refusal := runDev dlDownDev s

/-- PERST_N_ASSERT (R558). -/
def perstAssertDev (_o : Otp) (d : Dev) : Dev :=
  let d := linkDown { d with pow := { d.pow with perst := true } }
  { d with host := { d.host with training := false } }

/-- PERST_N_ASSERT. -/
def execPerstNAssert (s : State) : Host.Outcome State Fault Refusal := runDev perstAssertDev s

/-- PERST_N_DEASSERT (R558): training may begin. -/
def perstDeassertDev (_o : Otp) (d : Dev) : Dev :=
  { d with pow := { d.pow with perst := false }, host := { d.host with training := pcieRuns d && !d.host.dlUp } }

/-- PERST_N_DEASSERT. -/
def execPerstNDeassert (s : State) : Host.Outcome State Fault Refusal := runDev perstDeassertDev s

/-! ### Requests -/

/-- The Device ID of a function (R442). -/
def deviceId (fn : Nat) : Nat := if fn = 0 then 0x5E40 else 0x5E41

/-- A double word of a function's configuration space: the identifiers and the class code of R442, Memory Space Enable, and
whatever the standard puts elsewhere. -/
def cfgRead (o : Otp) (d : Dev) (fn reg : Nat) : Nat :=
  if reg = 0 then o.vendorId.toNat + deviceId fn <<< 16
  else if reg = 1 then setBits (Config.cfgRegister fn 1).toNat 1 1 (d.host.mse.contains fn).toNat
  else if reg = 2 then setBits (Config.cfgRegister fn 2).toNat 8 24 0x120000
  else (Config.cfgRegister fn reg).toNat

/-- The effect of a configuration write. -/
def cfgWrite (d : Dev) (fn : Nat) (op : CfgOp) : Dev :=
  let put := fun (l : List Nat) (on : Bool) => if on then (if l.contains fn then l else l ++ [fn]) else l.filter (· != fn)
  match op with
  | .read _ => d
  | .memSpace on => if fn = 0 then { d with host := { d.host with mse := put d.host.mse on } } else d
  | .vfControl en mse n =>
    if fn ≠ 0 then d
    else
      let pf := d.host.mse.filter (· == 0)
      { d with host := { d.host with vfEnable := en, numVfs := min n 7,
                                     mse := pf ++ (if mse then [1, 2, 3, 4, 5, 6, 7] else []) } }
  | .msixControl en mask =>
    { d with host := { d.host with msixEnable := put d.host.msixEnable en, msixFnMask := put d.host.msixFnMask mask } }
  | .power d3 =>
    if d3 then { d with host := { d.host with d3hot := put d.host.d3hot true } }
    else if fn = 0 ∧ d.host.d3hot.contains 0 then hostSideReset d
    else { d with host := { d.host with d3hot := put d.host.d3hot false } }

/-- The vectors of a function that are pending and no longer masked are sent (R449). -/
def msixRelease (d : Dev) (fn : Nat) : Dev :=
  if !d.host.msixEnable.contains fn || d.host.msixFnMask.contains fn then d
  else (List.range (vectorCount fn)).foldl (fun d n =>
    let e := smGet msix0 d.host.msix (fn * 2048 + n)
    if e.pend && !e.masked then
      hostPut { d with host := { d.host with msix := smSet msix0 d.host.msix (fn * 2048 + n) { e with pend := false } } }
        (.msix fn n e.addr e.data)
    else d) d

/-- CONFIGURATION_REQUEST (R458, R558): retried until host-ready. -/
def cfgDev (fn : Nat) (op : CfgOp) (o : Otp) (d : Dev) : Dev :=
  if !d.host.dlUp then d
  else if d.pow.phase ≠ .hostReady then hostPut d (.cfgRetry fn)
  else if fn ≠ 0 ∧ ¬(d.host.vfEnable ∧ fn ≤ d.host.numVfs) then hostPut d (.unsupported fn)
  else match op with
    | .read reg => hostPut d (.cfgDone fn (cfgRead o d fn reg))
    | _ => hostPut (msixRelease (cfgWrite d fn op) fn) (.cfgDone fn 0)

/-- CONFIGURATION_REQUEST. -/
def execConfigurationRequest (fn : Nat) (op : CfgOp) (s : State) : Host.Outcome State Fault Refusal := runDev (cfgDev fn op) s

/-- UNCLAIMED_MEMORY_REQUEST (R560). -/
def unclaimedDev (fn : Nat) (_o : Otp) (d : Dev) : Dev :=
  if !d.host.dlUp || claimed d fn then d else hostPut d (.unsupported fn)

/-- UNCLAIMED_MEMORY_REQUEST. -/
def execUnclaimedMemoryRequest (fn : Nat) (s : State) : Host.Outcome State Fault Refusal := runDev (unclaimedDev fn) s

/-- The size of a function's BAR2 (R446). -/
def bar2Size (fn : Nat) : Nat := if fn = 0 then 2 ^ 36 else 2 ^ 34

/-- The parts of a BAR2 access by aperture: aperture, offset in it, bytes. -/
def bar2Parts (off n : Nat) : List (Nat × Nat × Nat) :=
  let a := off / 2 ^ 32
  let x := off % 2 ^ 32
  if x + n ≤ 2 ^ 32 then [(a, x, n)] else [(a, x, 2 ^ 32 - x), (a + 1, 0, x + n - 2 ^ 32)]

/-- The local address of a part. -/
def bar2Addr (d : Dev) (fn : Nat) (p : Nat × Nat × Nat) : Nat := (smGet aperture0 d.host.apertures (fn * 16 + p.1)).base + p.2.1

/-- An access that R448 does not refuse. -/
def bar2Ok (d : Dev) (fn off n : Nat) (wr : Bool) : Bool :=
  decide (off + n ≤ bar2Size fn) && (bar2Parts off n).all (fun p =>
    (smGet aperture0 d.host.apertures (fn * 16 + p.1)).en && mapped d (bar2Addr d fn p) p.2.2 &&
      windowOk d fn (ownCoord d * 2 ^ 44 + bar2Addr d fn p) p.2.2 wr)

/-- A refused access sets HL_BAR2_REFUSED and is counted (R448). -/
def bar2Refuse (d : Dev) (fn : Nat) : Dev :=
  pcAdd { d with host := { d.host with refused := if d.host.refused.contains fn then d.host.refused else d.host.refused ++ [fn] } }
    kHostRef 1

/-- BAR2_READ (R447, R448). -/
def bar2ReadDev (fn off len : Nat) (_o : Otp) (d : Dev) : Dev :=
  if !claimed d fn then d
  else
    let ok := bar2Ok d fn off len false
    let bs := if ok then (bar2Parts off len).flatMap (fun p => memRead d (bar2Addr d fn p) p.2.2) else List.replicate len 0xFF
    let d := if ok then d else bar2Refuse d fn
    pcAdd (hostPut d (.readDone fn bs)) kHostTx len

/-- BAR2_READ. -/
def execBar2Read (fn off len : Nat) (s : State) : Host.Outcome State Fault Refusal := runDev (bar2ReadDev fn off len) s

/-- The bytes of a BAR2 write, part by part. -/
def bar2Put (d : Dev) (fn : Nat) : List (Nat × Nat × Nat) → List Byte → Dev
  | [], _ => d
  | p :: t, bs => bar2Put (memWrite d (bar2Addr d fn p) (bs.take p.2.2)) fn t (bs.drop p.2.2)

/-- BAR2_WRITE (R447, R448). -/
def bar2WriteDev (fn off : Nat) (data : List Byte) (_o : Otp) (d : Dev) : Dev :=
  if !claimed d fn then d
  else
    let d := pcAdd d kHostRx data.length
    if bar2Ok d fn off data.length true then bar2Put d fn (bar2Parts off data.length) data else bar2Refuse d fn

/-- BAR2_WRITE. -/
def execBar2Write (fn off : Nat) (data : List Byte) (s : State) : Host.Outcome State Fault Refusal :=
  runDev (bar2WriteDev fn off data) s

/-! ### DC_STAGE (R450, R451) -/

/-- ST_STAGE_PARAM, but for the lengths of a segment list. -/
def stageParam (d : Dev) (b : List Byte) : Bool :=
  let f := fld b 1 1
  let host := fld b 8 8
  let segs := fld b 24 4
  decide (f < 4) && zeroAt b 2 2 && zeroAt b 28 20 && decide (1 ≤ fld b 4 4) && isOwn d (fld b 16 8) &&
    (if f.testBit 1 then isMul host 16 && decide (1 ≤ segs ∧ segs ≤ 4096) else segs == 0)

/-- Reads of host memory that a command has outstanding carry tags from here on; the tag less this is the offset of their
first byte in the transfer. -/
def hostTag : Nat := 2 ^ 40

/-- Ask for host reads: address, bytes and offset. -/
def stageAsk (d : Dev) (q sq fn : Nat) (rs : List (Nat × Nat × Nat)) : Dev :=
  let hs : List Remote := rs.map (fun r => ⟨hostTag + r.2.2, true, r.1, r.2.1⟩)
  let d := hs.foldl (fun d h => hostPut d (.memRead fn h.addr h.len)) d
  runMod d q sq (fun r => { r with remote := r.remote ++ hs })

/-- A range of host memory in reads of at most 4,096 bytes, with the offset of each in the transfer. -/
def stageReads (a off n : Nat) : List (Nat × Nat × Nat) :=
  (List.range (ceilDiv n 4096)).map (fun i => (a + 4096 * i, min 4096 (n - 4096 * i), off + 4096 * i))

/-- Segments as host address, bytes and offset in the transfer. -/
def segPlace : Nat → List (Nat × Nat) → List (Nat × Nat × Nat)
  | _, [] => []
  | off, s :: t => (s.1, s.2, off) :: segPlace (off + s.2) t

/-- Bytes of the segment list that have arrived, each kept as its value plus one. -/
def stageList (r : Running) (off n : Nat) : List Byte := (List.range n).map (fun i => BitVec.ofNat 8 (smGet 0 r.rbuf (off + i) - 1))

/-- The list's entries. -/
def stageEntries (r : Running) : List (List Byte) :=
  (List.range (fld r.cmd.body 24 4)).map (fun i => stageList r (16 * i) 16)

/-- XFE_PC_BYTES gains the bytes moved. -/
def stageCount (d : Dev) (r : Running) (n : Nat) : Dev := pcAdd d (kEng r.engine + 3) n

/-- The last checks of R451, and the transfer: device to host is written and followed by its flushing read (R454); host to
device is asked for. -/
def stageMove (d : Dev) (q sq fn : Nat) (r : Running) (segs : List (Nat × Nat)) : Dev :=
  let b := r.cmd.body
  let toHost := (fld b 1 1).testBit 0
  let dev := fld b 16 8
  let n := fld b 4 4
  if !windowOk d fn dev n (!toHost) then cmdFinal d q sq stRrWindow 0
  else if !ownMapped d dev n then cmdFinal d q sq stAddrUnmapped 0
  else if toHost then
    let d := (segPlace 0 segs).foldl (fun d s => hostWrite d fn s.1 (memRead d (localOf dev + s.2.2) s.2.1)) d
    let last := segs.getLast?.getD (0, 0)
    let d := hostPut (stageCount d r n) (.memRead fn last.1 0)
    cmdFinal (runMod d q sq (fun r => { r with hostWrote := true })) q sq stOk 0
  else
    let d := runMod d q sq (fun r => { r with work := [1, 0], rbuf := [] })
    stageAsk d q sq fn ((segPlace 0 segs).flatMap (fun s => stageReads s.1 s.2.2 s.2.1))

/-- The list is complete: its entries are checked, and those that fail are read again, up to three times (R412). -/
def stageListed (d : Dev) (q sq fn : Nat) (r : Running) : Dev :=
  let es := stageEntries r
  let bad := (List.range es.length).filter (fun i => !sealOk 16 (es.getD i []))
  let tries := nth r.work 1
  let host := fld r.cmd.body 8 8
  if bad ≠ [] ∧ tries < 3 then
    stageAsk (runMod d q sq (fun r => { r with work := [0, tries + 1] })) q sq fn (bad.map (fun i => (host + 16 * i, 16, 16 * i)))
  else if bad ≠ [] then cmdFinal d q sq stStageCrc 0
  else
    let d := if tries = 0 then d else pcAdd d kReread 1
    let segs := es.map (fun e => (fld e 0 8, fld e 8 4))
    if segs.any (fun s => s.2 == 0) || (segs.map (·.2)).foldl (· + ·) 0 != fld r.cmd.body 4 4 then cmdFinal d q sq stStageParam 0
    else stageMove d q sq fn r segs

/-- DC_STAGE: the body's checks, then the segment list or the transfer. -/
def dcStageDev (q : Nat) (_o : Otp) (d : Dev) : Dev :=
  onFresh d q (· == 0x04) (fun d v r =>
    let b := r.cmd.body
    let sq := r.cmd.cseq.toNat
    if !stageParam d b then cmdFinal d q sq stStageParam 0
    else if (fld b 1 1).testBit 1 then
      stageAsk (runMod d q sq (fun r => { r with work := [0, 0] })) q sq v.owner (stageReads (fld b 8 8) 0 (16 * fld b 24 4))
    else stageMove d q sq v.owner r [(fld b 8 8, fld b 4 4)])

/-- DC_STAGE. -/
def execDcStage (q : Nat) (s : State) : Host.Outcome State Fault Refusal := runDev (dcStageDev q) s

/-- The data of a read of a DC_STAGE arrive: entries of the list, or bytes for the device. -/
def stageData (d : Dev) (q sq fn : Nat) (r : Running) (x : Remote) (data : List Byte) : Dev :=
  let off := x.tag - hostTag
  let r := { r with remote := r.remote.filter (· != x) }
  if nth r.work 0 = 0 then
    let r := { r with rbuf := smSetList 0 r.rbuf off (data.map (fun b => b.toNat + 1)) }
    let d := runMod d q sq (fun _ => r)
    if r.remote = [] then stageListed d q sq fn r else d
  else
    let d := memWrite (stageCount d r data.length) (localOf (fld r.cmd.body 16 8) + off) data
    let d := runMod d q sq (fun _ => r)
    if r.remote = [] then cmdFinal d q sq stOk 0 else d

/-- A read of a DC_STAGE fails: the command fails, and the device bytes of a transfer towards the device are undefined
(R451, R18): what the host holds never came. -/
def stageAbort (d : Dev) (q sq : Nat) (r : Running) : Dev :=
  let d := runMod d q sq (fun r => { r with remote := [] })
  let d := if nth r.work 0 = 1 then memLoose d (localOf (fld r.cmd.body 16 8)) (fld r.cmd.body 4 4) else d
  cmdFinal d q sq stHostAbort 0

/-! ### Completions of reads of host memory (R440, R451, R459) -/

/-- The running DC_STAGE that has read `n` outstanding, and the read. -/
def stageWaits (d : Dev) (q sq n : Nat) : Option (Queue × Running × Remote) :=
  match qGet d q with
  | none => none
  | some v => match runGet v sq with
    | none => none
    | some r =>
      if r.cmd.op ≠ 0x04 then none
      else match (r.remote.filter (fun x => decide (hostTag ≤ x.tag)))[n]? with
        | some x => some (v, r, x)
        | none => none

/-- The flushing read of a running command has been answered: a failure fails a command whose record is still due. -/
def stageFlushed (d : Dev) (q sq : Nat) (ok : Bool) : Dev :=
  runMod d q sq (fun r =>
    if r.hostWrote && !r.flushed then
      { r with flushed := true, final := if ok || r.recorded then r.final else some stHostAbort }
    else r)

/-- Data for a plan: kept by host address. -/
def planData (d : Dev) (x n : Nat) (data : List Byte) : Dev :=
  match planGet d x with
  | none => d
  | some p =>
    match p.hostWait[n]? with
    | none => d
    | some h =>
      if data.length ≠ h.len then d
      else planMod (pcAdd d kHostRx data.length) x (fun p =>
        { p with hostWait := p.hostWait.eraseIdx n, rbuf := smSetList 0 p.rbuf h.addr (data.map (fun b => b.toNat + 1)) })

/-- HOST_READ_COMPLETION, of the `n`-th read that the target has outstanding. -/
def hostReadDev (t : HostReadTarget) (n : Nat) (ok : Bool) (data : List Byte) (o : Otp) (d : Dev) : Dev :=
  match t with
  | .ring q => if ok then commandFetchDev q data o d else fetchAbort d q
  | .stage q sq =>
    match stageWaits d q sq n with
    | none => d
    | some (v, r, x) =>
      if !ok then stageAbort d q sq r
      else if data.length ≠ x.len then d
      else stageData (pcAdd d kHostRx data.length) q sq v.owner r x data
  | .stageFlush q sq => stageFlushed d q sq ok
  | .plan x =>
    match planGet d x with
    | none => d
    | some p => if p.hostWait.length ≤ n then d else if ok then planData d x n data else planFail d x stHostAbort
  | .planFlush x =>
    match planGet d x with
    | none => d
    | some p =>
      if p.flush = 0 then d else if ok then planMod d x (fun p => { p with flush := p.flush - 1 }) else planFail d x stHostAbort
  | .objFlush i =>
    let f : MemObj → MemObj := fun ob =>
      if ob.flushing ≠ 0 then { ob with flushing := ob.flushing - 1, flushSt := if ok then ob.flushSt else stHostAbort } else ob
    flushSettle { d with objs := smMod none d.objs i (fun x => x.map f) } i

/-- HOST_READ_COMPLETION. -/
def execHostReadCompletion (t : HostReadTarget) (n : Nat) (ok : Bool) (data : List Byte) (s : State) :
    Host.Outcome State Fault Refusal := runDev (hostReadDev t n ok data) s

/-- HOST_READ_TIMEOUT (R440, R451). -/
def hostTimeoutDev (t : HostReadTarget) (n : Nat) (o : Otp) (d : Dev) : Dev := hostReadDev t n false [] o d

/-- HOST_READ_TIMEOUT. -/
def execHostReadTimeout (t : HostReadTarget) (n : Nat) (s : State) : Host.Outcome State Fault Refusal :=
  runDev (hostTimeoutDev t n) s

/-! ### Messages (Table 16-10) -/

/-- HOST_LINK_STATUS as a function reads it (Table 16-5). -/
def linkStatus (d : Dev) (fn : Nat) : Nat :=
  (d.host.rate % 16) <<< 4 + (d.host.width % 16) <<< 8 + d.host.flit.toNat <<< 14 + (d.host.refused.contains fn).toNat <<< 15

/-- DZ_HOST_APERTURE (R446). -/
def hHostAperture (ch : Nat) (p : List Byte) (_o : Otp) (d : Dev) : DzRes :=
  dzPf ch d stHostDenied <|
  let fn := fld p 0 1
  let a := fld p 1 1
  let base := fld p 8 8
  dzNeed d (decide (fn < 8) && decide (a < (if fn = 0 then 16 else 4)) && decide (fld p 2 1 < 2) && zeroAt p 3 5 &&
    isMul base 4096 && decide (base + 2 ^ 32 ≤ 2 ^ 44)) stHostParam <|
  dzOk { d with host := { d.host with apertures := smSet aperture0 d.host.apertures (fn * 16 + a) ⟨fld p 2 1 == 1, base⟩ } } []

/-- DZ_HOST_STATUS. -/
def hHostStatus (ch : Nat) (_p : List Byte) (_o : Otp) (d : Dev) : DzRes :=
  dzOk d (natLe 8 (linkStatus d (fnOf ch)) ++ (List.range 5).flatMap (fun i => pcBytes d (kHostTx + i)) ++
    natLe 1 (pcOvf d kHostTx 5) ++ zeros 1 ++
    (List.range 16).flatMap (fun a =>
      let x := smGet aperture0 d.host.apertures (fnOf ch * 16 + a)
      natLe 8 (x.base + x.en.toNat)))

end Sys2Proof.Machine
end

