-- ==== Sys2Proof/Machine/Security.lean ====
section
/-!
DEFINITION. Security functions (chapter 20) and firmware update (R479 to R483): signed images, the boot ROM's choice and
measurements, keys, anti-rollback counters, unlock tokens, zeroisation, and their messages.
-/

namespace Sys2Proof.Machine

/-! ### Signed images (R524 to R526) -/

/-- SI_SVN. -/
def siSvn (img : List Byte) : Nat := fld img 8 2
/-- SI_BUILD. -/
def siBuild (img : List Byte) : Nat := fld img 12 4
/-- SI_LEN. -/
def siLen (img : List Byte) : Nat := fld img 16 4
/-- SI_BLOCKS. -/
def siBlocks (img : List Byte) : Nat := fld img 24 4
/-- The signed bytes: bytes 0 to 63 and the block table. -/
def siSigned (img : List Byte) : List Byte := img.take 64 ++ (img.drop 128).take (32 * siBlocks img)

/-- The format, type and lengths follow Table 20-1; `area` is the size of the flash area. -/
def siForm (img : List Byte) (typ area : Nat) : Bool :=
  decide (8192 ≤ img.length) && fld img 0 4 == 0x47534953 && fld img 4 2 == 1 && fld img 6 1 == typ &&
  zeroAt img 10 2 && decide (1 ≤ siLen img) && decide (siLen img + 8192 ≤ area) &&
  decide (img.length = 8192 + siLen img) &&
  (if typ = 1 then isMul (fld img 20 4) 65536 && decide (65536 ≤ fld img 20 4) && decide (fld img 20 4 ≤ 2 ^ 20)
   else fld img 20 4 == 0) &&
  siBlocks img == ceilDiv (siLen img) 65536 && zeroAt img 28 36 && decide (128 + 32 * siBlocks img ≤ 8192) &&
  zeroAt img (128 + 32 * siBlocks img) (8192 - (128 + 32 * siBlocks img))

/-- Block `i` of the body matches its digest. -/
def siBlockOk (img : List Byte) (i : Nat) : Bool :=
  sm3 (((img.drop 8192).drop (i * 65536)).take 65536) == (img.drop (128 + 32 * i)).take 32

/-- Entry `k` of a manifest: its public key and its usage mask. -/
def manEntry (man : List Byte) (k : Nat) : List Byte × Nat :=
  ((man.drop (8192 + 80 * k)).take 64, fld man (8192 + 80 * k + 64) 4)

/-- The root public key of a manifest. -/
def manRoot (man : List Byte) : List Byte := (man.drop (8192 + 640)).take 64

/-- The boot ROM accepts a manifest (R525). -/
def manifestForm (img : List Byte) : Bool :=
  siForm img 3 (2 ^ 20) && fld img 7 1 == 0xFF && siLen img == 704 && siBlockOk img 0

/-- The root key is the fused one and signed the manifest. -/
def manifestSigned (o : Otp) (img : List Byte) : Bool :=
  beNat (sm3 (manRoot img)) == o.rootHash.toNat && sm2Verify (manRoot img) (siSigned img) ((img.drop 64).take 64)

/-- The manifest in use. -/
def manifestOf (d : Dev) : List Byte :=
  match d.sec.manifest with
  | some 0 => d.flash.manifest0
  | some _ => d.flash.manifest1
  | none => []

/-- A manifest entry may be used: it is not empty, not revoked, and has the usage bit (R526, R536). -/
def keyUsable (o : Otp) (d : Dev) (k bitNo : Nat) : Bool :=
  let e := manEntry (manifestOf d) k
  d.sec.manifest.isSome && decide (k < 8) && e.1.any (· != 0) && !(o.revoked.toNat.testBit k) && e.2.testBit bitNo

/-- The entries of an anti-rollback counter. -/
def arbList (o : Otp) (c : Nat) : List H16 := if c = 0 then o.arb0 else if c = 1 then o.arb1 else o.arb2
/-- The number of entries a counter has (R533). -/
def arbSize (c : Nat) : Nat := if c = 0 then 128 else 32
/-- The value of a counter: its last programmed entry. -/
def arbValue (o : Otp) (c : Nat) : Nat := ((arbList o c).getLast?.map (·.toNat)).getD 0

/-- Advance a counter (R533): never to a value not above its own; a full counter is reported. -/
def arbAdvance (o : Otp) (d : Dev) (c v : Nat) : Dev :=
  if v ≤ arbValue o c then d
  else if arbSize c ≤ (arbList o c).length then
    log6 { d with sec := { d.sec with arbFull := true } } stSecArbFull 7 0
  else { d with burns := d.burns ++ [.arb c (BitVec.ofNat 16 v)] }

/-- The counter's value once the command is over. -/
def arbAfter (o : Otp) (c v : Nat) : Nat :=
  if arbValue o c < v ∧ (arbList o c).length < arbSize c then v else arbValue o c

/-- Verification of an image of type 1 or 2 (R526), with the statuses of its type. -/
def verifyImage (o : Otp) (d : Dev) (img : List Byte) (typ area : Nat) : Nat :=
  let fw := typ == 1
  if d.sec.error then stSecError
  else if !siForm img typ area then (if fw then stFwImage else stKatLib)
  else if !keyUsable o d (fld img 7 1) (typ - 1) then stSecKey
  else if !sm2Verify (manEntry (manifestOf d) (fld img 7 1)).1 (siSigned img) ((img.drop 64).take 64) then
    (if fw then stFwSig else stKatLib)
  else if siSvn img < arbValue o (typ - 1) then (if fw then stFwRollback else stKatLib)
  else stOk

/-! ### Measurements and keys (R529 to R531) -/

/-- A measurement register as bytes. -/
def measBytes (d : Dev) (n : Nat) : List Byte := natBe 32 (d.sec.meas.getD n 0).toNat

/-- Extend a measurement register (R529). -/
def measExtend (d : Dev) (n : Nat) (dig : List Byte) : Dev :=
  { d with sec := { d.sec with meas := setAt d.sec.meas n (BitVec.ofNat 256 (beNat (sm3 (measBytes d n ++ dig)))) } }

/-- Zeroise every key (R537). -/
def zeroise (d : Dev) : Dev :=
  { d with sec := { d.sec with udsCopy := none, identKey := none, aliasKey := none } }

/-- A failed self-test (R539): the ERROR state until the next module reset. -/
def secError (d : Dev) : Dev :=
  let d := zeroise d
  log6 { d with sec := { d.sec with error := true } } stSecSelftest 7 0

/-- Derive the identity and alias keys and sign the alias certificate (R530, R531); nothing with the kill bit set. -/
def deriveKeys (o : Otp) (d : Dev) (svn : Nat) : Dev :=
  if o.kill then d
  else
    let uds := natBe 32 o.uds.toNat
    let ik := sm2Derive uds [0x49, 0x44, 0x45, 0x4E, 0x54]
    let ak := sm2Derive uds ([0x41, 0x4C, 0x49, 0x41, 0x53] ++ measBytes d 0 ++ measBytes d 1 ++ measBytes d 2)
    let cert := sm2Pub ak ++ measBytes d 0 ++ measBytes d 1 ++ measBytes d 2 ++ natLe 2 svn ++ zeros 30
    let sig := sm2Sign ik (Config.freeRandom d.freeIdx).toNat cert
    bump { d with sec := { d.sec with udsCopy := some o.uds, identKey := some ik, aliasKey := some ak,
                                      identPub := sm2Pub ik, aliasCert := cert, aliasSig := sig } }

/-- The running image is that of slot `fw.running`. -/
def slotGet (d : Dev) (i : Nat) : FwSlot := if i = 0 then d.flash.slot0 else d.flash.slot1

/-- Replace a slot. -/
def slotSet (d : Dev) (i : Nat) (v : FwSlot) : Dev :=
  if i = 0 then { d with flash := { d.flash with slot0 := v } } else { d with flash := { d.flash with slot1 := v } }

/-- The certified configuration holds (R541). -/
def certified (o : Otp) (d : Dev) : Bool :=
  !d.sec.debugTaken && !d.sec.error && !o.kill && !d.sec.arbFull &&
    Config.certifiedBuild (slotGet d d.fw.running).build

/-- Bits 0 to 3 of AT_STATE (Table 20-4). -/
def atState (o : Otp) (d : Dev) : Nat := ofBits [d.sec.locked, d.sec.serviceTaken, d.sec.error, certified o d]

/-! ### The boot ROM's course (R527, R483) -/

/-- The image of a slot verifies at boot: header, signature, and every block of its boot section. -/
def bootVerifies (o : Otp) (d : Dev) (i : Nat) : Bool :=
  let img := (slotGet d i).image
  verifyImage o d img 1 (2 ^ 23) == stOk && (List.range (fld img 20 4 / 65536)).all (siBlockOk img)

/-- A slot becomes REJECTED. -/
def reject (d : Dev) (i : Nat) : Dev := slotSet d i { slotGet d i with state := 5 }

/-- Boot the ACTIVE slot, or the other slot if it is STANDBY and its version is not below the counter (R483). The
result names the slot that boots. -/
def bootActive (o : Otp) (d : Dev) : Dev × Option Nat :=
  match [0, 1].find? (fun i => (slotGet d i).state == 4) with
  | none =>
    match [0, 1].find? (fun i => (slotGet d i).state == 2 && bootVerifies o d i) with
    | some i => (d, some i)
    | none => (d, none)
  | some i =>
    if bootVerifies o d i then (d, some i)
    else
      let d := reject d i
      let j := 1 - i
      if (slotGet d j).state = 2 ∧ arbValue o 0 ≤ (slotGet d j).svn ∧ bootVerifies o d j then (d, some j)
      else (d, none)

/-- The boot ROM chooses a slot (R483). -/
def bootChoose (o : Otp) (d : Dev) : Dev × Option Nat :=
  match [0, 1].find? (fun i => (slotGet d i).state == 3) with
  | none => bootActive o d
  | some i =>
    let v := slotGet d i
    if v.trial = 0 then
      let d := slotSet d i { v with trial := 1 }
      if bootVerifies o d i then (d, some i)
      else bootActive o { reject d i with fw := { d.fw with rejected := true } }
    else bootActive o { reject d i with fw := { d.fw with rejected := true } }

/-- The first manifest copy that verifies (R527, step 3). -/
def chooseManifest (o : Otp) (d : Dev) : Option Nat :=
  if manifestForm d.flash.manifest0 && manifestSigned o d.flash.manifest0 then some 0
  else if manifestForm d.flash.manifest1 && manifestSigned o d.flash.manifest1 then some 1 else none

/-- Steps 1 to 8 of the boot ROM after its self-tests (R527): the phase that follows is firmware, or recovery when no
slot can boot (R528). -/
def bootRom (o : Otp) (d : Dev) : Dev :=
  let d := { d with sec := { d.sec with manifest := chooseManifest o d } }
  let r := if d.sec.manifest = none then (d, none) else bootChoose o d
  let d := r.1
  match r.2 with
  | none => { d with pow := { d.pow with phase := .recovery } }
  | some i =>
    let d := measExtend d 0 (sm3 (Config.bootRecord o.capEngines o.capUnits o.rootHash))
    let d := measExtend d 1 (sm3 (siSigned (manifestOf d)))
    let d := measExtend d 2 (sm3 (siSigned (slotGet d i).image))
    let d := deriveKeys o d (siSvn (slotGet d i).image)
    { d with fw := { d.fw with running := i, staging := 255 }, pow := { d.pow with phase := .firmware } }

/-! ### Firmware update messages (R480 to R483, Table 17-10) -/

/-- The slot that is not running. -/
def otherSlot (d : Dev) : Nat := 1 - d.fw.running

/-- Write a slot's record (R479): the sector of its two that is not in use is erased first (R515). -/
def slotRecord (o : Otp) (d : Dev) (i : Nat) (v : FwSlot) : Dev := lgAdd o (slotSet d i v) 12 1

/-- A slot is TRIAL. -/
def anyTrial (d : Dev) : Bool := (slotGet d 0).state == 3 || (slotGet d 1).state == 3

/-- Staging is refused (R480). -/
def stageBarred (d : Dev) (ch : Nat) : Bool := anyTrial d || (d.fw.staging != 255 && d.fw.staging != ch)

/-- A firmware event of the Ledger (Table 19-3): its slot, and the image's version and build identity. -/
def fwEvent (o : Otp) (d : Dev) (sub i : Nat) : Dev :=
  lgEvent o d 6 sub i ((slotGet d i).svn + (slotGet d i).build <<< 32)

/-- The outcome of staging `img` into the other slot: STANDBY, or EMPTY with the first applicable status. -/
def stageImage (o : Otp) (d : Dev) (img : List Byte) (erase : Bool) : DzRes :=
  let i := otherSlot d
  let d := { d with fw := { d.fw with staging := 255 } }
  let d := if erase then lgAdd o d 11 2048 else d
  let empty := slotRecord o d i slotEmpty
  let st := verifyImage o d img 1 (2 ^ 23)
  if st ≠ stOk then dzErr empty st
  else if d.flash.badFw then dzErr empty stFwFlash
  else
      let d := slotRecord o d i ⟨2, 0, siSvn img, siBuild img, img.length, img⟩
      let d := fwEvent o (lgAdd o d 9 1) 1 i
      dzOk d (natLe 4 (siBuild img) ++ natLe 2 (siSvn img) ++ zeros 2)

/-- DZ_FW_STAGE (R480). In recovery a verified slot is made TRIAL with count 0 (R528). -/
def hFwStage (ch : Nat) (p : List Byte) (o : Otp) (d : Dev) : DzRes :=
  let src := fld p 0 1
  let a := fld p 8 8
  let n := fld p 16 4
  dzNeed d (decide (src < 2) && zeroAt p 1 7 && (src == 0 || a == 0)) stMbxParam <|
  if src = 0 then
    dzNeed d (inHbm d a n) stAddrUnmapped <|
    dzNeed d (!stageBarred d ch) stFwState <|
    stageImage o d (memRead d a n) true
  else
    let v := slotGet d (otherSlot d)
    dzNeed d (v.state == 1 && d.fw.staging == ch && !anyTrial d) stFwState <|
    dzNeed { slotRecord o d (otherSlot d) slotEmpty with fw := { d.fw with staging := 255 } } (n == v.image.length) stFwImage <|
    stageImage o d v.image false

/-- DZ_FW_OPEN (R480). -/
def hFwOpen (ch : Nat) (_p : List Byte) (o : Otp) (d : Dev) : DzRes :=
  dzNeed d (!stageBarred d ch) stFwState <|
  let d := lgAdd o d 11 2048
  if d.flash.badFw then dzErr { slotRecord o d (otherSlot d) slotEmpty with fw := { d.fw with staging := 255 } } stFwFlash
  else dzOk { slotRecord o d (otherSlot d) { slotEmpty with state := 1 } with fw := { d.fw with staging := ch } } []

/-- DZ_FW_CHUNK (R480): a failure past the state check leaves the slot EMPTY. -/
def hFwChunk (ch : Nat) (p : List Byte) (o : Otp) (d : Dev) : DzRes :=
  let off := fld p 0 4
  let n := fld p 4 4
  let v := slotGet d (otherSlot d)
  let data := p.drop 16
  dzNeed d (zeroAt p 12 4 && decide (1 ≤ n ∧ n ≤ 3984)) stMbxParam <|
  dzNeed d (v.state == 1 && d.fw.staging == ch) stFwState <|
  let empty := { slotRecord o d (otherSlot d) slotEmpty with fw := { d.fw with staging := 255 } }
  dzNeed empty (off == v.image.length && decide (off + n ≤ 2 ^ 23)) stFwImage <|
  dzNeed empty (!d.flash.badFw && crc32c data == fld p 8 4) stFwFlash <|
  dzOk (slotSet d (otherSlot d) { v with image := v.image ++ data, len := off + n }) []

/-- The STANDBY slot, the one that is not running before the other. -/
def standbySlot (d : Dev) : Option Nat := [otherSlot d, d.fw.running].find? (fun i => (slotGet d i).state == 2)

/-- DZ_FW_ACTIVATE (R482). -/
def hFwActivate (_ch : Nat) (p : List Byte) (o : Otp) (d : Dev) : DzRes :=
  let mode := fld p 0 1
  dzNeed d (decide (mode < 2) && zeroAt p 1 7) stMbxParam <|
  match standbySlot d with
  | none => dzErr d stFwNone
  | some i =>
    dzNeed d (!anyTrial d) stFwState <|
    let d := fwEvent o (slotRecord o d i { slotGet d i with state := 3, trial := 0 }) 2 i
    dzOk (if mode = 1 then { d with pow := { d.pow with fwResetPending := true } } else d) []

/-- DZ_FW_REVERT (R482). -/
def hFwRevert (_ch : Nat) (_p : List Byte) (o : Otp) (d : Dev) : DzRes :=
  match standbySlot d with
  | none => dzErr d stFwNone
  | some i =>
    dzNeed d (decide (arbValue o 0 ≤ (slotGet d i).svn)) stFwRollback <|
    dzNeed d (!anyTrial d) stFwState <|
    dzOk (fwEvent o (slotRecord o d i { slotGet d i with state := 3, trial := 0 }) 5 i) []

/-- DZ_FW_CONFIRM (R481, R483). -/
def hFwConfirm (_ch : Nat) (_p : List Byte) (o : Otp) (d : Dev) : DzRes :=
  let i := d.fw.running
  let v := slotGet d i
  dzNeed d (v.state == 3) stFwState <|
  let j := 1 - i
  let d := slotRecord o d i { v with state := 4 }
  let d := if (slotGet d j).state = 4 then slotRecord o d j { slotGet d j with state := 2 } else d
  let d := fwEvent o (arbAdvance o d 0 v.svn) 3 i
  dzOk d (natLe 2 (arbAfter o 0 v.svn))

/-- The 16 bytes of a slot in DZ_FW_QUERY. -/
def fwSlotBytes (v : FwSlot) : List Byte :=
  natLe 1 v.state ++ natLe 1 v.trial ++ natLe 2 v.svn ++ natLe 4 v.build ++ natLe 4 v.len ++ zeros 4

/-- DZ_FW_QUERY. -/
def hFwQuery (_ch : Nat) (_p : List Byte) (o : Otp) (d : Dev) : DzRes :=
  dzOk d (fwSlotBytes d.flash.slot0 ++ fwSlotBytes d.flash.slot1 ++ natLe 2 (arbValue o 0) ++ natLe 1 d.fw.running ++
    natLe 1 d.fw.staging)

/-- DZ_DBG_WINDOW (R484). -/
def hDbgWindow (_ch : Nat) (p : List Byte) (_o : Otp) (d : Dev) : DzRes :=
  let b := fld p 0 8
  dzNeed d (isMul b (2 ^ 25) && decide (controlBase ≤ b) && decide (b < 2 ^ 44)) stDbgParam <|
  dzNeed d (!d.sec.locked) stDbgLocked <|
  dzOk { d with fw := { d.fw with dbgBase := BitVec.ofNat 64 b } } []

/-! ### Security messages (Table 20-7) -/

/-- A security message in the ERROR state (R539). -/
def secLive (d : Dev) (r : DzRes) : DzRes := if d.sec.error then dzErr d stSecError else r

/-- DZ_SEC_MEAS. -/
def hSecMeas (_ch : Nat) (_p : List Byte) (o : Otp) (d : Dev) : DzRes :=
  secLive d <|
  dzOk d ((List.range 8).flatMap (measBytes d) ++ natLe 2 (arbValue o 0) ++ natLe 2 (arbValue o 1) ++
    natLe 2 (arbValue o 2) ++ natLe 1 (128 - o.arb0.length) ++ natLe 1 (32 - o.arb1.length) ++
    natLe 1 (32 - o.arb2.length) ++ natLe 1 (atState o d) ++ zeros 6)

/-- DZ_SEC_EXTEND (R529). -/
def hSecExtend (ch : Nat) (p : List Byte) (_o : Otp) (d : Dev) : DzRes :=
  dzPf ch d stSecDenied <|
  let n := fld p 0 1
  dzNeed d (decide (5 ≤ n ∧ n ≤ 7) && zeroAt p 1 7) stSecParam <|
  secLive d <|
  let d := measExtend d n ((p.drop 8).take 32)
  dzOk d (measBytes d n)

/-- AT_FUNC of a channel (Table 20-4). -/
def atFunc (ch : Nat) : Nat := if ch = 16 then 16 else fnOf ch

/-- DZ_SEC_ATTEST (R532, R539): the signature takes a random output, whose health tests pass or fail as in DZ_SEC_CHALLENGE. -/
def hSecAttest (ch : Nat) (p : List Byte) (o : Otp) (d : Dev) : DzRes :=
  secLive d <|
  if o.kill then dzErr d stSecNoident
  else match d.sec.aliasKey with
    | none => dzErr d stSecUnlocked
    | some k =>
      let m := natLe 4 0x54455441 ++ natLe 2 1 ++ natLe 1 (atState o d) ++ natLe 1 (grade o) ++ p.take 32 ++
        identDigest d ++ (List.range 8).flatMap (measBytes d) ++ natLe 2 (slotGet d d.fw.running).svn ++
        natLe 2 (arbValue o 0) ++ natLe 2 (arbValue o 1) ++ natLe 2 (arbValue o 2) ++ natLe 8 (lgGet d 0).toNat ++
        natLe 1 (atFunc ch) ++ zeros 7
      if Config.freeBool d.freeIdx then dzOk (bump d) (m ++ sm2Sign k (Config.freeRandom d.freeIdx).toNat m)
      else dzErr (secError (bump d)) stSecError

/-- DZ_SEC_CERTS (R531). -/
def hSecCerts (_ch : Nat) (p : List Byte) (_o : Otp) (d : Dev) : DzRes :=
  let which := fld p 0 1
  let off := fld p 4 4
  let c := if which = 0 then d.flash.identCert else d.sec.aliasCert ++ d.sec.aliasSig
  dzNeed d (decide (which < 2) && zeroAt p 1 3 && decide (off ≤ c.length)) stSecParam <|
  secLive d <|
  let part := (c.drop off).take 3992
  dzOk d (natLe 4 c.length ++ natLe 4 part.length ++ part)

/-- DZ_SEC_CHALLENGE (R535, R539): the random output is a free value, and so is whether the output's health tests
pass. -/
def hSecChallenge (ch : Nat) (_p : List Byte) (o : Otp) (d : Dev) : DzRes :=
  dzPf ch d stSecDenied <|
  secLive d <|
  if Config.freeBool d.freeIdx then
    let c := natBe 32 (Config.freeRandom d.freeIdx).toNat
    let d := bump { d with sec := { d.sec with challenge := some c } }
    dzOk d (c ++ identDigest d ++ natLe 1 (atState o d))
  else dzErr (secError (bump d)) stSecError

/-- The units that a SERVICE token lists (Table 20-5). -/
def tokenUnits (p : List Byte) : List Nat :=
  (onesBelow 32 (fld p 72 4)).map (ek 1) ++ (onesBelow 32 (fld p 76 4)).map (ek 3) ++
    (onesBelow 16 (fld p 80 2)).map (ek 2) ++ (onesBelow 8 (fld p 82 1)).map (ek 4) ++
    (onesBelow 2 (fld p 84 1)).map collKey

/-- The checks of an unlock token (R536). -/
def tokenStatus (o : Otp) (d : Dev) (p : List Byte) : Nat :=
  if fld p 0 4 ≠ 0x544B4E55 ∨ fld p 4 2 ≠ 1 ∨ 8 ≤ fld p 6 1 ∨ ¬zeroAt p 88 104 ∨ fld p 6 1 = 0 ∨
      d.sec.challenge ≠ some ((p.drop 40).take 32) then stSecToken
  else if (p.drop 8).take 32 ≠ identDigest d then stSecToken
  else if !keyUsable o d (fld p 7 1) 2 then stSecKey
  else if !sm2Verify (manEntry (manifestOf d) (fld p 7 1)).1 (p.take 192) ((p.drop 192).take 64) then stSecSig
  else stOk

/-- What an accepted token does (R536). -/
def tokenAct (o : Otp) (d : Dev) (p : List Byte) : Dev :=
  let scope := fld p 6 1
  let d := measExtend d 4 (sm3 (p.take 256))
  let d := if scope.testBit 0 then
      zeroise { d with sec := { d.sec with locked := false, debugTaken := true } } else d
  let d := if scope.testBit 1 then
      (tokenUnits p).foldl (fun d u => lgEvent o (unitSet d u unit0) 8 0 u 0)
        { d with sec := { d.sec with serviceTaken := true } } else d
  let d := if scope.testBit 2 then zeroise { d with burns := d.burns ++ [.kill] } else d
  log6 d stSecUnlocked 7 0

/-- DZ_SEC_UNLOCK (R536): the challenge held is discarded whatever the outcome. -/
def hSecUnlock (ch : Nat) (p : List Byte) (o : Otp) (d : Dev) : DzRes :=
  dzPf ch d stSecDenied <|
  secLive { d with sec := { d.sec with challenge := none } } <|
  let st := tokenStatus o d p
  let d := { d with sec := { d.sec with challenge := none } }
  if st ≠ stOk then dzErr d st else dzOk (tokenAct o d p) []

/-- The request that a channel is serving. -/
def requestOf (d : Dev) (ch : Nat) : List Byte :=
  let b := (smGet mailbox0 d.mbox ch).buffer
  b.take (32 + fld b 8 4)

/-- DZ_SEC_ZEROISE (R537). -/
def hSecZeroise (ch : Nat) (p : List Byte) (_o : Otp) (d : Dev) : DzRes :=
  dzPf ch d stSecDenied <|
  dzNeed d (zeroAt p 0 8) stSecParam <|
  secLive d <|
  dzOk (zeroise (measExtend d 4 (sm3 (requestOf d ch)))) []

/-- DZ_SEC_MANIFEST (R525, R529, R533): both flash copies, register 1 and counter 2. -/
def hSecManifest (ch : Nat) (p : List Byte) (o : Otp) (d : Dev) : DzRes :=
  dzPf ch d stSecDenied <|
  let a := fld p 0 8
  let n := fld p 8 4
  dzNeed d (inHbm d a n) stAddrUnmapped <|
  secLive d <|
  let img := memRead d a n
  dzNeed d (manifestForm img) stFwImage <|
  dzNeed d (manifestSigned o img) stSecSig <|
  dzNeed d (decide (arbValue o 2 ≤ siSvn img)) stSecRollback <|
  dzNeed d (!d.flash.badSec) stSecFlash <|
  let d := { d with flash := { d.flash with manifest0 := img, manifest1 := img } }
  let d := lgAdd o d 12 6
  let d := arbAdvance o (measExtend d 1 (sm3 (siSigned img))) 2 (siSvn img)
  dzOk d (natLe 2 (arbAfter o 2 (siSvn img)))

/-- DZ_SEC_SELFTEST (R539): the outcome of each test is a free value. -/
def hSecSelftest (ch : Nat) (_p : List Byte) (_o : Otp) (d : Dev) : DzRes :=
  dzPf ch d stSecDenied <|
  secLive d <|
  let r := [Config.freeBool d.freeIdx, Config.freeBool (d.freeIdx + 1), Config.freeBool (d.freeIdx + 2)]
  let d := bump (bump (bump d))
  dzOk (if r.all id then d else secError d) (natLe 1 (ofBits r))

/-! ### The known-answer library (R427) -/

/-- DZ_KAT_LOAD. -/
def hKatLoad (ch : Nat) (p : List Byte) (o : Otp) (d : Dev) : DzRes :=
  intPf ch d <|
  let a := fld p 0 8
  let n := fld p 8 4
  dzNeed d (inHbm d a n) stAddrUnmapped <|
  let img := memRead d a n
  let st := verifyImage o d img 2 (2 ^ 22)
  dzNeed d (st == stOk) st <|
  dzNeed d (!d.flash.badKat) stKatLib <|
  let d := { d with flash := { d.flash with katLib := img }, int := { d.int with libVersion := siSvn img } }
  let d := lgAdd o d 12 1024
  let d := arbAdvance o (measExtend d 3 (sm3 (siSigned img))) 1 (siSvn img)
  dzOk d (natLe 4 (siSvn img))

/-- The version of the library in flash, 0 for none that verifies. -/
def katVersion (o : Otp) (d : Dev) : Nat :=
  if verifyImage o d d.flash.katLib 2 (2 ^ 22) == stOk then siSvn d.flash.katLib else 0

end Sys2Proof.Machine
end

