-- ==== Sys2Proof/Machine/Kat.lean ====
section
/-!
DEFINITION. Known-answer tests (R427, R430): whether a library is held, what a run of tests finds, and what it does to the
unit tested.
-/

namespace Sys2Proof.Machine

/-- A library that verifies is held (R427). The ERROR state of the security processor does not reach compute work (R539). -/
def katOk (o : Otp) (d : Dev) : Bool :=
  verifyImage o { d with sec := { d.sec with error := false } } d.flash.katLib 2 (2 ^ 22) == stOk

/-- The event threshold of a unit (Table 15-5). -/
def katThreshold (u : Nat) : Nat := if u / 32 = 1 ∨ u / 32 = 4 then 3 else if 224 ≤ u then 2 else 4

/-- What a run of tests found (Table 15-7, R429). -/
structure KatRun where
  run : Nat
  failed : Nat
  first : Nat
  events : Nat
  confirmed : Bool

/-- The tests named, with those that fail: `bad` gives for an index how many of its two runs fail (R430). -/
def katFind (tests : List Nat) (bad : List (Nat × Nat)) : KatRun :=
  let fails := fun i => ((bad.find? (fun b => b.1 == i)).map (·.2)).getD 0
  let f := tests.filter (fun i => decide (1 ≤ fails i))
  { run := tests.length, failed := f.length, first := f.headD 0xFFFFFFFF, events := (f.filter (fun i => fails i == 1)).length,
    confirmed := f.any (fun i => decide (2 ≤ fails i)) }

/-- What a run does to the unit (R428, R430): a clean run of a SUSPECT unit counts toward NORMAL, each first failure that then
passes is an event, a confirmed failure retires. A run satisfies a due mark, and its result is logged. -/
def katApply (o : Otp) (d : Dev) (u : Nat) (r : KatRun) : Dev :=
  let v := unitGet d u
  let clean := if r.failed ≠ 0 then 0 else if v.state = 1 then v.clean + 1 else v.clean
  let state := if v.state = 1 ∧ r.failed = 0 ∧ d.int.n ≤ clean then 0 else v.state
  let d := unitSet d u { v with due := false, lastKat := d.verLastStep, clean := clean, state := state }
  let sev := if r.confirmed then 2 else if r.events ≠ 0 then 1 else 0
  let d := logRec d 5 sev (unitIsland u) (unitLb u).1 (unitLb u).2 (if r.confirmed then stKatFail else stOk) 0 false []
  let d := if r.events ≠ 0 then unitEvent o d u (katThreshold u) r.events else d
  if r.confirmed && !retired d u then retireUnit o d u else d

/-- The tests of a unit's class in the library: classes 1 to 4, 7 the Collator. -/
def katCount (d : Dev) (u : Nat) : Nat := Config.katTests d.int.libVersion (u / 32)

end Sys2Proof.Machine
end

