-- ==== Sys2Proof/Machine/Integrity.lean ====
section
/-!
DEFINITION. DC_KAT and the due tests (R428, R429), and the scrub of the control arrays (R413).
-/

namespace Sys2Proof.Machine

/-! ### Known-answer tests -/

/-- The unit that a DC_KAT tests: its engine, or the Collator of the engine's die (Table 15-7). -/
def katUnit (r : Running) : Nat :=
  if (fld r.cmd.body 1 1).testBit 1 then collKey (dieOf (r.engine / 32) (r.engine % 32)) else r.engine

/-- The tests that a DC_KAT names. -/
def katTests (d : Dev) (r : Running) : List Nat :=
  if (fld r.cmd.body 1 1).testBit 0 then List.range (katCount d (katUnit r)) else [fld r.cmd.body 2 2]

/-- What keeps a DC_KAT from running its tests. -/
def katStatus (o : Otp) (d : Dev) (r : Running) : Nat :=
  let flags := fld r.cmd.body 1 1
  let res := fld r.cmd.body 8 8
  firstBad [(katOk o d, stKatLib), (flags.testBit 0 || decide (fld r.cmd.body 2 2 < katCount d (katUnit r)), stKatLib),
    (!flags.testBit 1 || r.engine / 32 == 1, stCmdFormat), (res == 0 || ownMapped d res 32, stAddrUnmapped)]

/-- The result record of a run that took `cyc` cycles (R429). -/
def katRecord (d : Dev) (k : KatRun) (cyc : Nat) : List Byte :=
  sealRec (natLe 4 k.run ++ natLe 4 k.failed ++ natLe 4 k.first ++ natLe 4 d.int.libVersion ++ natLe 4 cyc ++ zeros 8)

/-- DC_KAT (R429): the tests of one engine, or of its die's Collator, at once. `bad` gives the tests that fail. -/
def dcKatDev (q : Nat) (bad : List (Nat × Nat)) (o : Otp) (d : Dev) : Dev :=
  onFresh d q (· == 0x40) (fun d _ r =>
    let sq := r.cmd.cseq.toNat
    let res := fld r.cmd.body 8 8
    let st := katStatus o d r
    if st ≠ stOk then cmdFinal d q sq st 0
    else
      let k := katFind (katTests d r) bad
      let cyc := (Config.freeCount d.freeIdx).toNat
      let d := katApply o (bump d) (katUnit r) k
      let d := if res = 0 then d else memWrite d (localOf res) (katRecord d k cyc)
      cmdFinal d q sq (if k.confirmed then stKatFail else stOk) 0)

/-- DC_KAT. -/
def execDcKat (q : Nat) (bad : List (Nat × Nat)) (s : State) : Host.Outcome State Fault Refusal := runDev (dcKatDev q bad) s

/-- KAT_DUE_RUN (R428, R430): the tests of a due unit, an engine that runs no command or a Collator between two tiles. Without
a library none run, and the mark is gone. -/
def katDueRunDev (u : Nat) (bad : List (Nat × Nat)) (o : Otp) (d : Dev) : Dev :=
  if !(unitGet d u).due || engineBusy d u then d
  else if katOk o d then katApply o d u (katFind (List.range (katCount d u)) bad)
  else unitSet d u { unitGet d u with due := false }

/-- KAT_DUE_RUN. -/
def execKatDueRun (u : Nat) (bad : List (Nat × Nat)) (s : State) : Host.Outcome State Fault Refusal := runDev (katDueRunDev u bad) s

/-! ### SCRUB_PASS (R413) -/

/-- An uncorrectable error that a scrub finds in entry `i` of array `a` (R413): in the arrays whose reader fails, the operation
that the entry serves, of channel or MXE `i`; a packet's header state serves none. -/
def arrayLost (d : Dev) (a i : Nat) : Dev :=
  if a = 8 then chEnd d i stCtlLost else if a = 10 then stFault d (ek 1 i) stCtlLost else arrayLose d a i

/-- One error that a scrub finds, of `n` bits. -/
def scrubOne (d : Dev) (a i n : Nat) (injected : Bool) : Dev :=
  if n = 0 then d else if n = 1 then ctlNote d a 1 injected else arrayLost (ctlNote d a n injected) a i

/-- SCRUB_PASS: every entry is read and corrected. `faults` are the errors that stand in the arrays: array, entry, bits
wrong. Injected flips strike first (R439). -/
def scrubPassDev (faults : List (Nat × Nat × Nat)) (_o : Otp) (d : Dev) : Dev :=
  let inj := d.int.injects.filter (fun i => i.kind == 1 || i.kind == 2)
  let d := { d with int := { d.int with injects := d.int.injects.filter (fun i => !(i.kind == 1 || i.kind == 2)) } }
  let d := inj.foldl (fun d i => scrubOne d i.unit i.index i.kind true) d
  faults.foldl (fun d f => scrubOne d f.1 f.2.1 f.2.2 false) d

/-- SCRUB_PASS. -/
def execScrubPass (faults : List (Nat × Nat × Nat)) (s : State) : Host.Outcome State Fault Refusal :=
  runDev (scrubPassDev faults) s

end Sys2Proof.Machine
end

