-- ==== Sys2Proof/Machine/Mxe.lean ====
section
/-!
DEFINITION. The matrix engine (chapter 8) and the Collator's check of its tiles (R418 to R421): scale loads, products,
limits, drains, the two events of a tile's check, and the messages of Table 8-7.
-/

namespace Sys2Proof.Machine

/-! ### Registers -/

/-- Accumulator `a`. -/
def accGet (v : Stream) (a : Nat) : Acc := smGet acc0 v.accs a
/-- Replace it. -/
def accSet (v : Stream) (a : Nat) (x : Acc) : Stream := { v with accs := smSet acc0 v.accs a x }
/-- The other half of an FP64 pair (R224). -/
def accMate (a : Nat) : Nat := if a % 2 = 0 then a + 1 else a - 1
/-- An accumulator becomes VOID, with the other half when it is half of an FP64 pair. -/
def accVoid (v : Stream) (a : Nat) : Stream :=
  let v' := accSet v a acc0
  if (accGet v a).typ = 3 then accSet v' (accMate a) acc0 else v'
/-- An accumulator takes a tile; an FP64 tile takes the next one with it (R224). -/
def accPut (v : Stream) (a : Nat) (x : Acc) : Stream :=
  if x.typ = 3 then accSet (accSet (accVoid (accVoid v a) (accMate a)) a x) (accMate a) { acc0 with valid := true, typ := 3 }
  else accSet (accVoid v a) a x

/-- Scale register `n` of an MXE (R59); there are 4,096, and what lies beyond them is a free value. -/
def scaleGet (d : Dev) (inst n : Nat) : Nat :=
  if n < 4096 then smGet 0 d.scales (inst * 4096 + n) else (Config.freeWord (d.freeIdx * 65536 + n)).toNat

/-- A write of a scale register (Table 2-4, R15, R17): reserved bits stay zero, and a reserved shift leaves the field. -/
def scaleWrite (d : Dev) (inst n w : Nat) : Dev :=
  let k := inst * 4096 + n
  let s := if bits w 32 6 = 63 then bits (smGet 0 d.scales k) 32 6 else bits w 32 6
  { d with scales := smSet 0 d.scales k (bits w 0 32 + s * 2 ^ 32 + bits w 40 8 * 2 ^ 40) }

/-- Write consecutive scale registers. -/
def scaleWrites (d : Dev) (inst : Nat) : Nat → List Nat → Dev
  | _, [] => d
  | n, w :: ws => scaleWrites (scaleWrite d inst n w) inst (n + 1) ws

/-! ### MXE_SCALE_LOAD (R226) -/

/-- MXE_SCALE_LOAD: a load slot with LS_BUF 0x20 to 0x2F. -/
def mxeScaleLoadDev (inst : Nat) (o : Otp) (d : Dev) : Dev :=
  let e := ek 1 inst
  onSlot o d e (fun s => (s.kind == 1 || s.kind == 2) && decide (0x20 ≤ bits s.w 8 8 ∧ bits s.w 8 8 ≤ 0x2F)) (fun d v s =>
    match stTd v (bits s.w 24 4) with
    | none => stFault d e stSpUnbound
    | some t => withAp d e v (bits s.w 16 8) (fun d ap =>
      let is := apTile ap (loopCtrs v) t.ndim
      if t.etype ≠ 7 ∨ apFits ap t.ndim = false ∨ 256 < is.length then stFault d e stMxShape
      else slotNeed d e v (tdRanges t is) <|
        slotDone (scaleWrites d inst (256 * (bits s.w 8 8 - 0x20)) (is.map (tdRead d v.rbuf t))) e))

/-- MXE_SCALE_LOAD. -/
def execMxeScaleLoad (inst : Nat) (s : State) : Host.Outcome State Fault Refusal := runDev (mxeScaleLoadDev inst) s

/-! ### M_LIMIT (R235) -/

/-- The compute slot of an opcode. -/
def isCompute (op : Nat) (s : Slot) : Bool := (s.kind == 3 || s.kind == 4) && bits s.w 56 8 == op

/-- M_LIMIT. -/
def mLimitDev (inst : Nat) (o : Otp) (d : Dev) : Dev :=
  let e := ek 1 inst
  onSlot o d e (isCompute 3) (fun d v s =>
    let p := bits s.w 50 6
    let a := param64 v p
    let st := firstBad [(isMul a 8, stMxLimit), (windowOk d v.fn a 4 false, stRrWindow), (gaMapped d a 4, stAddrUnmapped)]
    if st ≠ stOk then stFault d e st
    else slotNeed d e v [(a, 4)] <|
      slotDone (stMod d e (fun v =>
        { v with lims := smSet 0 v.lims (bits s.w 48 2) (min (leNat (gaRead d v.rbuf a 4)) (param v (p + 2))) })) e)

/-- M_LIMIT. -/
def execMLimit (inst : Nat) (s : State) : Host.Outcome State Fault Refusal := runDev (mLimitDev inst) s

/-! ### Operands of a product (R227 to R234, R242) -/

/-- The fields of M_MMA (Table 8-1). -/
structure Mma where
  a : Nat
  b : Nat
  acc : Nat
  clr : Bool
  ta : Bool
  tb : Bool
  s24 : Bool
  occ : Bool
  md : Nat
  ob : Nat
  gen : Bool
  glim : Nat
  glc : Nat
  wg : Bool
  fgrp : Nat

/-- Parse the slot. -/
def mmaParse (w : Nat) : Mma :=
  { a := bits w 52 4, b := bits w 48 4, acc := bits w 29 3, clr := w.testBit 28, ta := w.testBit 27, tb := w.testBit 26,
    s24 := w.testBit 25, occ := w.testBit 24, md := bits w 20 4, ob := bits w 16 4, gen := w.testBit 15,
    glim := bits w 13 2, glc := bits w 11 2, wg := w.testBit 10, fgrp := bits w 2 8 }

/-- An operand's tile: descriptor, origin, extents, and the dimension that is reduced; the other is dimension 1 - red. -/
structure MOp where
  t : Td
  org : List Int
  ap : List Byte
  red : Nat

/-- The operand of a binding under an access pattern. -/
def mOp (v : Stream) (t : Td) (ap : List Byte) (red : Nat) : MOp := ⟨t, (apTile ap (loopCtrs v) t.ndim).headD [], ap, red⟩

/-- Extent along the reduction dimension. -/
def mRed (x : MOp) : Nat := apExt x.ap x.red
/-- Extent along the other dimension. -/
def mOth (x : MOp) : Nat := apExt x.ap (1 - x.red)
/-- Origin along the reduction dimension. -/
def mRedOrg (x : MOp) : Int := x.org.getD x.red 0
/-- Origin along the other dimension. -/
def mOthOrg (x : MOp) : Int := x.org.getD (1 - x.red) 0

/-- The view position at reduction index `k` and index `j` of the other dimension, relative to the tile. -/
def mPos (x : MOp) (k : Int) (j : Nat) : List Int :=
  (List.range x.org.length).map (fun i => x.org.getD i 0 + (if i = x.red then k else if i = 1 - x.red then (j : Int) else 0))

/-- The view positions of the tile, dimension 0 fastest. -/
def mTile (v : Stream) (x : MOp) : List (List Int) := apTile x.ap (loopCtrs v) x.t.ndim

/-- The extents fit an operand: dimensions 0 and 1 as the product needs them, 1 above (R228). -/
def mFits (x : MOp) : Bool :=
  apFits x.ap x.t.ndim && decide (1 ≤ mOth x ∧ mOth x ≤ 64) &&
    (List.range 6).all (fun k => decide (k < 2) || decide (x.t.ndim ≤ k) || apExt x.ap k == 1)

/-- What a product reads and from where: A, B, the metadata, the mask, the side list, and K. -/
structure MSet where
  q : Mma
  a : MOp
  b : MOp
  mdT : Option Td
  mskT : Option Td
  sideT : Option Td
  k : Nat

/-- The view position of the metadata element of group `g` of column `n` (R232). -/
def mdPos (x : MSet) (g n : Nat) : List Int :=
  (List.range x.b.org.length).map (fun i =>
    if i = x.b.red then mRedOrg x.b / 2 + g else x.b.org.getD i 0 + (if i = 1 - x.b.red then (n : Int) else 0))

/-- The view position of the mask element of the `g`-th block of 64 along K (R233). -/
def mskPos (x : MSet) (t : Td) (g : Nat) : List Int :=
  (List.range t.ndim).map (fun i => if i = 0 then mRedOrg x.a / 64 + g else if i = 1 then mOthOrg x.a / 64 else 0)

/-- Steps along the reduction index of B. -/
def mSteps (x : MSet) : Nat := if x.q.s24 then x.k / 2 else x.k

/-- Columns of B in a weight with escapes are cut in blocks of 64 data indices (R66, R242): the block's position of the
element at `k`. -/
def escLead (x : MSet) (k : Nat) : Nat :=
  ((mRedOrg x.b + (k : Int) - (nth x.b.t.padLo x.b.red : Int)).toNat) % 64

/-- The side-list entry of the block that holds the weight at `k` of column `n` (R242). -/
def escEntry (x : MSet) (k n : Nat) : Nat :=
  let dk := (mRedOrg x.b + (k : Int) - (nth x.b.t.padLo x.b.red : Int)).toNat
  let dn := (mOthOrg x.b + (n : Int) - (nth x.b.t.padLo (1 - x.b.red) : Int)).toNat
  dn * ceilDiv (tdData x.b.t x.b.red) 64 + dk / 64

/-- Every byte range that the product reads. -/
def mRanges (v : Stream) (x : MSet) : List (Nat × Nat) :=
  let ns := List.range (mOth x.b)
  let md := match x.mdT with
    | some t => tdRanges t (ns.flatMap (fun n => (List.range (x.k / 4)).map (fun g => mdPos x g n)))
    | none => []
  let mk := match x.mskT with
    | some t => tdRanges t ((List.range (ceilDiv x.k 64)).map (mskPos x t))
    | none => []
  let sd := match x.sideT with
    | some t =>
      tdRanges x.b.t (ns.flatMap (fun n => (List.range (escLead x 0)).map (fun (j : Nat) => mPos x.b (-1 - (j : Int)) n))) ++
        tdRanges t (ns.flatMap (fun n => ((List.range x.k).map (fun k => escEntry x k n)).eraseDups.flatMap (fun i =>
          (List.range 4).map (fun s => [((4 * i + s : Nat) : Int)]))))
    | none => []
  tdRanges x.a.t (mTile v x.a) ++ tdRanges x.b.t (mTile v x.b) ++ md ++ mk ++ sd

/-- The values that the product takes, read once. A and B are by index and reduction step; `dense` is the K position of a
step; `formed` says that the product of a step is formed; `slot` is the side-list value of an escape, none when it has none. -/
structure MVal where
  a : Nat → Nat → Nat
  b : Nat → Nat → Nat
  dense : Nat → Nat → Nat
  formed : Nat → Bool
  isEsc : Nat → Nat → Bool
  slot : Nat → Nat → Option Nat

/-- Read the operands (R106, R232, R233, R242). -/
def mValues (d : Dev) (v : Stream) (x : MSet) : MVal :=
  let tab := fun (o : MOp) (js ks : Nat) => (List.range js).map (fun j => (List.range ks).map (fun (k : Nat) =>
    tdRead d v.rbuf o.t (mPos o k j)))
  let at2 := fun (l : List (List Nat)) j k => nth (l.getD j []) k
  let ta := tab x.a (mOth x.a) x.k
  let tb := tab x.b (mOth x.b) (mSteps x)
  let off := fun k n => match x.mdT with
    | some t => bits (tdRead d v.rbuf t (mdPos x (k / 2) n)) (2 * (k % 2)) 2
    | none => 0
  let full := fun g => match x.mskT with
    | some t => tdRead d v.rbuf t (mskPos x t g) != 0
    | none => true
  let esc := fun raw => x.b.t.esc && raw == escCode (x.b.t.etype == 6)
  let data := fun (k : Int) n => !tdOut x.b.t (mPos x.b k n) && !tdPad x.b.t (mPos x.b k n)
  let rank := fun k n => ((List.range (escLead x k)).filter (fun (j : Nat) =>
    esc (tdRead d v.rbuf x.b.t (mPos x.b ((k : Int) - 1 - j) n)))).length
  { a := at2 ta, b := at2 tb,
    dense := fun k n => if x.q.s24 then 4 * (k / 2) + off k n else k,
    formed := fun k => full (k / 64),
    isEsc := fun k n => esc (at2 tb n k),
    slot := fun k n => match x.sideT with
      | some t =>
        if data k n && decide (rank k n < 4) then
          some (tdRead d v.rbuf t [((4 * escEntry x k n + rank k n : Nat) : Int)])
        else none
      | none => none }

/-! ### The product (R230) -/

/-- An operand as an exact value. -/
def mDec (t raw : Nat) : FVal := if etFloat t then fDecode (etFmt t) raw else fvInt (toSigned (etBits t) raw)

/-- The accumulator type of an operand type (R229), as a type code. -/
def mAccType (t : Nat) : Nat := if t = 3 then 3 else if etFloat t then 0 else 4

/-- One addition into a floating-point accumulator: rounded once, with its flags. -/
def mAddF (f : Fmt) (x : Flagged) (a b : FVal) : Flagged :=
  let acc := fDecode f x.1
  let r := fEnc f (fvFma a b acc)
  let rv := fDecode f r
  (r, x.2 ||| (if fvIsFin a && fvIsFin b then 0 else fNfIn) |||
    (if (fvIsNaN rv && !fvIsNaN a && !fvIsNaN b && !fvIsNaN acc) ||
        (!fvIsNaN rv && !fvIsFin rv && fvIsFin a && fvIsFin b && fvIsFin acc) then fNfGen else 0))

/-- One addition into an INT32 accumulator (R45): it saturates, and stays so. -/
def mAddI (x : Int × Bool) (y : Int) : Int × Bool :=
  if x.2 then x else
    let r := satInt (intLo 32) (intHi 32) (x.1 + y)
    (r.1, r.2 != 0)

/-- The steps of column `n` that are formed, in order, each with its K position. -/
def mList (x : MSet) (w : MVal) (n : Nat) : List (Nat × Nat) :=
  ((List.range (mSteps x)).map (fun k => (k, w.dense k n))).filter (fun y => w.formed y.2)

/-- One position of the accumulator after the product: value, flags, saturated. -/
def mCell (x : MSet) (w : MVal) (old : Nat) (sat : Bool) (m n : Nat) : Nat × Nat × Bool :=
  let t := x.a.t.etype
  if etFloat t then
    let f := if t = 3 then fp64 else fp32
    let r := (mList x w n).foldl (fun acc y => mAddF f acc (mDec t (w.a m y.2)) (mDec t (w.b n y.1))) (old, 0)
    (r.1, r.2, false)
  else
    let r := (mList x w n).foldl (fun acc y =>
      if w.isEsc y.1 n then acc
      else mAddI acc (toSigned (etBits t) (w.a m y.2) * toSigned (etBits t) (w.b n y.1))) (toSigned 32 old, sat)
    (ofSigned 32 r.1, if r.2 && !sat then fSatI else 0, r.2)

/-- One position of the outlier plane after the product, with the flags (R242, R66). -/
def mOutl (x : MSet) (w : MVal) (old m n : Nat) : Flagged :=
  (mList x w n).foldl (fun acc y =>
    if w.isEsc y.1 n then
      match w.slot y.1 n with
      | some s => mAddF fp32 acc (fDecode fp32 s) (mDec x.a.t.etype (w.a m y.2))
      | none => (acc.1, acc.2 ||| fEscBad)
    else acc) (old, 0)

/-- The accumulator before the product: zero under MM_CLR = 1, with the escape bit of R224. -/
def mStart (x : MSet) (old : Acc) : Acc :=
  if x.q.clr then { acc0 with valid := true, typ := mAccType x.a.t.etype, esc := x.b.t.esc, rows := mOth x.a, cols := mOth x.b }
  else { old with esc := old.esc || x.b.t.esc }

/-- The accumulator after the product, and its flags. Positions outside the product's extents keep their values. -/
def mResult (x : MSet) (w : MVal) (st : Acc) : Acc × Nat :=
  let cells := (List.range (mOth x.a)).flatMap (fun m => (List.range (mOth x.b)).map (fun n =>
    let k := m * 64 + n
    (k, mCell x w (smGet 0 st.plane k) (st.sat.contains k) m n, if x.b.t.esc then mOutl x w (smGet 0 st.outl k) m n else (0, 0))))
  let fl := cells.foldl (fun a c => a ||| c.2.1.2.1 ||| c.2.2.2) 0
  let acc := cells.foldl (fun (a : Acc) c =>
    { a with plane := smSet 0 a.plane c.1 c.2.1.1, outl := if x.b.t.esc then smSet 0 a.outl c.1 c.2.2.1 else a.outl,
             sat := if c.2.1.2.2 && !a.sat.contains c.1 then a.sat ++ [c.1] else a.sat }) st
  (acc, fl)

/-! ### The Collator's sums (R418) -/

/-- A value of the Collator's: rounded to FP64 for a floating-point plane, exact for an integer plane (R418). -/
def collRound (flt : Bool) (x : FVal) : FVal := if flt then fDecode fp64 (fEnc fp64 x) else x

/-- A sum in the Collator's arithmetic, in the order of the list (DESIGN CHOICE, log 55: the rule names no order). -/
def fvSum (flt : Bool) (l : List FVal) : FVal := l.foldl (fun a x => collRound flt (fvAdd a x)) (.fin false 0 0)

/-- A sum of products in the Collator's arithmetic. -/
def fvDot (flt : Bool) (l : List (FVal × FVal)) : FVal := fvSum flt (l.map (fun x => collRound flt (fvMul x.1 x.2)))

/-- The values of B, by K position, whose products column `n` forms and that enter a plane: the accumulator's, or with
`out` the outlier's (R242). -/
def mFactors (x : MSet) (w : MVal) (out : Bool) (n : Nat) : List (Nat × FVal) :=
  (mList x w n).filterMap (fun y =>
    if w.isEsc y.1 n then (if out then (w.slot y.1 n).map (fun s => (y.2, fDecode fp32 s)) else none)
    else if out then none else some (y.2, mDec x.b.t.etype (w.b n y.1)))

/-- The row checks and the column checks of a plane (R418): P, U and V, and whether one of the positions has saturated. -/
def mChks (x : MSet) (w : MVal) (out : Bool) (st fin : Acc) : List TileChk × List TileChk :=
  let flt := out || st.typ != 4
  let ms := List.range (mOth x.a)
  let ns := List.range (mOth x.b)
  let ks := List.range x.k
  let f := if st.typ = 3 then fp64 else fp32
  let prior := fun k => fvAbs (if out then fDecode fp32 (smGet 0 st.outl k)
    else if st.typ = 4 then fvInt (toSigned 32 (smGet 0 st.plane k)) else fDecode f (smGet 0 st.plane k))
  let sat := fun k => !out && fin.sat.contains k
  let a := fun m k => mDec x.a.t.etype (w.a m k)
  let cols := ns.map (mFactors x w out)
  let at' := fun (g : FVal → FVal) k => cols.flatMap (fun c => (c.filter (fun y => y.1 == k)).map (fun y => g y.2))
  let formed := ks.filter (fun k => at' id k != [])
  let b := formed.map (fun k => (k, fvSum flt (at' id k), fvSum flt (at' fvAbs k)))
  let sumA := ks.map (fun k => (fvSum flt (ms.map (fun m => a m k)), fvSum flt (ms.map (fun m => fvAbs (a m k)))))
  let colA := fun k => sumA.getD k (.fin false 0 0, .fin false 0 0)
  (ms.map (fun m => { p := fvDot flt (b.map (fun y => (a m y.1, y.2.1))), u := fvDot flt (b.map (fun y => (fvAbs (a m y.1), y.2.2))),
                      v := fvSum flt (ns.map (fun n => prior (m * 64 + n))), skip := ns.any (fun n => sat (m * 64 + n)) }),
   cols.zipIdx.map (fun c => { p := fvDot flt (c.1.map (fun y => ((colA y.1).1, y.2))),
                               u := fvDot flt (c.1.map (fun y => ((colA y.1).2, fvAbs y.2))),
                               v := fvSum flt (ms.map (fun m => prior (m * 64 + c.2))), skip := ms.any (fun m => sat (m * 64 + c.2)) }))

/-- Elements as a specimen holds them (R431): packed in order. -/
def specPack (t : Nat) (l : List Nat) : List Byte :=
  if etBits t = 4 then packCodes true l else l.flatMap (natLe (etBits t / 8))

/-- The operands of a specimen and the 16 KiB of prior contents (R431), without the head. -/
def mSpec (d : Dev) (v : Stream) (x : MSet) (w : MVal) (st : Acc) : List Byte :=
  let rd := fun (t : Td) is => specPack t.etype (is.map (tdRead d v.rbuf t))
  let md := match x.mdT with
    | some t => rd t ((List.range (mOth x.b)).flatMap (fun n => (List.range (x.k / 4)).map (fun g => mdPos x g n)))
    | none => []
  let mk := match x.mskT with
    | some t => rd t ((List.range (ceilDiv x.k 64)).map (mskPos x t))
    | none => []
  let sd := if x.sideT.isSome then
      (List.range (mOth x.b)).flatMap (fun n => (List.range x.k).flatMap (fun k => match w.slot k n with
        | some s => if w.isEsc k n then natLe 4 s else []
        | none => []))
    else []
  rd x.a.t (mTile v x.a) ++ rd x.b.t (mTile v x.b) ++ md ++ mk ++ sd ++
    (List.range 4096).flatMap (fun k => natLe 4 (smGet 0 st.plane k))

/-! ### M_MMA (R228, R236, R248) -/

/-- K steps in 16 MXE cycles (Table 8-3). -/
def mRate (t : Nat) (s24 : Bool) : Nat :=
  (if t = 3 then 1 else if etFloat t then 16 else if t = 5 then 32 else 64) * (if s24 then 2 else 1)

/-- MXE cycles of `k` steps (R244). -/
def mCost (t : Nat) (s24 : Bool) (k : Nat) : Nat := ceilDiv (16 * k) (mRate t s24)

/-- The gate or the freeze group skips the product (R236). -/
def mSkips (v : Stream) (q : Mma) : Bool :=
  (q.gen && decide (smGet 0 v.lims q.glim ≤ loopCtr v q.glc)) || (q.wg && v.freeze.toNat.testBit q.fgrp)

/-- The metadata tensor of a compressed B (R232): INT4, B's dimensions in B's orientation, and one element per two compressed
values along the reduction dimension; the innermost data extent is the even number that R68 asks for (DEDUCED, log 91). -/
def mdFits (b : MOp) (t : Td) : Bool :=
  t.etype == 6 && t.ndim == b.t.ndim &&
    (tdDims t).all (fun i =>
      let n := if i = b.red then ceilDiv (tdData b.t i) 2 else tdData b.t i
      tdData t i == if i = 0 then n + n % 2 else n)

/-- The first failing check of Table 8-6. -/
def mStatus (d : Dev) (v : Stream) (x : MSet) : Nat :=
  let t := x.a.t.etype
  let u := x.b.t.etype
  let acc := accGet v x.q.acc
  let fp64ok := match stGen d v with
    | some g => g.needFp64
    | none => false
  firstBad [((t != 3 && u != 3) || fp64ok, stMxFp64),
    (t == u && [1, 2, 3, 5, 6].contains t && !x.a.t.esc && (!x.b.t.esc || t == 5 || t == 6) &&
      (!x.q.s24 || ([1, 2, 5].contains t && !x.b.t.esc)), stMxType),
    (mFits x.a && mFits x.b && decide (mRed x.b = mSteps x) &&
      (!x.q.s24 || (isMul x.k 4 && decide (mRedOrg x.a % 4 = 0) && x.mdT.all (mdFits x.b))) &&
      (!x.q.occ || (decide (mRedOrg x.a % 64 = 0) && decide (mOthOrg x.a % 64 = 0) && isMul x.k 64 && mOth x.a == 64 &&
        x.mskT.all (fun t => t.etype == 5))) &&
      x.sideT.all (fun t => t.etype == 0 && t.ndim == 1), stMxShape),
    (decide (mCost t x.q.s24 x.k ≤ 65536), stMxTile),
    ((t != 3 || x.q.acc % 2 == 0) && (x.q.clr || (acc.valid && acc.typ == mAccType t)), stMxAcc)]

/-- The tile that a reading of the operands makes, and the flags of its product. -/
def mTileOf (d : Dev) (v : Stream) (x : MSet) (word : Nat) (old : Acc) (injected : Bool) : TileSt × Nat :=
  let w := mValues d v x
  let st := mStart x old
  let r := mResult x w st
  let c := mChks x w false st r.1
  let c2 := if x.b.t.esc then mChks x w true st r.1 else ([], [])
  ({ word := word, apA := x.a.ap, apB := x.b.ap, m := mOth x.a, n := mOth x.b, k := x.k, before := old, after := r.1,
     rowChk := c.1, colChk := c.2, outRow := c2.1, outCol := c2.2, spec := mSpec d v x w st, injected := injected,
     rerun := false, rows := [], cols := [], server := none }, r.2)

/-- The product forms: the tile waits for the Collator (R245), which counts and flags follow at once. -/
def mForm (d : Dev) (e : Nat) (v : Stream) (x : MSet) (word : Nat) : Dev :=
  let inj := takeInject d 3 e
  let t := mTileOf d v x word (accGet v x.q.acc) inj.1
  let w := mValues d v x
  let steps := ((List.range x.k).filter w.formed).length
  let macs := ((List.range (mOth x.b)).map (fun n => (mList x w n).length)).foldl (· + ·) 0 * mOth x.a
  let d := stFlags (stMod inj.2 e (fun v => { v with tile := some t.1 })) e t.2
  let d := pcAdd (pcAdd d (kEng e + 3) macs) (kEng e + 4) (mOth x.a * mOth x.b * x.k - macs)
  pcAdd d (kEng e + 5) (mCost x.a.t.etype x.q.s24 steps)

/-- What a product reads, from its two operands and the access patterns of their tiles. -/
def mSetOf (v : Stream) (q : Mma) (ta tb : Td) (apA apB : List Byte) : MSet :=
  let opt := fun (on : Bool) b => if on then stTd v b else none
  let a := mOp v ta apA (if q.ta then 1 else 0)
  ⟨q, a, mOp v tb apB (if q.tb then 0 else 1), opt q.s24 q.md, opt q.occ q.ob, opt (tb.esc && !q.s24) q.md, mRed a⟩

/-- A product that adds to an INT32 accumulator reads its saturated-position bits, entry 8 n + k of their array for
accumulator k of MXE n (R413). The second component says that they are lost. -/
def satLook (d : Dev) (inst : Nat) (v : Stream) (x : MSet) : Dev × Bool :=
  if (x.a.t.etype = 5 ∨ x.a.t.etype = 6) ∧ x.q.clr = false ∧ (accGet v x.q.acc).valid = true then ctlUse d 10 (8 * inst + x.q.acc)
  else (d, false)

/-- M_MMA: skipped (R236), or checked and formed. -/
def mMmaDev (inst : Nat) (o : Otp) (d : Dev) : Dev :=
  let e := ek 1 inst
  onSlot o d e (isCompute 1) (fun d v s =>
    let q := mmaParse s.w
    withAp d e v (bits s.w 40 8) (fun d apA => withAp d e v (bits s.w 32 8) (fun d apB =>
      if mSkips v q then
        let n := apExt apA 0 * apExt apA 1 * apExt apB (if q.tb then 1 else 0)
        slotDone (pcAdd (stMod d e (fun v => if q.clr then accVoid v q.acc else v)) (kEng e + 4) n) e
      else match stTd v q.a, stTd v q.b with
        | some ta, some tb =>
          let x := mSetOf v q ta tb apA apB
          if ((q.s24 || tb.esc) && (stTd v q.md).isNone) || (q.occ && x.mskT.isNone) then stFault d e stSpUnbound
          else
            let st := mStatus d v x
            if st ≠ stOk then stFault d e st
            else
              let u := satLook d inst v x
              if u.2 then stFault u.1 e stCtlLost else slotNeed u.1 e v (mRanges v x) (mForm u.1 e v x s.w)
        | _, _ => stFault d e stSpUnbound)))

/-- M_MMA. -/
def execMMma (inst : Nat) (s : State) : Host.Outcome State Fault Refusal := runDev (mMmaDev inst) s

/-! ### The check of a tile (R419 to R421) -/

/-- A result with values that a fault has put into positions of its planes: below 4,096 of the accumulator's plane, from
there on of the outlier plane. -/
def accWrong (x : Acc) (wrong : List (Nat × Nat)) : Acc :=
  let put := fun (p : SMap Nat) (lo : Nat) => wrong.foldl (fun p w => if w.1 / 4096 = lo then smSet 0 p (w.1 % 4096) w.2 else p) p
  { x with plane := put x.plane 0, outl := put x.outl 1 }

/-- The tile formed again from the operands as they stand (R245): a retry and a third computation read them again. -/
def tileAgain (d : Dev) (v : Stream) (t : TileSt) : TileSt :=
  let q := mmaParse t.word
  match stTd v q.a, stTd v q.b with
  | some ta, some tb =>
    { (mTileOf d v (mSetOf v q ta tb t.apA t.apB) t.word t.before t.injected).1 with
      rerun := t.rerun, rows := t.rows, cols := t.cols, server := t.server }
  | _, _ => t

/-- Positions whose two readings differ, because software wrote an operand too soon: each byte is of one of the two (R18,
R245). -/
def mixPlane (seed base : Nat) (a b res : SMap Nat) : SMap Nat :=
  (((a ++ b).map (·.1)).eraseDups.filter (fun k => smGet 0 a k != smGet 0 b k)).foldl
    (fun p k => smSet 0 p k (mixNat seed (base + 8 * k) 8 [smGet 0 a k, smGet 0 b k])) res

/-- A result of tile `t` when `u` is the tile as a later reading forms it; where the two readings agree it is `res`. -/
def tileMix (d : Dev) (t u : TileSt) (res : Acc) : Acc :=
  { res with plane := mixPlane d.freeIdx 0 t.after.plane u.after.plane res.plane,
             outl := mixPlane d.freeIdx 32768 t.after.outl u.after.outl res.outl }

/-- A value of a plane, exact. -/
def planeVal (typ : Nat) (out : Bool) (a : Acc) (k : Nat) : FVal :=
  if out then fDecode fp32 (smGet 0 a.outl k)
  else if typ = 4 then fvInt (toSigned 32 (smGet 0 a.plane k))
  else fDecode (if typ = 3 then fp64 else fp32) (smGet 0 a.plane k)

/-- A check compares and agrees, or is not compared (R419). -/
def chkAgrees (t : TileSt) (out : Bool) (res : Acc) (c : TileChk) (ps : List Nat) : Bool :=
  let typ := res.typ
  let before := if (mmaParse t.word).clr then acc0 else t.before
  let flt := out || typ != 4
  let obs := fvSum flt (ps.map (fun k => collRound flt (fvSub (planeVal typ out res k) (planeVal typ out before k))))
  if typ = 4 ∧ out = false then c.skip || fvEq obs c.p
  else
    let uv := fvAdd c.u c.v
    let lim : FVal := .fin false 1 (if typ = 3 then 1023 else 127)
    if !fvIsFin uv || !fvLt uv lim then true
    else
      let tol := fvAdd (fvMul (.fin false (t.k + 2) (if typ = 3 then -51 else -22)) uv) (.fin false 1 (-120))
      fvIsFin obs && !fvLt tol (fvAbs (fvSub obs c.p))

/-- The rows and the columns whose checks disagree; `flip` names checks that a fault of the Collator turns over: row m is
m, column n is 64 + n. -/
def tileBad (t : TileSt) (res : Acc) (flip : List Nat) : List Nat × List Nat :=
  let row := fun m => (List.range t.n).map (fun n => m * 64 + n)
  let col := fun n => (List.range t.m).map (fun m => m * 64 + n)
  let chk := fun (out : Bool) (l : List TileChk) i ps => match l[i]? with
    | some c => chkAgrees t out res c ps
    | none => true
  let rows := (List.range t.m).filter (fun m =>
    (chk false t.rowChk m (row m) && chk true t.outRow m (row m)) == flip.contains m)
  let cols := (List.range t.n).filter (fun n =>
    (chk false t.colChk n (col n) && chk true t.outCol n (col n)) == flip.contains (64 + n))
  (rows, cols)

/-- The tile agrees. -/
def tileAgrees (t : TileSt) (res : Acc) (flip : List Nat) : Bool := tileBad t res flip == ([], [])

/-- The Collator accepts a result: it becomes the accumulator's contents, and the slot is done. -/
def tileAccept (d : Dev) (e : Nat) (t : TileSt) (res : Acc) : Dev :=
  slotDone (stMod d e (fun v => { accPut v (mmaParse t.word).acc res with tile := none })) e

/-- MXE `i` serves a third computation (R421). -/
def mxeServes (d : Dev) (i : Nat) : Bool :=
  (List.range 32).any (fun j => match stGet d (ek 1 j) with
    | some v => v.tile.any (fun t => t.rerun && t.server == some i)
    | none => false)

/-- The engine that makes the third computation (R421): the usable MXE of the die with the next higher number, wrapping; one
that is SUSPECT or already serving is passed over unless no other remains. -/
def otherMxe (o : Otp) (d : Dev) (inst : Nat) : Option Nat :=
  let c := ((List.range 31).map (fun k => (inst + 1 + k) % 32)).filter (fun i => dieOf 1 i == dieOf 1 inst && usable o d 1 i)
  match c.filter (fun i => (unitGet d (ek 1 i)).state == 0 && !mxeServes d i) with
  | i :: _ => some i
  | [] => c.head?

/-- What the Collator is handed of a tile: the free values that an operand written too soon takes (R245), and the result. -/
def tileSeen (d : Dev) (v : Stream) (t : TileSt) (wrong : List (Nat × Nat)) : Dev × Acc :=
  let u := tileAgain d v t
  (if u.after = t.after then d else bump d, tileMix d t u (accWrong t.after wrong))

/-- The rows and columns that disagree: an injected fault (R439) strikes one position, whichever it is, of a tile that agrees. -/
def tileStrikes (d : Dev) (t : TileSt) (bad : List Nat × List Nat) : List Nat × List Nat :=
  let free := (Config.freeCount d.freeIdx).toNat
  if t.injected = true ∧ bad = ([], []) then ([free % max t.m 1], [free / 64 % max t.n 1]) else bad

/-- COLLATOR_TILE_CHECK (R419): the tile counts in the windows of its MXE and of its Collator; it is accepted, or the rerun
and the third computation begin. `wrong` are positions that a fault of the MXE has changed, `flip` checks that a fault of
the Collator turns over. An injected fault disagrees in a row and a column of its own. An engine that serves a third
computation has abandoned its own tile (R421), which is formed and checked when it has served. -/
def collatorTileCheckDev (inst : Nat) (wrong : List (Nat × Nat)) (flip : List Nat) (o : Otp) (d : Dev) : Dev :=
  let e := ek 1 inst
  match stGet d e with
  | none => d
  | some v => match v.tile with
    | none => d
    | some t =>
      if t.rerun || mxeServes d inst then d
      else
        let x := tileSeen d v t wrong
        let d := unitOp (unitOp x.1 e (2 ^ 24) 1) (collKey (dieOf 1 inst)) (2 ^ 24) 1
        let bad := tileStrikes d t (tileBad t x.2 flip)
        if bad = ([], []) then tileAccept d e t x.2
        else
          let other := otherMxe o d inst
          let d := pcAdd (pcAdd (bump d) (kEng e + 6) 1) kDisagree 1
          stMod d e (fun v => { v with tile := some { t with rerun := true, rows := bad.1, cols := bad.2, server := other } })

/-- COLLATOR_TILE_CHECK. -/
def execCollatorTileCheck (inst : Nat) (wrong : List (Nat × Nat)) (flip : List Nat) (s : State) :
    Host.Outcome State Fault Refusal := runDev (collatorTileCheckDev inst wrong flip) s

/-- LB_DETAIL of a Collator record (Table 15-8); the case number stands modulo 4. -/
def tileDetail (t : TileSt) (c : Nat) : Nat :=
  t.rows.headD 0 % 64 + (t.cols.headD 0 % 64) * 2 ^ 8 + (c % 4) * 2 ^ 16

/-- The 256-byte head of a specimen (R431): slot, extents, types, case, disagreeing rows and columns. -/
def specHead (t : TileSt) (c : Nat) : List Byte :=
  padTo 256 (natLe 8 t.word ++ natLe 2 t.m ++ natLe 2 t.n ++ natLe 4 t.k ++ natLe 1 t.after.typ ++ natLe 1 c ++ zeros 6 ++
    natLe 8 (ofBits ((List.range 64).map t.rows.contains)) ++ natLe 8 (ofBits ((List.range 64).map t.cols.contains)))

/-- The record of a case of Table 15-3. -/
def caseLog (d : Dev) (t : TileSt) (c sev kind unit st : Nat) (body : List Byte) : Dev :=
  logRec d 1 sev 9 kind unit st (tileDetail t c) t.injected body

/-- The record of a case whose specimen is captured, or counted as not captured (R431). -/
def captureLog (d : Dev) (t : TileSt) (c kind unit : Nat) (spec : List Byte) : Dev :=
  caseLog (captureSpecimen d spec) t c 1 kind unit stOk (specNote d (captureSpecimen d spec))

/-- The Collator's own known-answer test (R420, R430), which only a module with a valid library runs (R427): `fail` is 0
where every test passes, 1 where one passes at its second run, 2 where one fails. -/
def collKat (o : Otp) (d : Dev) (die fail : Nat) : Dev :=
  let n := katCount d (collKey die)
  if katOk o d then katApply o d (collKey die) ⟨n, if fail = 0 then 0 else 1, 0, (fail == 1).toNat, decide (2 ≤ fail)⟩ else d

/-- The decision of Table 15-3; R2 and R3 are compared bit by bit. -/
def tileCase (other : Bool) (t : TileSt) (r2 r3 : Acc) (flip2 flip3 : List Nat) : Nat :=
  if tileAgrees t r2 flip2 then 1
  else if other = false then 4
  else if tileAgrees t r3 flip3 then 2
  else if r2 = r3 then 3 else 4

/-- What a rerun or third computation of tile `t` gives: the tile formed from operands read again, and its result with the
positions that a fault has changed. -/
def tileRerun (d : Dev) (v : Stream) (t : TileSt) (wrong : List (Nat × Nat)) : TileSt × Acc :=
  let u := tileAgain d v t
  (u, tileMix d t u (accWrong u.after wrong))

/-- TILE_RECOMPUTE_COMPLETE (R420): faults may have changed R2 (`wrong2`), R3 (`wrong3`) or the Collator's checks of them
(`flip2`, `flip3`); `katFail` is what the Collator's own test finds in case 3. An injected fault takes no part in the
windows. -/
def tileRecomputeDev (inst : Nat) (wrong2 wrong3 : List (Nat × Nat)) (flip2 flip3 : List Nat) (katFail : Nat) (o : Otp)
    (d : Dev) : Dev :=
  let e := ek 1 inst
  let die := dieOf 1 inst
  match stGet d e with
  | none => d
  | some v => match v.tile with
    | none => d
    | some t =>
      if !t.rerun then d
      else
        let x2 := tileRerun d v t wrong2
        let x3 := tileRerun d v t wrong3
        let u := x2.1
        let d := if u.after = t.after then d else bump d
        let c := tileCase t.server.isSome u x2.2 x3.2 flip2 flip3
        let spec := specHead t c ++ u.spec
        let ev := fun d u th n => if t.injected then d else unitEvent o d u th n
        if c = 1 then tileAccept (caseLog (ev d e 3 1) t 1 1 1 e stOk []) e t x2.2
        else if c = 2 then tileAccept (captureLog (ev d e 3 2) t 2 1 e spec) e t x3.2
        else if c = 3 then
          let run := katOk o d
          let d := collKat o (ev d (collKey die) 2 1) die katFail
          tileAccept (if run && decide (katFail < 2) then captureLog d t 3 2 die spec else caseLog d t 3 1 2 die stOk []) e t x2.2
        else stFault (caseLog d t 4 3 1 e stMxUnresolved []) e stMxUnresolved

/-- TILE_RECOMPUTE_COMPLETE. -/
def execTileRecomputeComplete (inst : Nat) (wrong2 wrong3 : List (Nat × Nat)) (flip2 flip3 : List Nat) (katFail : Nat)
    (s : State) : Host.Outcome State Fault Refusal := runDev (tileRecomputeDev inst wrong2 wrong3 flip2 flip3 katFail) s

/-! ### M_DRAIN (R238 to R241) -/

/-- The fields of M_DRAIN (Table 8-4). -/
structure Drain where
  out : Nat
  acc : Nat
  mode : Nat
  nm : Nat
  gfmt : Nat
  grad : Bool
  stat : Nat
  fab : Bool
  aux : Nat
  sbase : Nat
  preg : Nat

/-- Parse the slot. -/
def drainParse (w : Nat) : Drain :=
  { out := bits w 52 4, acc := bits w 41 3, mode := bits w 39 2, nm := bits w 31 8, gfmt := bits w 29 2, grad := w.testBit 28,
    stat := bits w 26 2, fab := w.testBit 25, aux := bits w 21 4, sbase := bits w 9 12, preg := bits w 3 6 }

/-- Exponent k of GFMT 2 (Table 8-4): bits [6:0] of the parameter register, signed. -/
def drainK (v : Stream) (q : Drain) : Int := toSigned 7 (param v q.preg % 128)

/-- The output is encoded in a gradient format: a gradient, or a drain to a collective. -/
def drainWire (q : Drain) : Bool := q.grad || q.fab

/-- R239 and R240: accumulator type, mode and output type go together. -/
def drainTypes (q : Drain) (a : Acc) (t : Td) (aux : Option Td) : Bool :=
  let gt := if q.gfmt = 3 then 5 else q.gfmt
  (!q.grad || t.etype == gt) && (q.gfmt != 3 || !q.grad || q.fab || aux.all (fun x => x.etype == 0)) &&
    (if q.mode = 0 then a.typ != 4 && (q.grad || etFloat t.etype)
     else if q.mode = 3 then a.typ == 4 && (q.grad || etFloat t.etype)
     else a.typ == 4 && !drainWire q && [4, 5, 6].contains t.etype && !a.esc)

/-- MD_AP within the limits of Table 8-4, and the origin of R240. -/
def drainShape (q : Drain) (t : Td) (ap : List Byte) (org : Int) : Bool :=
  apFits ap t.ndim && decide (apExt ap 0 ≤ 64 ∧ apExt ap 1 ≤ 64) &&
    (List.range 6).all (fun k => decide (k < 2) || decide (t.ndim ≤ k) || apExt ap k == 1) &&
    (!(q.grad && q.gfmt == 3 && !q.fab) || decide (org % 64 = 0))

/-- The data positions that the drain writes, in tile order: view index, accumulator row and column (R239). -/
def drainItems (ap : List Byte) (lc : List Nat) (t : Td) (a : Acc) : List (List Int × Nat × Nat) :=
  ((apTile ap lc t.ndim).zip (boxAll ((List.range t.ndim).map (apExt ap)))).filterMap (fun x =>
    let n := (x.2.getD 0 0).toNat
    let m := (x.2.getD 1 0).toNat
    if m < a.rows ∧ n < a.cols then some (x.1, m, n) else none)

/-- A floating-point value on its way out: exact, or an overflow of the whole conversion of a sign (R51), with its flags. -/
structure Exits where
  val : FVal
  ovf : Bool
  raw : Option Nat
  fl : Nat

/-- DEQ (R239, R242): a times f to odd, the outlier term added (also where no escape made the plane, which then holds
zeros: DEDUCED, log 140), to odd unless FP32 is the last narrowing. The scale f and the activation scale are operands
that the mode reads (R55). -/
def drainDeq (d : Dev) (v : Stream) (inst : Nat) (q : Drain) (a : Acc) (i : List Int) (k : Nat) (last : Bool) : Exits :=
  let f := readOp fp32 q.nm (scaleGet d inst (q.sbase + (i.getD 0 0).toNat) % 2 ^ 32)
  let act := readOp fp32 q.nm (param v q.preg)
  let x := fvMul (fvInt (toSigned 32 (smGet 0 a.plane k))) f.1
  let fl := f.2 ||| act.2 ||| (if fvIsNaN x && !fvIsNaN f.1 then fNfGen else 0)
  match toOdd fp32 x with
  | none => ⟨x, true, none, fl⟩
  | some t =>
    let o := fl2 mulF (fl0 (smGet 0 a.outl k)) (fl0 (fEnc fp32 act.1))
    let ov := fDecode fp32 o.1
    let y := fvAdd t ov
    let fl := fl ||| o.2 ||| (if fvIsFin ov then 0 else fNfIn) ||| (if fvIsNaN y && !fvIsNaN t && !fvIsNaN ov then fNfGen else 0)
    if last then ⟨y, false, none, fl⟩
    else match toOdd fp32 y with
      | none => ⟨y, true, none, fl⟩
      | some z => ⟨z, false, none, fl⟩

/-- The value that leaves the accumulator (R44, R239). -/
def drainExit (d : Dev) (v : Stream) (inst : Nat) (q : Drain) (a : Acc) (i : List Int) (k : Nat) (last : Bool) : Exits :=
  if q.mode = 3 then drainDeq d v inst q a i k last
  else
    let raw := smGet 0 a.plane k
    let x := fDecode (if a.typ = 3 then fp64 else fp32) raw
    ⟨x, false, if a.typ = 0 then some raw else none, if fvIsFin x then 0 else fNfIn⟩

/-- The last narrowing to a floating-point format; an FP32 value from an FP32 accumulator is copied (R239), and a copy of a
non-finite one sets NF_IN as every other drain of it does (R56; DEDUCED, log 144). -/
def drainNarrow (f : Fmt) (m hash : Nat) (x : Exits) : Flagged :=
  if x.ovf then
    let r := overflowCode f m (fvNeg x.val)
    (r.1, r.2 ||| x.fl)
  else match x.raw, f == fp32 with
    | some r, true => (r, x.fl)
    | _, _ =>
      let r := narrow f m hash x.val
      (r.1, r.2 ||| x.fl)

/-- The value as FP32 for the block format (R71): to odd where it is wider, with whether it overflowed (R51). -/
def drainF32 (x : Exits) : FVal × Bool :=
  if x.ovf then (x.val, true)
  else match toOdd fp32 x.val with
    | some y => (y, false)
    | none => (x.val, true)

/-- Add one element to a statistics accumulator (R72): `under` when it became zero or subnormal in the format written. -/
def gradAdd (g : GradStat) (v : FVal) (under : Bool) : GradStat :=
  let sat := fun n => satAdd 64 n 1
  let g := { g with used := true, nElem := sat g.nElem }
  if !fvIsFin v then { g with nNonfin := sat g.nNonfin }
  else if fvIsZero v then { g with nZero := sat g.nZero, sumsq := fEnc fp32 (fvFma v v (fDecode fp32 g.sumsq)) }
  else
    { g with exps := smMod 0 g.exps ((leadExp v + 2048).toNat) (· + 1),
             sumsq := fEnc fp32 (fvFma v v (fDecode fp32 g.sumsq)), nUnder := if under then sat g.nUnder else g.nUnder }

/-- One element drained: view index, raw value, flags, the value before conversion, and under (R72). -/
structure DrainEl where
  i : List Int
  raw : Nat
  fl : Nat
  val : FVal
  under : Bool

/-- The code is zero or subnormal in its format. -/
def codeUnder (f : Fmt) (c : Nat) : Bool := fIsSub f c || fvIsZero (fDecode f c)

/-- The elements of one row of a block of the INT8B64 format, and its scale (R71). The accumulator's values keep their
subnormals (R44). -/
def drainBlock (m : Nat) (hash : Nat → Nat) (xs : List (List Int × Exits)) : List DrainEl × Nat :=
  let fs := xs.map (fun x => drainF32 x.2)
  let r := blockValues (m ||| 4) hash fs
  let els := (List.range xs.length).map (fun j => match xs[j]? with
    | some x => (⟨x.1, nth r.1 j, x.2.fl ||| r.2.2, x.2.val, nth r.1 j == 0⟩ : DrainEl)
    | none => ⟨[], 0, 0, .nan, false⟩)
  (els, r.2.1)

/-- The format of a gradient format other than INT8B64. -/
def gfmtFmt (g : Nat) : Fmt := if g = 0 then fp32 else if g = 1 then bf16 else fp16

/-- One element in a floating-point output type or gradient format (R51, R70). R239 narrows the value once, so that an FP64
accumulator goes to BF16, FP16 or FP16 with scale in one rounding from FP64 and not through FP32 (DEDUCED, log 145). -/
def drainEl (d : Dev) (v : Stream) (inst : Nat) (q : Drain) (a : Acc) (f : Fmt) (k2 : Int) (hash : Nat) (i : List Int)
    (k : Nat) : DrainEl :=
  let x := drainExit d v inst q a i k (f == fp32)
  let scaled := drainWire q && q.gfmt == 2
  let y := if scaled then { x with val := fvMul x.val (fDecode fp32 (pow2F k2)), raw := none } else x
  let r := drainNarrow f q.nm hash y
  ⟨i, r.1, r.2, x.val, codeUnder f r.1⟩

/-- One element requantised (R58, R59). -/
def drainReq (d : Dev) (inst : Nat) (q : Drain) (a : Acc) (et : Nat) (i : List Int) (k : Nat) : DrainEl :=
  let s := scaleGet d inst (if q.mode = 1 then q.sbase + (i.getD 0 0).toNat else q.sbase)
  let r := requant (toSigned 32 (smGet 0 a.plane k)) s (intLo (etBits et)) (intHi (etBits et))
  ⟨i, ofSigned (etBits et) r.1, r.2, .nan, false⟩

/-- Cut a list where the key changes. -/
def cutRuns (key : DrainEl → Nat) : List DrainEl → List (Nat × List DrainEl)
  | [] => []
  | x :: t => match cutRuns key t with
    | (k, g) :: r => if k = key x then (k, x :: g) :: r else (key x, [x]) :: (k, g) :: r
    | [] => [(key x, [x])]

/-- Every element that the drain hands on, with the scales of its blocks: each the view position of the block and b. -/
def drainAll (d : Dev) (v : Stream) (inst : Nat) (q : Drain) (a : Acc) (t : Td) (items : List (List Int × Nat × Nat)) :
    List DrainEl × List (List Int × Nat) :=
  let step := param64 v 54
  let hash := fun i => if modeStoch q.nm then tdHash d.seed.toNat step t i else 0
  let items := items.filter (fun x => !tdOut t x.1 && !tdPad t x.1)
  if drainWire q && q.gfmt == 3 then
    let rows := (items.map (fun x => x.2.1)).eraseDups
    let r := rows.map (fun m =>
      let xs := items.filter (fun x => x.2.1 == m)
      let b := drainBlock q.nm (fun j => hash ((xs.getD j ([], 0, 0)).1))
        (xs.map (fun x => (x.1, drainExit d v inst q a x.1 (x.2.1 * 64 + x.2.2) false)))
      (b.1, (((xs.head?).map (·.1)).getD [], b.2)))
    (r.flatMap (·.1), r.map (·.2))
  else if q.mode = 1 ∨ q.mode = 2 then (items.map (fun x => drainReq d inst q a t.etype x.1 (x.2.1 * 64 + x.2.2)), [])
  else
    let f := if drainWire q then gfmtFmt q.gfmt else etFmt t.etype
    (items.map (fun x => drainEl d v inst q a f (drainK v q) (hash x.1) x.1 (x.2.1 * 64 + x.2.2)), [])

/-- The FP32 value that a collective decodes from one element (R396). -/
def drainWireVal (q : Drain) (k2 : Int) (scale : Nat) (x : DrainEl) : Nat :=
  if q.gfmt = 0 then x.raw else if q.gfmt = 1 then bf16to32 x.raw else if q.gfmt = 2 then scaledDecode k2 x.raw
  else blockDecode x.raw scale

/-- The chunks that the elements make (R393), each with its decoded values; a position that the drain does not hand over
adds +0.0. -/
def drainChunks (q : Drain) (k2 : Int) (t : Td) (e0 : Nat) (els : List DrainEl) (scales : List (List Int × Nat)) :
    List (Nat × List Nat) :=
  let c := chunkElems q.gfmt
  let at' := fun (x : DrainEl) => let rc := tdRowCol t x.i; rc.1 * e0 + rc.2
  let scaleOf := fun (x : DrainEl) => ((scales.find? (fun s => s.1.drop 1 == x.i.drop 1)).map (·.2)).getD 0
  (cutRuns (fun x => at' x / c) els).map (fun g =>
    (g.1, (List.range c).map (fun j => match g.2.find? (fun x => at' x % c == j) with
      | some x => drainWireVal q k2 (scaleOf x) x
      | none => 0)))

/-- The drain is done: the accumulator is VOID, and its statistics stand. -/
def drainEnd (d : Dev) (e : Nat) (q : Drain) (els : List DrainEl) : Dev :=
  let d := stFlags d e (els.foldl (fun f x => f ||| x.fl) 0)
  stMod d e (fun v =>
    let v := accVoid v q.acc
    if q.grad then
      let g := { smGet gstat0 v.gstats q.stat with used := true }
      { v with gstats := smSet gstat0 v.gstats q.stat (els.foldl (fun g x => gradAdd g x.val x.under) g) }
    else v)

/-- The channel's answer to a drain (R395). -/
def drainChan (d : Dev) (v : Stream) (q : Drain) (t : Td) (ap : List Byte) (items : List (List Int × Nat × Nat)) : Nat :=
  let e0 := (tdLog t [] 0).2
  let es := (items.filter (fun x => !tdOut t x.1 && !tdPad t x.1)).map (fun x =>
    let rc := tdRowCol t x.1
    rc.1 * e0 + rc.2)
  let org := ((apTile ap (loopCtrs v) t.ndim).headD []).getD 0 0
  drainStatus d q.aux q.gfmt (drainK v q) e0 org.natAbs (apExt ap 0) (es.foldl max 0)

/-- M_DRAIN with its checks passed, to memory (R239, R240). -/
def drainMem (d : Dev) (e inst : Nat) (v : Stream) (q : Drain) (t : Td) (items : List (List Int × Nat × Nat)) : Dev :=
  let r := drainAll d v inst q (accGet v q.acc) t items
  let vals := fun i => match r.1.find? (fun x => x.i == i) with
    | some x => x.raw
    | none => 0
  let d := drainEnd d e q r.1
  let x := tdWriteOn d v.rbuf t (items.map (fun y => (y.1, vals y.1))) (.stream e)
  let x := match (if q.grad && q.gfmt == 3 then stTd v q.aux else none) with
    | none => x
    | some ax =>
      let y := tdWrite x.1 ax (r.2.map (fun s => ((s.1.getD 0 0 / 64) :: s.1.drop 1, s.2))) (.stream e)
      (y.1, x.2 ++ y.2)
  slotWrote x e

/-- M_DRAIN with its checks passed, to a collective channel (R241); it stalls while the reduction table is full (R397). -/
def drainFab (d : Dev) (e inst : Nat) (v : Stream) (q : Drain) (t : Td) (items : List (List Int × Nat × Nat)) : Dev :=
  let r := drainAll d v inst q (accGet v q.acc) t items
  let e0 := (tdLog t [] 0).2
  match drainEnter d q.aux (drainChunks q (drainK v q) t e0 r.1 r.2) with
  | none => tableFull d
  | some d => slotDone (drainEnd d e q r.1) e

/-- The store of a drain's block scales waits as that of its values does (R104). -/
def drainAux (d : Dev) (e : Nat) (v : Stream) (ax : Option Td) (items : List (List Int × Nat × Nat)) (k : Dev) : Dev :=
  match ax with
  | none => k
  | some ax => slotStore d e v ax (items.map (fun x => (x.1.getD 0 0 / 64) :: x.1.drop 1)) k

/-- M_DRAIN (R238, R239, R248): a drain of a VOID accumulator does nothing. -/
def mDrainDev (inst : Nat) (o : Otp) (d : Dev) : Dev :=
  let e := ek 1 inst
  onSlot o d e (isCompute 2) (fun d v s =>
    let q := drainParse s.w
    let a := accGet v q.acc
    if !a.valid then slotDone d e
    else
      let auxW := q.grad && q.gfmt == 3 && !q.fab
      let st := if q.fab then (if (stTd v q.out).isNone then stSpUnbound else stOk)
        else writeChecks d v (if auxW then [q.out, q.aux] else [q.out])
      if st ≠ stOk then stFault d e st
      else match stTd v q.out with
        | none => stFault d e stSpUnbound
        | some t =>
          let d := if q.fab then d else markChecked d e q.out
          let d := if auxW then markChecked d e q.aux else d
          withAp d e v (bits s.w 44 8) (fun d ap =>
            let org := ((apTile ap (loopCtrs v) t.ndim).headD []).getD 0 0
            let items := drainItems ap (loopCtrs v) t a
            let st := firstBad [(drainTypes q a t (if auxW then stTd v q.aux else none), stMxType),
              (drainShape q t ap org, stMxShape), (a.typ != 3 || q.acc % 2 == 0, stMxAcc),
              (q.mode != 1 || decide (q.sbase + nth t.ext 0 ≤ 4096), stMxScale),
              (!modeStoch q.nm || q.mode == 1 || q.mode == 2 || tdStochOk t, stTdShape)]
            if st ≠ stOk then stFault d e st
            else if q.fab then
              let cs := drainChan d v q t ap items
              if cs ≠ stOk then stFault d e cs else drainFab d e inst v q t items
            else slotStore d e v t (items.map (·.1)) <| drainAux d e v (if auxW then stTd v q.aux else none) items <|
              drainMem (if q.mode = 3 then bump d else d) e inst v q t items))

/-- M_DRAIN. -/
def execMDrain (inst : Nat) (s : State) : Host.Outcome State Fault Refusal := runDev (mDrainDev inst) s

/-! ### Messages (Table 8-7) -/

/-- DZ_MXE_FREEZE (R237): reaches streams that start later. -/
def hMxeFreeze (ch : Nat) (p : List Byte) (_o : Otp) (d : Dev) : DzRes :=
  dzPf ch d stMxDenied <| dzOk { d with freeze := BitVec.ofNat 256 (fld p 0 32) } []

/-- DZ_MXE_QUERY. -/
def hMxeQuery (_ch : Nat) (p : List Byte) (o : Otp) (d : Dev) : DzRes :=
  let n := fld p 0 1
  let k := kEng (ek 1 n) + 3
  dzNeed d (zeroAt p 1 7) stMbxParam <| dzNeed d (present o 1 n) stEngineAbsent <|
    dzOk d ((List.range 4).flatMap (fun i => pcBytes d (k + i)) ++ natLe 1 (pcOvf d k 4) ++ zeros 7 ++ natLe 32 d.freeze.toNat)

end Sys2Proof.Machine
end

