-- ==== Sys2Proof/Machine/Sextant.lean ====
section
/-!
DEFINITION. Sextant (chapter 18): rail, temperature and cage fixes with their windows (R489 to R494), shutdown (R491),
the control loop (R497 to R500), stress accounting (R510), and the messages of Table 18-9.
-/

namespace Sys2Proof.Machine

/-! ### Tables -/

/-- Current limits in mA (Table 18-1). -/
def railLimit (r : Nat) : Nat :=
  nth [56000, 1000000, 1000000, 260000, 260000, 320000, 320000, 160000, 160000, 60000, 60000, 260000, 30000, 90000,
    120000, 120000, 150000, 150000, 12000, 60000, 70000, 10000, 8000, 90000, 30000, 70000, 3000, 5000] r

/-- Nominal voltages in microvolts of the fixed rails (Table 18-1). -/
def railNominal (r : Nat) : Nat :=
  nth [54000000, 0, 0, 0, 0, 0, 0, 750000, 750000, 0, 0, 0, 750000, 750000, 1050000, 1050000, 400000, 400000, 1800000,
    1050000, 500000, 1800000, 850000, 900000, 1200000, 3300000, 3300000, 1800000] r

/-- The set rails (Table 18-1). -/
def railIsSet (r : Nat) : Bool := decide (1 ≤ r ∧ r ≤ 6) || decide (9 ≤ r ∧ r ≤ 11)

/-- An island group. -/
def groupAt (d : Dev) (g : Nat) : IslandGroup := d.sx.groups.getD g ⟨0, 0, 0, 0, 0⟩

/-- The clock of a die's Collator: two thirds of the die's lowest MXE clock (R497). -/
def collClock (d : Dev) (die : Nat) : Nat := (groupAt d die).clock * 2 / 3

/-- The highest clock among the islands of a set rail (R498). -/
def railClock (d : Dev) (r : Nat) : Nat :=
  if r = 9 then collClock d 0 else if r = 10 then collClock d 1
  else if r = 11 then (groupAt d 6).clock else (groupAt d (r - 1)).clock

/-- The set point of a set rail (R498), or the nominal value of a fixed one. -/
def railPoint (d : Dev) (r : Nat) : Nat :=
  if railIsSet r then Config.railMicroVolts r (railClock d r) else railNominal r

/-- Warn window and fault window of a rail in microvolts (Table 18-2). -/
def railWarn (d : Dev) (r : Nat) : Nat × Nat :=
  if r = 0 then (46000000, 58000000)
  else if railIsSet r then (railPoint d r - 30000, railPoint d r + 30000)
  else (railPoint d r * 97 / 100, railPoint d r * 103 / 100)

/-- The fault window. -/
def railFault (d : Dev) (r : Nat) : Nat × Nat :=
  if r = 0 then (44000000, 60000000)
  else if railIsSet r then (railPoint d r - 50000, railPoint d r + 50000)
  else (railPoint d r * 94 / 100, railPoint d r * 106 / 100)

/-- A reading lies outside a window. -/
def outside (w : Nat × Nat) (v : Nat) : Bool := decide (v < w.1) || decide (w.2 < v)

/-- The rail is measured: rails 19 to 21 are off on the SHL-T4C-0000 (R489). -/
def railOn (o : Otp) (r : Nat) : Bool := decide (r < 28) && !(grade o == 3 && decide (19 ≤ r ∧ r ≤ 21))

/-- The coolant inlet limit L in thousandths of a degree (R545). -/
def inletLimit : Int := 40000

/-- Warn, throttle and trip thresholds of a site (Table 18-5). -/
def siteLimits (s : Nat) : Option Int × Option Int × Option Int :=
  if s < 144 then (some 85000, some 95000, some 110000)
  else if s < 164 then (some 85000, some 90000, some 100000)
  else if s < 188 then (some 105000, some 115000, some 125000)
  else if s < 198 then (some 65000, none, some 75000)
  else if s = 198 then (some inletLimit, some (inletLimit + 5000), some (inletLimit + 15000))
  else (some (inletLimit + 25000), none, none)

/-- The island group of a set rail; a Collator moves with its die's MXE (R497). -/
def railGroup (r : Nat) : Option Nat :=
  if 1 ≤ r ∧ r ≤ 6 then some (r - 1) else if r = 9 then some 0 else if r = 10 then some 1
  else if r = 11 then some 6 else none

/-- The groups that a site's throttle acts on (Table 18-5). -/
def siteActsOn (s g : Nat) : Bool :=
  if s < 64 then g == 0 || g == 2 || g == 4
  else if s < 128 then g == 1 || g == 3 || g == 5
  else if s < 144 then g == 6
  else if 164 ≤ s ∧ s < 188 then railGroup (Config.stageRail (s - 164)) == some g
  else s == 198

/-- Lowest clock, highest clock and step of a group in MHz (Table 18-6). -/
def groupRange (g : Nat) : Nat × Nat × Nat :=
  if g < 4 then (1200, 3600, 150) else if g < 6 then (800, 2400, 100) else (1200, 1800, 75)

/-- One operating point down or up, within the group's range. -/
def pointDown (g c : Nat) : Nat := if (groupRange g).1 + (groupRange g).2.2 ≤ c then c - (groupRange g).2.2 else (groupRange g).1
/-- One point up. -/
def pointUp (g c : Nat) : Nat := min (c + (groupRange g).2.2) (groupRange g).2.1

/-- The module power of the grade in W (Table 0-1). -/
def gradePower (o : Otp) : Nat := if grade o = 2 then 2150 else if grade o = 3 then 1600 else 2400

/-! ### Fixes -/

/-- The 64 bytes of a fix record (Table 18-3). -/
def fixBytes (kind source : Nat) (f : Option FixRec) : List Byte :=
  match f with
  | none => sealRec (natLe 1 kind ++ [4] ++ natLe 2 source ++ zeros 56)
  | some f => sealRec (natLe 1 kind ++ natLe 1 f.flags ++ natLe 2 source ++ natLe 4 f.stamp ++
      natLe 8 f.since.toNat ++ natLe 8 f.fseq.toNat ++ f.body)

/-- A shutdown begins (R491): the cause to the Logbook, the event to the Ledger, which is read first when no firmware has; the
rails go off at SHUTDOWN_RAILS_OFF. -/
def shutdown (o : Otp) (d : Dev) (st : Nat) : Dev :=
  if d.pow.shutdownPending then d
  else
    let d := log6 (if d.lg.loaded then d else lgLoad d) st 7 0
    let d := lgAdd o d 2 1
    let d := lgEvent o d 7 0 st 0
    { d with pow := { d.pow with shutdownPending := true } }

/-- The body of a RAIL fix (Table 18-4). -/
def railBody (d : Dev) (r uV mA : Nat) : List Byte :=
  natLe 4 uV ++ natLe 4 mA ++ natLe 4 (uV * mA / 1000000) ++ natLe 4 (railFault d r).1 ++ natLe 4 (railFault d r).2

/-- Judge one rail fix (R490): an event needs two consecutive fixes outside the window. -/
def judgeRail (o : Otp) (d : Dev) (r uV mA : Nat) : Dev :=
  let s := smGet rail0 d.sx.rails r
  let wV := outside (railWarn d r) uV
  let fV := outside (railFault d r) uV
  let wI := decide (railLimit r < mA)
  let fI := decide (railLimit r * 12 < mA * 10)
  let warn := (wV && s.lastWarnV) || (wI && s.lastWarnI)
  let fault := (fV && s.lastFaultV) || (fI && s.lastFaultI)
  let s' : RailSt := ⟨wV, fV, wI, fI, (s.warned || warn) && (wV || wI), s.curEvent || (wI && s.lastWarnI),
    s.curHigh || decide (railLimit r * 9 ≤ mA * 10)⟩
  let d := { d with sx := { d.sx with rails := smSet rail0 d.sx.rails r s',
                                      vmax := smMod 0 d.sx.vmax r (max uV),
                                      power := if r = 0 then (uV * mA / 1000000 :: d.sx.power).take 16 else d.sx.power } }
  let d := if warn && !s.warned then log6 d stSxRailWarn 7 r else d
  if fault then shutdown o d stSxRailFault else d

/-- RAIL_FIX (R490, R492). -/
def railFixDev (r uV mA : Nat) (o : Otp) (d : Dev) : Dev :=
  if d.pow.phase = .off ∨ ¬railOn o r then d
  else
    let flags := (outside (railWarn d r) uV || decide (railLimit r < mA)).toNat +
      2 * (outside (railFault d r) uV || decide (railLimit r * 12 < mA * 10)).toNat
    judgeRail o (putFix d 1 r flags (railBody d r uV mA)) r uV mA

/-- RAIL_FIX. -/
def execRailFix (r uV mA : Nat) (s : State) : Host.Outcome State Fault Refusal := runDev (railFixDev r uV mA) s

/-- A level of a site (R493): entered after two consecutive fixes above the threshold, left 3 degrees below it. -/
def siteLevel (lim : Option Int) (t : Int) (last cur : Bool) : Bool × Bool :=
  match lim with
  | none => (false, false)
  | some l => (decide (l < t), if cur then decide (l - 3000 < t) else decide (l < t) && last)

/-- Take a cage out of power (R494): its ports become NOPLUG. State 2 tripped, 0 off, 3 open. -/
def cageDown (o : Otp) (d : Dev) (c st : Nat) (hold : Bool) : Dev :=
  let s := smGet cage0 d.sx.cages c
  let d := { d with sx := { d.sx with cages := smSet cage0 d.sx.cages c { s with state := st, heldOff := s.heldOff || hold } } }
  plugLost o (plugLost o d (2 * c)) (2 * c + 1)

/-- A cage is fitted with ports on this grade (R3, R553). -/
def cagePresent (o : Otp) (c : Nat) : Bool := decide (c < 10) && portPresent o (2 * c)

/-- Judge the fix of one site (R493). -/
def judgeSite (o : Otp) (d : Dev) (s : Nat) (t : Int) : Dev :=
  let st := smGet site0 d.sx.sites s
  let w := siteLevel (siteLimits s).1 t st.lastWarn st.warn
  let h := siteLevel (siteLimits s).2.1 t st.lastThrottle st.throttle
  let p := siteLevel (siteLimits s).2.2 t st.lastTrip st.trip
  let st' : SiteSt := ⟨w.1, h.1, p.1, w.2, h.2, p.2, st.throttled || h.2, t⟩
  let lim := fun l : Option Int => natLe 4 (ofSigned 32 (l.getD 0x7FFFFFFF))
  let d := putFix { d with sx := { d.sx with sites := smSet site0 d.sx.sites s st' } } 2 s (w.1.toNat + 2 * p.1.toNat)
    (natLe 4 (ofSigned 32 t) ++ lim (siteLimits s).1 ++ lim (siteLimits s).2.1 ++ lim (siteLimits s).2.2)
  let d := if w.2 && !st.warn then lgAdd o (log6 d stSxThermWarn 7 0) 3 1 else d
  if p.2 && !st.trip then
    if 188 ≤ s ∧ s < 198 then
      if (smGet cage0 d.sx.cages (s - 188)).state = 1 ∨ (smGet cage0 d.sx.cages (s - 188)).state = 3 then
        cageDown o (log6 d stSxCage 7 (s - 188)) (s - 188) 2 true
      else d
    else shutdown o d stSxThermTrip
  else d

/-- The greatest of a list of integers. -/
def listMax (l : List Int) (x : Int) : Int := l.foldl max x

/-- Stress units of one die for one period (R510), in FP64. -/
def stressUnits (t : Int) (v : Nat) : Nat :=
  let x := addD (divD (ofIntD (t - 85000)) (ofIntD 10000)) (divD (ofIntD ((v : Int) - 750000)) (ofIntD 50000))
  let lo := ofIntD (-10)
  let hi := ofIntD 10
  let x := if fvLt (fDecode fp64 x) (fDecode fp64 lo) then lo else if fvLt (fDecode fp64 hi) (fDecode fp64 x) then hi else x
  match fDecode fp64 (mulD (ofIntD 1024) (exp2F64 x)) with
  | .fin n m e => (floorInt n m e).toNat
  | _ => 0

/-- Stress accounting of the period that a temperature fix ends (R510). -/
def accountStress (o : Otp) (d : Dev) (temps : List Int) : Dev :=
  let hot := fun lo n => listMax (((temps.drop lo).take n).drop 1) (((temps.drop lo).take n).headD 0)
  let volt := fun rs : List Nat => rs.foldl (fun m r => max m (smGet 0 d.sx.vmax r)) 0
  let d' := lgAdd o d 13 (stressUnits (hot 0 64) (volt [1, 3, 5, 9]))
  let d' := lgAdd o d' 14 (stressUnits (hot 64 64) (volt [2, 4, 6, 10]))
  let d' := lgAdd o d' 15 (stressUnits (hot 128 16) (volt [11]))
  { d' with sx := { d'.sx with vmax := [] } }

/-- TEMP_FIX (R493, R510): one reading of every site, site 0 first, in thousandths of a degree. -/
def tempFixDev (temps : List Int) (o : Otp) (d : Dev) : Dev :=
  if d.pow.phase = .off ∨ temps.length ≠ 200 then d
  else
    accountStress o ((List.range 200).foldl (fun d s => judgeSite o d s (temps.getD s 0)) d) temps

/-- TEMP_FIX. -/
def execTempFix (temps : List Int) (s : State) : Host.Outcome State Fault Refusal := runDev (tempFixDev temps) s

/-- THERM_N is asserted while a site is at its throttle level (R548). -/
def thermN (d : Dev) : Bool := d.sx.sites.any (fun p => p.2.throttle)

/-- The body of a CAGE fix (Table 18-4). -/
def cageBody (c : CageSt) (mA : Nat) : List Byte :=
  natLe 4 mA ++ natLe 1 c.plug.toNat ++ natLe 1 c.media ++ natLe 1 c.state ++ [0] ++ natLe 4 c.limitMa

/-- CAGE_FIX (R494): off after two consecutive fixes above the limit, or at once above 8 A. -/
def cageFixDev (c mA : Nat) (o : Otp) (d : Dev) : Dev :=
  if d.pow.phase = .off ∨ ¬cagePresent o c then d
  else
    let s := smGet cage0 d.sx.cages c
    let on := s.state == 1 || s.state == 3
    let above := on && decide (s.limitMa < mA)
    let trip := (above && s.lastOver) || (on && decide (8000 < mA))
    let d := { d with sx := { d.sx with cages := smSet cage0 d.sx.cages c { s with lastOver := above } } }
    let d := if trip then cageDown o (log6 d stSxCage 7 c) c 2 true else d
    putFix d 3 c (above.toNat + 2 * trip.toNat) (cageBody (smGet cage0 d.sx.cages c) mA)

/-- CAGE_FIX. -/
def execCageFix (c mA : Nat) (s : State) : Host.Outcome State Fault Refusal := runDev (cageFixDev c mA) s

/-- PLUG_PRESENT_CHANGE (R494): a plug that appears is powered, with the limit of its power class in mW plus 10 % at
3.3 V; one that goes is switched off. -/
def plugPresentDev (c : Nat) (here : Bool) (classMw media : Nat) (o : Otp) (d : Dev) : Dev :=
  if d.pow.phase = .off ∨ ¬cagePresent o c then d
  else
    let s := smGet cage0 d.sx.cages c
    if here then
      let s' : CageSt := { s with plug := true, media := media, limitMa := classMw * 110 / 330,
                                  state := if s.heldOff then s.state else 1, lastOver := false }
      let d := { d with sx := { d.sx with cages := smSet cage0 d.sx.cages c s' } }
      if s.heldOff then d else plugReturn o (plugReturn o d (2 * c)) (2 * c + 1)
    else
      let d := { d with sx := { d.sx with cages := smSet cage0 d.sx.cages c { s with plug := false, media := 255 } } }
      cageDown o d c (if s.heldOff then s.state else 0) false

/-- PLUG_PRESENT_CHANGE. -/
def execPlugPresentChange (c : Nat) (here : Bool) (classMw media : Nat) (s : State) :
    Host.Outcome State Fault Refusal := runDev (plugPresentDev c here classMw media) s

/-- PLUG_READY_CHECK (R494): a powered plug that draws less than 10 mA once ready is open. -/
def plugReadyDev (c mA : Nat) (o : Otp) (d : Dev) : Dev :=
  let s := smGet cage0 d.sx.cages c
  if d.pow.phase = .off ∨ s.state ≠ 1 ∨ 10 ≤ mA then d
  else cageDown o (log6 d stSxCage 7 c) c 3 false

/-- PLUG_READY_CHECK. -/
def execPlugReadyCheck (c mA : Nat) (s : State) : Host.Outcome State Fault Refusal := runDev (plugReadyDev c mA) s

/-! ### The control loop -/

/-- A current event of the present period on a rail of the group, or every fix of its rails below 0.9 of the limit. -/
def groupRails (g : Nat) : List Nat := (List.range 28).filter (fun r => railGroup r == some g)

/-- The next current target (R490). -/
def nextCurrent (d : Dev) (g : Nat) : Nat :=
  let t := (groupAt d g).current
  if (groupRails g).any (fun r => (smGet rail0 d.sx.rails r).curEvent) then pointDown g t
  else if (groupRails g).any (fun r => (smGet rail0 d.sx.rails r).curHigh) then t
  else pointUp g t

/-- The next thermal target (R499). -/
def nextThermal (d : Dev) (g : Nat) : Nat :=
  let t := (groupAt d g).thermal
  if d.sx.sites.any (fun p => (p.2.throttled || p.2.throttle) && siteActsOn p.1 g) then pointDown g t else pointUp g t

/-- The average input power over the last 2^20 Sextant cycles, sixteen fixes of rail 0, in mW (R500). -/
def avgPower (d : Dev) : Nat := if d.sx.power = [] then 0 else d.sx.power.foldl (· + ·) 0 / d.sx.power.length

/-- The groups of each class in the order in which power targets fall (R500). -/
def powerClasses : List (List Nat) := [[0, 1], [2, 3], [4, 5], [6]]

/-- The class whose power target moves this period, if any, and whether it falls (R500). -/
def powerMove (d : Dev) : Option (List Nat × Bool) :=
  if d.sx.capW * 1000 < avgPower d then
    (powerClasses.find? (fun c => c.any (fun g => decide ((groupRange g).1 < (groupAt d g).power)))).map (fun c => (c, true))
  else if avgPower d * 100 < d.sx.capW * 1000 * 95 then
    (powerClasses.reverse.find? (fun c => c.any (fun g => decide ((groupAt d g).power < (groupRange g).2.1)))).map
      (fun c => (c, false))
  else none

/-- The next power target. -/
def nextPower (d : Dev) (g : Nat) : Nat :=
  match powerMove d with
  | some (c, down) =>
    if c.contains g then (if down then pointDown g (groupAt d g).power else pointUp g (groupAt d g).power)
    else (groupAt d g).power
  | none => (groupAt d g).power

/-- One group after a control period (R499): one point at most toward the lowest target. -/
def nextGroup (d : Dev) (g : Nat) : IslandGroup :=
  let s := groupAt d g
  let t := nextThermal d g
  let c := nextCurrent d g
  let p := nextPower d g
  let low := min (min s.hostCap t) (min c p)
  let clock := if g = 6 ∧ ¬d.fab.ready then 1800
    else if low < s.clock then pointDown g s.clock else if s.clock < low then pointUp g s.clock else s.clock
  ⟨clock, s.hostCap, t, c, p⟩

/-- CONTROL_LOOP_PERIOD (R499, R500). -/
def controlLoopDev (_o : Otp) (d : Dev) : Dev :=
  if d.pow.phase ≠ .firmware ∧ d.pow.phase ≠ .hostReady then d
  else
    let gs := (List.range 7).map (nextGroup d)
    let d := { d with sx := { d.sx with
      groups := gs,
      rails := d.sx.rails.filterMap (fun p => let v := { p.2 with curEvent := false, curHigh := false }
                                             if v = rail0 then none else some (p.1, v)),
      sites := d.sx.sites.filterMap (fun p => let v := { p.2 with throttled := false }
                                             if v = site0 then none else some (p.1, v)) } }
    if (List.range 7).any (fun g => decide ((groupAt d g).clock < (groupRange g).2.1)) then pcAdd d kSxLimited 1 else d

/-- CONTROL_LOOP_PERIOD. -/
def execControlLoopPeriod (s : State) : Host.Outcome State Fault Refusal := runDev controlLoopDev s

/-! ### Messages (Table 18-9) -/

/-- Sources of a fix kind (Table 18-4). -/
def fixSources (kind : Nat) : Nat :=
  if kind = 1 then 28 else if kind = 2 then 200 else if kind = 3 then 10 else if kind = 4 then 1
  else if kind = 5 then 8 else if kind = 6 then 20 else if kind = 7 then 1 else if kind = 8 then 20 else 0

/-- DZ_SX_FIX. -/
def hSxFix (ch : Nat) (p : List Byte) (_o : Otp) (d : Dev) : DzRes :=
  dzPf ch d stSxDenied <|
  dzNeed d (zeroAt p 1 1) stSxParam <|
  dzNeed d (decide (fld p 2 2 < fixSources (fld p 0 1))) stSxSource <|
  dzOk d (fixBytes (fld p 0 1) (fld p 2 2) (smGet none d.sx.fixes (fld p 0 1 * 256 + fld p 2 2)))

/-- The sites that have given a fix, with their temperatures. -/
def fixedSites (d : Dev) : List (Nat × Int) :=
  ((List.range 200).filter (fun s => (smGet none d.sx.fixes (2 * 256 + s)).isSome)).map
    (fun s => (s, (smGet site0 d.sx.sites s).milliC))

/-- The hottest site that has given a fix. -/
def hottest (d : Dev) : Nat × Int :=
  (fixedSites d).foldl (fun b p => if b.2 < p.2 then p else b) ((fixedSites d).headD (0, 0))

/-- DZ_SX_SUMMARY. -/
def hSxSummary (ch : Nat) (_p : List Byte) (_o : Otp) (d : Dev) : DzRes :=
  dzPf ch d stSxDenied <|
  let held := fun f : IslandGroup → Nat => (List.range 7).any (fun g => decide (f (groupAt d g) < (groupRange g).2.1))
  dzOk d (natLe 4 (avgPower d) ++ natLe 4 (d.sx.capW * 1000) ++ natLe 2 (hottest d).1 ++ [0, 0] ++
    natLe 4 (ofSigned 32 (hottest d).2) ++ ((List.range 6).flatMap (fun g => natLe 2 (groupAt d g).clock)) ++
    natLe 2 (collClock d 0) ++ natLe 2 (collClock d 1) ++ natLe 2 (groupAt d 6).clock ++
    natLe 1 (ofBits [held (·.power), held (·.thermal), held (·.hostCap), d.sx.popFault]) ++ [0] ++
    pcBytes d kSxFixes ++ pcBytes d kSxLimited ++ natLe 1 (pcOvf d kSxFixes 2) ++ zeros 7)

/-- DZ_SX_POWER_CAP (R500). -/
def hSxPowerCap (ch : Nat) (p : List Byte) (o : Otp) (d : Dev) : DzRes :=
  dzPf ch d stSxDenied <|
  let w := fld p 0 4
  dzNeed d (zeroAt p 4 4 && (w == 0 || (decide (800 ≤ w) && decide (w ≤ gradePower o)))) stSxParam <|
  let c := if w = 0 then gradePower o else w
  dzOk { d with sx := { d.sx with capW := c } } (natLe 4 c)

/-- A clock is an operating point of the group (Table 18-6). -/
def isPoint (g c : Nat) : Bool :=
  decide ((groupRange g).1 ≤ c) && decide (c ≤ (groupRange g).2.1) && isMul (c - (groupRange g).1) (groupRange g).2.2

/-- DZ_SX_CLOCK_CAP (R499). -/
def hSxClockCap (ch : Nat) (p : List Byte) (_o : Otp) (d : Dev) : DzRes :=
  dzPf ch d stSxDenied <|
  let cls := fld p 0 1
  let mask := fld p 1 1
  let mhz := fld p 2 2
  let g0 := if cls = 4 then 6 else 2 * (cls - 1)
  dzNeed d (zeroAt p 4 4 && decide (1 ≤ cls ∧ cls ≤ 4) && (cls == 4 || decide (mask < 4)) &&
    (mhz == 0 || isPoint g0 mhz)) stSxParam <|
  let hit := fun g => if cls = 4 then g == 6 else g / 2 == cls - 1 && g != 6 && mask.testBit (g % 2)
  dzOk { d with sx := { d.sx with groups := (List.range 7).map (fun g =>
    if hit g then { groupAt d g with hostCap := if mhz = 0 then (groupRange g).2.1 else mhz } else groupAt d g) } } []

/-- DZ_SX_CAGE (R494). -/
def hSxCage (ch : Nat) (p : List Byte) (o : Otp) (d : Dev) : DzRes :=
  dzPf ch d stSxDenied <|
  let c := fld p 0 1
  let a := fld p 1 1
  dzNeed d (zeroAt p 2 6 && cagePresent o c && decide (a = 1 ∨ a = 2)) stSxParam <|
  let s := smGet cage0 d.sx.cages c
  if a = 1 then dzOk (cageDown o d c 0 true) []
  else
    let s' : CageSt := { s with heldOff := false, lastOver := false, state := if s.plug then 1 else 0 }
    let d := { d with sx := { d.sx with cages := smSet cage0 d.sx.cages c s' } }
    dzOk (if s.plug ∧ s.state ≠ 1 then plugReturn o (plugReturn o d (2 * c)) (2 * c + 1) else d) []

end Sys2Proof.Machine
end

