-- ==== Sys2Proof/Machine/Startup.lean ====
section
/-!
DEFINITION. Power, resets and start-up (chapter 21): power-on and its loss (R488, R554), shutdown (R491), module resets from the
pin, the host link and the firmware (R555, R458, R482), the start of the firmware, host-ready (R556) and Sighting (R557, R552).
-/

namespace Sys2Proof.Machine

/-! ### What a reset leaves -/

/-- The module after loss of its rails: the flash and the pins, and the model's own record of what has left the module. -/
def powerGone (d : Dev) (vin latched : Bool) : Dev :=
  { Dev.reset with
    flash := d.flash, out := d.out, freeIdx := d.freeIdx,
    pow := { Power.reset with vin := vin, latched := latched, pwrGood := false, perst := d.pow.perst, phase := .off } }

/-- An apply that a module reset cuts off (R219, R287): a lost journal for each pair and each parameter that it had begun. -/
def applyCut (d : Dev) : Dev :=
  match d.act with
  | none => d
  | some a =>
    let d := d.pairs.foldl (fun d p => if p.2.applying then pairLost d p.1 a.step a.clip else d) d
    d.params.foldl (fun d p => match p.2 with
      | some x => if x.target.isSome && decide (0 < x.tiles ∧ x.tiles < peTiles x) then peLost d p.1 x a else d
      | none => d) d

/-- The cages after a module reset: a plugged cage is powered again, one held off included (R494). -/
def cagesReset (m : SMap CageSt) : SMap CageSt :=
  m.filterMap (fun p =>
    let c : CageSt := { p.2 with state := if p.2.plug then 1 else 0, heldOff := false, lastOver := false }
    if c = cage0 then none else some (p.1, c))

/-- Sextant after a module reset: it goes on with its fixes; every clock, limit and cap is as at a start (R498 to R500, R555). -/
def sextantReset (o : Otp) (x : Sextant) : Sextant :=
  { x with cages := cagesReset x.cages, groups := Sextant.reset.groups, capW := gradePower o, popFault := false }

/-- A module reset (R555, R458, R486): everything returns to its reset value but the flash, Sextant's readings, the Logbook
with its destination, and the contents of memory. -/
def moduleReset (o : Otp) (d : Dev) : Dev :=
  let d := applyCut d
  { Dev.reset with
    mem := d.mem, side := d.side, flash := d.flash, log := d.log, sx := sextantReset o d.sx, out := d.out, freeIdx := d.freeIdx,
    sec := { Security.reset with arbFull := d.sec.arbFull },
    pow := { Power.reset with
      perst := d.pow.perst, shutdownPending := d.pow.shutdownPending, pwrGood := d.pow.pwrGood, fromPower := false,
      lastChans := if d.pow.phase = .hostReady then [hbmChannels d 0, hbmChannels d 1, d.pow.shelfPkgs] else d.pow.lastChans } }

/-! ### Power -/

/-- INPUT_POWER_LOSS (R488): the latch of a shutdown is cleared with the input below 40 V (R491). -/
def powerLossDev (_o : Otp) (d : Dev) : Dev := powerGone d false false

/-- INPUT_POWER_LOSS. -/
def execInputPowerLoss (s : State) : Host.Outcome State Fault Refusal := runDev powerLossDev s

/-- POWER_ON (R554): the regulators start and sequence the rails; `failRail` names a rail that fails its step, which shuts the
module down before PWR_GOOD. -/
def powerOnDev (failRail : Option Nat) (o : Otp) (d : Dev) : Dev :=
  if d.pow.vin ∨ d.pow.phase ≠ .off then d
  else
    let d := powerGone d true false
    let d := { d with pow := { d.pow with phase := .inReset, modRst := true }, sx := { d.sx with capW := gradePower o } }
    match failRail with
    | some r => if railOn o r then shutdown o d stSxRailFault else { d with pow := { d.pow with pwrGood := true } }
    | none => { d with pow := { d.pow with pwrGood := true } }

/-- POWER_ON. -/
def execPowerOn (failRail : Option Nat) (s : State) : Host.Outcome State Fault Refusal := runDev (powerOnDev failRail) s

/-- SHUTDOWN_RAILS_OFF (R491): every rail off, and the regulators latched. -/
def railsOffDev (_o : Otp) (d : Dev) : Dev := if d.pow.shutdownPending then powerGone d true true else d

/-- SHUTDOWN_RAILS_OFF. -/
def execShutdownRailsOff (s : State) : Host.Outcome State Fault Refusal := runDev railsOffDev s

/-! ### Module resets -/

/-- MODULE_RESET (R555, R559): MOD_RST_N has been low long enough. -/
def moduleResetDev (o : Otp) (d : Dev) : Dev :=
  if d.pow.phase = .off then d
  else
    let d := moduleReset o d
    { d with pow := { d.pow with modRst := true } }

/-- MODULE_RESET. -/
def execModuleReset (s : State) : Host.Outcome State Fault Refusal := runDev moduleResetDev s

/-- DL_DOWN_SELF_RESET (R458): after a link that was up has stayed down, the loss is logged and counted, the Ledger committed,
and the module resets itself; its release is MODULE_RESET_RELEASE. -/
def selfResetDev (o : Otp) (d : Dev) : Dev :=
  if d.host.counting ∧ !d.host.dlUp ∧ pcieRuns d then moduleReset o (lgCommit o (lgAdd o (log6 d stHostLost 7 0) 8 1)) else d

/-- DL_DOWN_SELF_RESET. -/
def execDlDownSelfReset (s : State) : Host.Outcome State Fault Refusal := runDev selfResetDev s

/-- FW_ACTIVATE_RESET (R482, R486): the reset that a mode-1 activation asked for, behind a commit of the Ledger (R516). -/
def fwActivateResetDev (o : Otp) (d : Dev) : Dev := if d.pow.fwResetPending then moduleReset o (lgCommit o d) else d

/-- FW_ACTIVATE_RESET. -/
def execFwActivateReset (s : State) : Host.Outcome State Fault Refusal := runDev fwActivateResetDev s

/-! ### The start of the firmware -/

/-- A trial that ended in REJECTED is reported by the confirmed firmware (R483). -/
def reportRejected (o : Otp) (d : Dev) : Dev :=
  if d.fw.rejected then
    match [0, 1].find? (fun i => (slotGet d i).state == 5) with
    | some i => fwEvent o (log6 { d with fw := { d.fw with rejected := false } } stFwRejected 7 0) 4 i
    | none => d
  else d

/-- An event area that is wholly full is logged once at every start (R519). -/
def repeatFull (d : Dev) : Dev :=
  if 49152 ≤ (lgEvents d).length then log6 { d with lg := { d.lg with fullLogged := 2 } } stLgFull 7 0 else d

/-- The firmware starts (Table 21-8, step 2): it reads the Ledger, counts the start, loads the retirement registers, and takes
the Logbook destination and the known-answer library from the flash. -/
def firmwareStart (o : Otp) (d : Dev) : Dev :=
  let d := loadRetired (lgAdd o (repeatFull (lgLoad d)) (if d.pow.fromPower then 0 else 1) 1)
  let d := { d with pairUnits := rankPairs o d, log := { d.log with dest := d.flash.logDest },
                    int := { d.int with libVersion := katVersion o d } }
  reportRejected o d

/-- MODULE_RESET_RELEASE (R555, R527, R538, R552): the straps are sampled, the boot ROM runs its tests (`romOk`) and its course,
and the firmware starts when a slot boots. -/
def resetReleaseDev (straps : BitVec 41) (romOk : Bool) (o : Otp) (d : Dev) : Dev :=
  if !d.pow.pwrGood ∨ d.pow.phase ≠ .inReset ∨ d.pow.shutdownPending then d
  else
    let d := { d with pow := { d.pow with modRst := false, strap1 := straps, siteCode := straps.truncate 40 },
                      host := { d.host with training := !d.pow.perst } }
    if !romOk then { d with pow := { d.pow with phase := .bootFailed } }
    else
      let d := bootRom o d
      if d.pow.phase = .firmware then firmwareStart o d else d

/-- MODULE_RESET_RELEASE. -/
def execModuleResetRelease (straps : BitVec 41) (romOk : Bool) (s : State) : Host.Outcome State Fault Refusal :=
  runDev (resetReleaseDev straps romOk) s

/-! ### Host-ready (R556) -/

/-- The population of the Shelf (R495, Table 18-4): the SHELF fix and the population fault. -/
def shelfStart (o : Otp) (d : Dev) (pkgs : List Nat) : Dev :=
  let pkgs := if grade o = 3 then [] else pkgs.take 12
  let d := { d with pow := { d.pow with shelfPkgs := pkgs } }
  let sold := bits o.capUnits.toNat 56 8
  let differs := grade o != 3 && populated d 4 != sold * 2 ^ 36
  let uneven := grade o != 3 && (shelfSizes d).any (fun s => s != listMin (shelfSizes d))
  let d := putFix d 4 0 0 (natLe 2 (ofBits (pkgs.map (· != 0))) ++ padTo 12 (pkgs.map (BitVec.ofNat 8)) ++ zeros 2 ++
    natLe 1 sold ++ natLe 1 (ofBits [differs, uneven]))
  if differs || uneven then log6 { d with sx := { d.sx with popFault := true } } stSxPop 7 0 else d

/-- The HBM stacks (R496, Table 18-4): whether each trained, with the 8 bytes that it tells of itself. -/
def stacksStart (d : Dev) (hbmStacks : List (Bool × List Byte)) : Dev :=
  let d := { d with pow := { d.pow with hbmStacks := (List.range 8).map (fun i => (hbmStacks.getD i (false, [])).1) } }
  (List.range 8).foldl (fun d i =>
    let s := hbmStacks.getD i (false, [])
    let d := putFix d 5 i 0 (padTo 8 s.2 ++ natLe 1 s.1.toNat)
    if s.1 then d else log6 d stSxStack 3 (2 + i / 4)) d

/-- The contents of a memory are lost (R329): its bytes are free values, and its side-bands those of lines never written. -/
def memLost (d : Dev) (m : Nat) : Dev :=
  let lo := memBase m
  let hi := memBase (m + 1)
  let hi := if m = 4 then 0x30000000000 else hi
  let keep := d.mem.filter (fun c => decide (c.1 < lo) || decide (hi ≤ c.1))
  let cells := (Config.freeCells d.freeIdx).filter (fun c => decide (lo ≤ c.1) && decide (c.1 < hi))
  bump { d with mem := cells.foldl (fun x c => smSet 0 x c.1 c.2) keep,
                side := d.side.filter (fun c => decide (c.1 * 64 < lo) || decide (hi ≤ c.1 * 64)) }

/-- Contents survive a module reset only where the placement is the same (R329). -/
def placementKeeps (d : Dev) : Dev :=
  match d.pow.lastChans with
  | [c0, c1, sh] =>
    let d := if hbmChannels d 0 = c0 then d else memLost d 2
    let d := if hbmChannels d 1 = c1 then d else memLost d 3
    if d.pow.shelfPkgs = sh then d else memLost d 4
  | _ => d

/-- The mailboxes leave OFFLINE (R464). -/
def mailboxesOpen (d : Dev) : Dev :=
  let open' : Mailbox → Mailbox := fun m => { m with phase := 0, seqFree := true }
  (List.range 16).foldl (fun d ch => mbxMod d ch open') d

/-- HOST_READY (R556, R464): the memories have trained or been given up, placement is rebuilt, the mailboxes leave OFFLINE. A
module whose flash lacks something that R514 asks for never gets here. -/
def hostReadyDev (hbmStacks : List (Bool × List Byte)) (pkgs : List Nat) (o : Otp) (d : Dev) : Dev :=
  if d.pow.phase ≠ .firmware ∨ d.pow.shutdownPending ∨ !d.flash.fits then d
  else
    let d := stacksStart (shelfStart o d pkgs) hbmStacks
    let d := mailboxesOpen (placementKeeps (rebuildPool (rebuildPool (rebuildPool d 2) 3) 4))
    { d with pow := { d.pow with phase := .hostReady } }

/-- HOST_READY. -/
def execHostReady (hbmStacks : List (Bool × List Byte)) (pkgs : List Nat) (s : State) : Host.Outcome State Fault Refusal :=
  runDev (hostReadyDev hbmStacks pkgs) s

/-! ### Sighting (R557, R552, R373) -/

/-- The site code is invalid: odd parity, samples that differ, or a coordinate not below its extent. -/
def siteBad (d : Dev) (straps : BitVec 41) : Bool :=
  popcount 41 straps.toNat % 2 == 1 || straps != d.pow.strap1 ||
    !namesModule d (ownCoord d)

/-- SIGHTING_START (R374, R376, R381): the cages are fixed, with currents `mAs` in mA, and Sighting starts on every present port;
the leg of an absent one is down. -/
def sightingStartDev (straps : BitVec 41) (mAs : List Nat) (o : Otp) (d : Dev) : Dev :=
  if !fwRuns d ∨ d.pow.sighted then d
  else
    let d := { d with pow := { d.pow with sighted := true, siteInvalid := siteBad d straps } }
    if d.pow.siteInvalid then log6 d stRhSite 7 0
    else
      let d := (List.range 10).foldl (fun d c => cageFixDev c (nth mAs c) o d) d
      let d := (List.range 20).foldl (fun d p =>
        if !portPresent o p then legReport d p false
        else if (smGet cage0 d.sx.cages (p / 2)).state = 1 then startSighting o d p else plugLost o d p) d
      settleReady o d

/-- SIGHTING_START. -/
def execSightingStart (x : SightingSample) (s : State) : Host.Outcome State Fault Refusal :=
  runDev (sightingStartDev x.straps x.mAs) s

end Sys2Proof.Machine
end

