-- ==== Sys2Proof/Machine/Vxe.lean ====
section
/-!
DEFINITION. The vector engine (chapter 9): tile and table loads, stores, the operations of Table 9-3, and the messages of
Table 9-8.
-/

namespace Sys2Proof.Machine

/-! ### Registers (R251) -/

/-- Tile register `t`. -/
def tregGet (v : Stream) (t : Nat) : TileReg := smGet treg0 v.tregs t
/-- Replace it. -/
def tregSet (v : Stream) (t : Nat) (r : TileReg) : Stream := { v with tregs := smSet treg0 v.tregs t r }
/-- Element (r, c). -/
def tregEl (t : TileReg) (r c : Nat) : Nat := smGet 0 t.el (r * 64 + c)

/-- A tile register after a write of the shape `nr` by `nc`: elements outside the shape stand as they were. -/
def tregMake (old : TileReg) (typ nr nc : Nat) (f : Nat → Nat → Nat) : TileReg :=
  { full := true, typ := typ, nr := nr, nc := nc,
    el := (List.range 4096).filterMap (fun k =>
      let x := if k / 64 < nr ∧ k % 64 < nc then f (k / 64) (k % 64) else smGet 0 old.el k
      if x = 0 then none else some (k, x)) }

/-- An operation in collated mode is computed twice, in uncollated mode once (R266, R267). VXE_PC_MISMATCH counts. -/
def vxLane (o : Otp) (d : Dev) (e : Nat) (v : Stream) (mm : Nat) (k : Dev → Dev) : Dev :=
  if v.uncollated then k d else laneRun o d e (some (kEng e + 5)) mm k

/-- VXE_PC_ELEM and VXE_PC_ISSUE (R270). -/
def vxCount (d : Dev) (e els cycles : Nat) : Dev := pcAdd (pcAdd d (kEng e + 3) els) (kEng e + 4) cycles

/-! ### Loads (R252, R254) -/

/-- The type of a register that takes elements of a type: FP32 or INT32. -/
def vxRegType (t : Nat) : Nat := if etFloat t then 0 else 4

/-- An element widened exactly (R252); the escape codes of a tensor with TD_ESC = 1, for which no load has a side list, are
the ordinary values −128 and −8 (DESIGN CHOICE, log 143). -/
def vxWiden (t raw : Nat) : Nat := if etFloat t then widen32 t raw else ofSigned 32 (toSigned (etBits t) raw)

/-- A load or store slot of kinds `ks` with LS_BUF in a range. -/
def isBuf (ks : List Nat) (lo hi : Nat) (s : Slot) : Bool :=
  ks.contains s.kind && decide (lo ≤ bits s.w 8 8 ∧ bits s.w 8 8 ≤ hi)

/-- The cycles of a transfer of `n` bytes (Table 9-5): 256 bytes a cycle. -/
def vxXfer (n : Nat) : Nat := ceilDiv n 256

/-- VXE_TILE_LOAD (R252): `mm` times the two widenings differ. -/
def vxeTileLoadDev (inst mm : Nat) (o : Otp) (d : Dev) : Dev :=
  let e := ek 2 inst
  onSlot o d e (isBuf [1, 2] 0x00 0x1F) (fun d v s =>
    match stTd v (bits s.w 24 4) with
    | none => stFault d e stSpUnbound
    | some t => withAp d e v (bits s.w 16 8) (fun d ap =>
      let n := t.ndim
      let st := firstBad [(t.etype != 3 && t.etype != 7, stVxType),
        (apFits ap n && decide (2 ≤ n) && decide (apExt ap 0 ≤ 64 ∧ apExt ap 1 ≤ 64) &&
          (List.range 6).all (fun k => decide (k < 2) || decide (n ≤ k) || apExt ap k == 1), stVxShape)]
      if st ≠ stOk then stFault d e st
      else
        let is := apTile ap (loopCtrs v) n
        slotNeed d e v (tdRanges t is) <|
          vxLane o d e v mm (fun d =>
            let raw := is.map (fun i => vxWiden t.etype (tdRead d v.rbuf t i))
            let nc := apExt ap 0
            let reg := tregMake (tregGet v (bits s.w 8 5)) (vxRegType t.etype) (apExt ap 1) nc (fun r c => nth raw (r * nc + c))
            slotDone (vxCount (stMod d e (fun v => tregSet v (bits s.w 8 5) reg)) e 0
              (vxXfer (is.length * etBits t.etype / 8))) e)))

/-- VXE_TILE_LOAD. -/
def execVxeTileLoad (inst mm : Nat) (s : State) : Host.Outcome State Fault Refusal := runDev (vxeTileLoadDev inst mm) s

/-- VXE_FTAB_LOAD (R254). -/
def vxeFtabLoadDev (inst : Nat) (o : Otp) (d : Dev) : Dev :=
  let e := ek 2 inst
  onSlot o d e (isBuf [1, 2] 0x40 0x47) (fun d v s =>
    match stTd v (bits s.w 24 4) with
    | none => stFault d e stSpUnbound
    | some t => withAp d e v (bits s.w 16 8) (fun d ap =>
      let is := apTile ap (loopCtrs v) t.ndim
      let st := firstBad [(t.etype == 4 && apFits ap t.ndim && is.length == 2064, stVxShape)]
      if st ≠ stOk then stFault d e st
      else slotNeed d e v (tdRanges t is) <|
        let words := is.map (tdRead d v.rbuf t)
        slotDone (vxCount (stMod d e (fun v => { v with ftabs := smSet [] v.ftabs (bits s.w 8 3) words })) e 0 (vxXfer 8256)) e))

/-- VXE_FTAB_LOAD. -/
def execVxeFtabLoad (inst : Nat) (s : State) : Host.Outcome State Fault Refusal := runDev (vxeFtabLoadDev inst) s

/-! ### Stores (R253) -/

/-- A register of one type stores to an element type. -/
def vxStores (typ et : Nat) : Bool :=
  if typ = 0 then decide (et ≤ 2) else decide (et = 4 ∨ et = 5 ∨ et = 6)

/-- One element as it is stored: narrowed under the store mode, or saturated; an FP32 register goes to FP32 unchanged and
raises no flag (R253; DEDUCED, log 144). -/
def vxStoreEl (et m hash raw : Nat) : Flagged :=
  if et = 0 ∨ et = 4 then (raw, 0)
  else if etFloat et then
    let x := readOp fp32 m raw
    let r := narrow (etFmt et) m hash x.1
    (r.1, r.2 ||| x.2)
  else
    let r := satInt (intLo (etBits et)) (intHi (etBits et)) (toSigned 32 raw)
    (ofSigned (etBits et) r.1, r.2)

/-- The tile positions of a store with the elements they take; positions beyond the register's shape are out of view. -/
def vxStoreItems (ap : List Byte) (lc : List Nat) (n : Nat) (t : TileReg) : List (List Int × Nat) :=
  let js := boxAll ((List.range n).map (apExt ap))
  ((apTile ap lc n).zip js).filterMap (fun x =>
    let c := (x.2.getD 0 0).toNat
    let r := (x.2.getD 1 0).toNat
    if r < t.nr ∧ c < t.nc ∧ (x.2.drop 2).all (· == 0) then some (x.1, tregEl t r c) else none)

/-- VXE_TILE_STORE (R253): `mm` times the two narrowings differ. -/
def vxeTileStoreDev (inst mm : Nat) (o : Otp) (d : Dev) : Dev :=
  let e := ek 2 inst
  onSlot o d e (isBuf [5] 0x00 0x1F) (fun d v s =>
    let b := bits s.w 24 4
    let reg := tregGet v (bits s.w 8 5)
    let st := writeCheck d v b
    if st ≠ stOk then stFault d e st
    else match stTd v b with
      | none => stFault d e stSpUnbound
      | some t => withAp (markChecked d e b) e v (bits s.w 16 8) (fun d ap =>
        let m := param v 53
        let narrows := reg.typ == 0 && (t.etype == 1 || t.etype == 2)
        let st := firstBad [(!reg.full || (vxStores reg.typ t.etype && (!narrows || modeOk m)), stVxType),
          (apFits ap t.ndim, stVxShape), (reg.full, stVxReg), (!narrows || !modeStoch m || tdStochOk t, stTdShape)]
        if st ≠ stOk then stFault d e st
        else slotStore d e v t ((vxStoreItems ap (loopCtrs v) t.ndim reg).map (·.1)) <| vxLane o d e v mm (fun d =>
          let items := (vxStoreItems ap (loopCtrs v) t.ndim reg).map (fun x =>
            (x.1, vxStoreEl t.etype m (if narrows ∧ modeStoch m then tdHash d.seed.toNat (param64 v 54) t x.1 else 0) x.2))
          let d := stFlags d e (itemFlags t items)
          let d := vxCount d e 0 (vxXfer (items.length * etBits t.etype / 8))
          slotWrote (tdWriteOn d v.rbuf t (items.map (fun x => (x.1, x.2.1))) (.stream e)) e)))

/-- VXE_TILE_STORE. -/
def execVxeTileStore (inst mm : Nat) (s : State) : Host.Outcome State Fault Refusal := runDev (vxeTileStoreDev inst mm) s

/-! ### Elements (R257, R258) -/

/-- The result of an FP32 operation on operands as read: one rounding under the mode, and the flags of R56. -/
def vxRes (m : Nat) (ops : List (FVal × Nat)) (r : FVal) : Flagged :=
  let n := narrow fp32 m 0 r
  let fl := ops.foldl (fun a x => a ||| x.2) 0
  let gen := if fvIsNaN r then !ops.any (fun x => fvIsNaN x.1) else !fvIsFin r && ops.all (fun x => fvIsFin x.1)
  (n.1, n.2 ||| fl ||| (if gen then fNfGen else 0))

/-- The larger of two values under R258. -/
def fvMax (x y : FVal) : FVal :=
  if fvIsNaN x || fvIsNaN y then .nan
  else if fvLt x y then y else if fvLt y x then x else if fvNeg x then y else x

/-- The smaller of two values under R258. -/
def fvMin (x y : FVal) : FVal :=
  if fvIsNaN x || fvIsNaN y then .nan
  else if fvLt x y then x else if fvLt y x then y else if fvNeg x then x else y

/-- One FP32 operand as a mode reads it. -/
def vxOp (m x : Nat) : FVal × Nat := readOp fp32 m x

/-- An FP32 operation of one operand. -/
def vxF1 (m : Nat) (g : FVal → FVal) (a : Nat) : Flagged := vxRes m [vxOp m a] (g (vxOp m a).1)

/-- An FP32 operation of two operands. -/
def vxF2 (m : Nat) (g : FVal → FVal → FVal) (a b : Nat) : Flagged :=
  vxRes m [vxOp m a, vxOp m b] (g (vxOp m a).1 (vxOp m b).1)

/-- An INT32 result, saturated (R45, R258). -/
def vxI (x : Int) : Flagged :=
  let r := satInt (intLo 32) (intHi 32) x
  (ofSigned 32 r.1, r.2)

/-- An operation on FP32 or INT32 operands. -/
def vx2 (typ m : Nat) (g : FVal → FVal → FVal) (h : Int → Int → Int) (a b : Nat) : Flagged :=
  if typ = 0 then vxF2 m g a b else vxI (h (toSigned 32 a) (toSigned 32 b))

/-- An element is set (R257). -/
def vxSet (typ raw : Nat) : Bool := if typ = 4 then raw != 0 else raw % 2 ^ 31 != 0

/-- V_CMP's condition on two values that compare as `lt`, `eq`, `gt`, or as none of the three. -/
def cmpCond (sub : Nat) (lt eq gt : Bool) : Bool :=
  if sub = 0 then eq else if sub = 1 then !eq else if sub = 2 then lt else if sub = 3 then lt || eq
  else if sub = 4 then gt else gt || eq

/-- V_CMP of one element. -/
def vxCmp (typ m sub a b : Nat) : Flagged :=
  if typ = 0 then
    let x := vxOp m a
    let y := vxOp m b
    ((cmpCond sub (fvLt x.1 y.1) (fvEq x.1 y.1) (fvLt y.1 x.1)).toNat, x.2 ||| y.2)
  else
    let x := toSigned 32 a
    let y := toSigned 32 b
    ((cmpCond sub (decide (x < y)) (decide (x = y)) (decide (y < x))).toNat, 0)

/-- V_CVT of one element. -/
def vxCvt (sub m a : Nat) : Flagged :=
  if sub = 0 then
    let x := vxOp m a
    let r := toInt m 0 (intLo 32) (intHi 32) x.1
    (ofSigned 32 r.1, r.2 ||| x.2)
  else narrow fp32 m 0 (fvInt (toSigned 32 a))

/-! ### Function tables (R260, R261) -/

/-- u, with the flags of its two steps. -/
def ftU (t : List Nat) (x : Nat) : Flagged := fl2 mulF (fl2 subF (fl0 x) (fl0 (nth t 0))) (fl0 (nth t 2))

/-- The segment of a u: below 0 the low tail, above 255 the high tail; none when u is a NaN, for which the manual states no
segment. -/
def ftSegment (u : Nat) : Option Int :=
  match fDecode fp32 u with
  | .nan => none
  | .inf neg => some (if neg then -1 else 256)
  | .fin neg k e => some (floorInt neg k e)

/-- The offset of x from the start of segment `i`. -/
def ftOffset (t : List Nat) (x : Nat) (i : Int) : Flagged :=
  fl2 subF (fl0 x) (fl3 fmaF (fl0 (ofIntF i)) (fl0 (nth t 1)) (fl0 (nth t 0)))

/-- The three operands of the last step of fv. -/
def ftLast (t : List Nat) (x : Nat) (i : Int) : Flagged × Flagged × Flagged :=
  if i < 0 then (fl0 (nth t 3), fl0 x, fl0 (nth t 4))
  else if 255 < i then (fl0 (nth t 5), fl0 x, fl0 (nth t 6))
  else
    let k := 16 + 4 * i.toNat
    let y := ftOffset t x i
    (fl3 fmaF (fl0 (nth t (k + 2))) y (fl0 (nth t (k + 1))), y, fl0 (nth t k))

/-- dv. -/
def ftSlope (t : List Nat) (x : Nat) (i : Int) : Flagged :=
  if i < 0 then fl0 (nth t 7)
  else if 255 < i then fl0 (nth t 8)
  else
    let k := 1040 + 4 * i.toNat
    let y := ftOffset t x i
    fl3 fmaF (fl3 fmaF (fl0 (nth t (k + 2))) y (fl0 (nth t (k + 1)))) y (fl0 (nth t k))

/-- A value that a reduction has read: it raises no flag again. -/
def vxPlain (x : Nat) : FVal × Nat := (fDecode fp32 x, 0)

/-- A table word or the result of an inner step as an operand of the final step, with the flags it carries. -/
def vxInner (x : Flagged) : FVal × Nat := (fDecode fp32 x.1, x.2 ||| (if finF x.1 then 0 else fNfIn))

/-- V_FN, and V_FND with `b`, of one element; `free` is the value where u is a NaN. Every step of R261 raises the flags of
R48, the steps of u included (DEDUCED, log 142). -/
def vxFn (t : List Nat) (m : Nat) (free : Nat) (fnd : Bool) (a b : Nat) : Flagged :=
  let xo := vxOp m a
  if fvIsNaN xo.1 then (fmtNaN fp32, fNfIn)
  else
    let x := fEnc fp32 xo.1
    let u := ftU t x
    let r : Flagged := match ftSegment u.1, fnd with
      | none, false => (free, 0)
      | none, true => vxRes m [vxPlain free, vxOp m b] (fvMul (fDecode fp32 free) (vxOp m b).1)
      | some i, false =>
        let p := ftLast t x i
        vxRes m [vxInner p.1, vxInner p.2.1, vxInner p.2.2]
          (fvFma (vxInner p.1).1 (vxInner p.2.1).1 (vxInner p.2.2).1)
      | some i, true =>
        let dv := vxInner (ftSlope t x i)
        vxRes m [dv, vxOp m b] (fvMul dv.1 (vxOp m b).1)
    (r.1, r.2 ||| u.2 ||| xo.2)

/-! ### Operands of a compute slot (R256) -/

/-- The immediate in a type. -/
def vxImm (typ w : Nat) : Nat := if typ = 0 then bf16to32 (bits w 9 16) else ofSigned 32 (toSigned 16 (bits w 9 16))

/-- Opcode of a compute slot. -/
def vxOpc (w : Nat) : Nat := bits w 56 8
/-- VX_SUB. -/
def vxSub (w : Nat) : Nat := bits w 6 3
/-- VX_BSEL. -/
def vxSel (w : Nat) : Nat := bits w 33 3
/-- VX_NUM_MODE. -/
def vxMode (w : Nat) : Nat := bits w 25 8

/-- Tile register A. -/
def vxA (v : Stream) (w : Nat) : TileReg := tregGet v (bits w 46 5)
/-- Tile register B. -/
def vxB (v : Stream) (w : Nat) : TileReg := tregGet v (bits w 41 5)
/-- Tile register C. -/
def vxC (v : Stream) (w : Nat) : TileReg := tregGet v (bits w 36 5)

/-- Operand B comes from a tile register. -/
def vxBReg (w : Nat) : Bool := vxHasB (vxOpc w) && decide (vxSel w ≤ 2)

/-- V_FMA and V_SEL read Tc. -/
def vxUsesC (w : Nat) : Bool := vxOpc w == 0x04 || vxOpc w == 0x11

/-- Operand B at an element. -/
def vxBEl (v : Stream) (w r c : Nat) : Nat :=
  let b := vxB v w
  if vxSel w = 0 then tregEl b r c
  else if vxSel w = 1 then tregEl b 0 c
  else if vxSel w = 2 then tregEl b r 0
  else if vxSel w = 3 then smGet 0 v.sregs (bits w 41 4)
  else vxImm (vxA v w).typ w

/-- The type of operand B: a register's own, else that of the operation. -/
def vxBType (v : Stream) (w : Nat) : Nat := if vxBReg w then (vxB v w).typ else (vxA v w).typ

/-- The Types column of Table 9-3. -/
def vxTypeOk (op sub typ : Nat) : Bool :=
  if [0x04, 0x05, 0x08, 0x30, 0x31].contains op then typ == 0
  else if [0x18, 0x19].contains op then typ == 4
  else if op = 0x20 then typ == (if sub = 0 then 0 else 4)
  else true

/-- Table 9-7, in its order. V_SMOV reads A only with VX_SUB = 1; an EMPTY register has neither type nor shape, and with A
EMPTY a FULL B or C is still held to Table 9-3; a mask need not have the data's type (R262). -/
def vxCheck (v : Stream) (w : Nat) : Nat :=
  let op := vxOpc w
  let a := vxA v w
  let b := vxB v w
  let c := vxC v w
  let useB := vxBReg w && b.full
  let useC := vxUsesC w && c.full
  let typed := fun (t : TileReg) => vxTypeOk op (vxSub w) t.typ && (!a.full || t.typ == a.typ)
  if op = 0x3E then (if vxSub w = 1 ∧ !a.full then stVxReg else stOk)
  else firstBad [
    ((!a.full || vxTypeOk op (vxSub w) a.typ) && (!useB || op == 0x38 || op == 0x39 || typed b) &&
      (!useC || op == 0x11 || typed c), stVxType),
    (!a.full || ((!useB || (if vxSel w = 1 then b.nc == a.nc else if vxSel w = 2 then b.nr == a.nr
        else b.nr == a.nr && b.nc == a.nc)) && (!useC || (c.nr == a.nr && c.nc == a.nc))), stVxShape),
    (a.full && (!vxBReg w || b.full) && (!vxUsesC w || c.full), stVxReg),
    ((op != 0x30 && op != 0x31) || smGet [] v.ftabs (vxSub w) != [], stVxFtab)]

/-- Datapath cycles of a compute slot (Table 9-5), scaled to the shape of A (R268). -/
def vxCycles (v : Stream) (w : Nat) : Nat :=
  let op := vxOpc w
  let a := vxA v w
  let base := if op = 0x05 ∨ op = 0x08 then 32 else if op = 0x30 ∨ op = 0x31 then 24 else if op = 0x28 ∨ op = 0x29 then 14
    else if op = 0x38 ∨ op = 0x39 then 16 else 8
  if op = 0x3E then 1
  else ceilDiv ((if v.uncollated then base else 2 * base) * ceilDiv (a.nr * a.nc) 512) 8

/-- A compute slot with opcode `op`: it is checked, computed under `mm` mismatches, and done. `f` answers the stream with
its results written, the number of elements written and the flags. -/
def onVx (op inst mm : Nat) (o : Otp) (d : Dev) (f : Dev → Stream → Nat → Stream × Nat × Nat) : Dev :=
  let e := ek 2 inst
  onSlot o d e (fun s => (s.kind == 3 || s.kind == 4) && vxOpc s.w == op) (fun d v s =>
    let st := vxCheck v s.w
    if st ≠ stOk then stFault d e st
    else vxLane o d e v mm (fun d =>
      let r := f d v s.w
      let d := if [0x30, 0x31, 0x38, 0x39].contains op then bump d else d
      slotDone (vxCount (stFlags (stSet d e r.1) e r.2.2) e r.2.1 (vxCycles v s.w)) e))

/-- The OR of the flags of every element of a shape. -/
def vxFlagsOf (nr nc : Nat) (f : Nat → Nat → Flagged) : Nat :=
  (List.range (nr * nc)).foldl (fun a k => a ||| (f (k / nc) (k % nc)).2) 0

/-- Write a tile result to Td. -/
def vxPut (v : Stream) (w typ nr nc : Nat) (f : Nat → Nat → Flagged) : Stream × Nat × Nat :=
  let t := bits w 51 5
  (tregSet v t (tregMake (tregGet v t) typ nr nc (fun r c => (f r c).1)), nr * nc, vxFlagsOf nr nc f)

/-- An operation element by element: `g typ mode sub a b c`. -/
def vxMap (typOf : Nat → Nat) (g : Nat → Nat → Nat → Nat → Nat → Nat → Flagged) (_d : Dev) (v : Stream) (w : Nat) :
    Stream × Nat × Nat :=
  let a := vxA v w
  let c := vxC v w
  vxPut v w (typOf a.typ) a.nr a.nc (fun r k =>
    g a.typ (vxMode w) (vxSub w) (tregEl a r k) (vxBEl v w r k) (tregEl c r k))

/-! ### Operations (Table 9-3) -/

/-- V_ADD. -/
def vAddDev (inst mm : Nat) (o : Otp) (d : Dev) : Dev :=
  onVx 0x01 inst mm o d (vxMap id (fun t m _ a b _ => vx2 t m fvAdd (· + ·) a b))
/-- V_ADD (R258). -/
def execVAdd (inst mm : Nat) (s : State) : Host.Outcome State Fault Refusal := runDev (vAddDev inst mm) s

/-- V_SUB. -/
def vSubDev (inst mm : Nat) (o : Otp) (d : Dev) : Dev :=
  onVx 0x02 inst mm o d (vxMap id (fun t m _ a b _ => vx2 t m fvSub (· - ·) a b))
/-- V_SUB (R258). -/
def execVSub (inst mm : Nat) (s : State) : Host.Outcome State Fault Refusal := runDev (vSubDev inst mm) s

/-- V_MUL. -/
def vMulDev (inst mm : Nat) (o : Otp) (d : Dev) : Dev :=
  onVx 0x03 inst mm o d (vxMap id (fun t m _ a b _ => vx2 t m fvMul (· * ·) a b))
/-- V_MUL (R258). -/
def execVMul (inst mm : Nat) (s : State) : Host.Outcome State Fault Refusal := runDev (vMulDev inst mm) s

/-- V_FMA. -/
def vFmaDev (inst mm : Nat) (o : Otp) (d : Dev) : Dev :=
  onVx 0x04 inst mm o d (vxMap id (fun _ m _ a b c =>
    vxRes m [vxOp m a, vxOp m b, vxOp m c] (fvFma (vxOp m a).1 (vxOp m b).1 (vxOp m c).1)))
/-- V_FMA (R258). -/
def execVFma (inst mm : Nat) (s : State) : Host.Outcome State Fault Refusal := runDev (vFmaDev inst mm) s

/-- V_DIV. -/
def vDivDev (inst mm : Nat) (o : Otp) (d : Dev) : Dev :=
  onVx 0x05 inst mm o d (vxMap id (fun _ m _ a b _ => vxF2 m fvDiv a b))
/-- V_DIV (R258). -/
def execVDiv (inst mm : Nat) (s : State) : Host.Outcome State Fault Refusal := runDev (vDivDev inst mm) s

/-- V_MAX. -/
def vMaxDev (inst mm : Nat) (o : Otp) (d : Dev) : Dev :=
  onVx 0x06 inst mm o d (vxMap id (fun t m _ a b _ => vx2 t m fvMax max a b))
/-- V_MAX (R258). -/
def execVMax (inst mm : Nat) (s : State) : Host.Outcome State Fault Refusal := runDev (vMaxDev inst mm) s

/-- V_MIN. -/
def vMinDev (inst mm : Nat) (o : Otp) (d : Dev) : Dev :=
  onVx 0x07 inst mm o d (vxMap id (fun t m _ a b _ => vx2 t m fvMin min a b))
/-- V_MIN (R258). -/
def execVMin (inst mm : Nat) (s : State) : Host.Outcome State Fault Refusal := runDev (vMinDev inst mm) s

/-- V_SQRT. -/
def vSqrtDev (inst mm : Nat) (o : Otp) (d : Dev) : Dev :=
  onVx 0x08 inst mm o d (vxMap id (fun _ m _ a _ _ => vxF1 m fvSqrt a))
/-- V_SQRT (R258). -/
def execVSqrt (inst mm : Nat) (s : State) : Host.Outcome State Fault Refusal := runDev (vSqrtDev inst mm) s

/-- V_ABS. -/
def vAbsDev (inst mm : Nat) (o : Otp) (d : Dev) : Dev :=
  onVx 0x09 inst mm o d (vxMap id (fun t m _ a _ _ => if t = 0 then vxF1 m fvAbs a else vxI (toSigned 32 a).natAbs))
/-- V_ABS (R258). -/
def execVAbs (inst mm : Nat) (s : State) : Host.Outcome State Fault Refusal := runDev (vAbsDev inst mm) s

/-- V_NEG. -/
def vNegDev (inst mm : Nat) (o : Otp) (d : Dev) : Dev :=
  onVx 0x0A inst mm o d (vxMap id (fun t m _ a _ _ => if t = 0 then vxF1 m fvNegate a else vxI (-(toSigned 32 a))))
/-- V_NEG (R258). -/
def execVNeg (inst mm : Nat) (s : State) : Host.Outcome State Fault Refusal := runDev (vNegDev inst mm) s

/-- V_CMP. -/
def vCmpDev (inst mm : Nat) (o : Otp) (d : Dev) : Dev :=
  onVx 0x10 inst mm o d (vxMap (fun _ => 4) (fun t m sub a b _ => vxCmp t m sub a b))
/-- V_CMP (R258). -/
def execVCmp (inst mm : Nat) (s : State) : Host.Outcome State Fault Refusal := runDev (vCmpDev inst mm) s

/-- The flag of an element that an operation only tests as set (R56, R257): it is no value that SUBN acts on. -/
def vxTestFl (typ raw : Nat) : Nat := if typ = 0 ∧ !finF raw then fNfIn else 0

/-- V_SEL of one element: a and b are operands under the mode (R55, R56) and a NaN is canonical (R43), since only V_COMPRESS
and V_EXPAND move bits (R263). -/
def vxSelect (typ m ctyp a b c : Nat) : Flagged :=
  let r : Flagged := if typ = 0 then
      vxRes m [vxOp m a, vxOp m b] (if vxSet ctyp c then (vxOp m a).1 else (vxOp m b).1)
    else (if vxSet ctyp c then a else b, 0)
  (r.1, r.2 ||| vxTestFl ctyp c)

/-- V_SEL. -/
def vSelDev (inst mm : Nat) (o : Otp) (d : Dev) : Dev :=
  onVx 0x11 inst mm o d (fun d v w => vxMap id (fun t m _ a b c => vxSelect t m (vxC v w).typ a b c) d v w)
/-- V_SEL (R257). -/
def execVSel (inst mm : Nat) (s : State) : Host.Outcome State Fault Refusal := runDev (vSelDev inst mm) s

/-- V_AND. -/
def vAndDev (inst mm : Nat) (o : Otp) (d : Dev) : Dev :=
  onVx 0x18 inst mm o d (vxMap id (fun _ _ _ a b _ => (a &&& b, 0)))
/-- V_AND (R256). -/
def execVAnd (inst mm : Nat) (s : State) : Host.Outcome State Fault Refusal := runDev (vAndDev inst mm) s

/-- V_OR. -/
def vOrDev (inst mm : Nat) (o : Otp) (d : Dev) : Dev :=
  onVx 0x19 inst mm o d (vxMap id (fun _ _ _ a b _ => (a ||| b, 0)))
/-- V_OR (R256). -/
def execVOr (inst mm : Nat) (s : State) : Host.Outcome State Fault Refusal := runDev (vOrDev inst mm) s

/-- V_CVT. -/
def vCvtDev (inst mm : Nat) (o : Otp) (d : Dev) : Dev :=
  onVx 0x20 inst mm o d (vxMap (fun t => 4 - t) (fun _ m sub a _ _ => vxCvt sub m a))
/-- V_CVT (R258). -/
def execVCvt (inst mm : Nat) (s : State) : Host.Outcome State Fault Refusal := runDev (vCvtDev inst mm) s

/-! ### Reductions (R259) -/

/-- One level of the pairwise tree. -/
def pairUp (op : Flagged → Flagged → Flagged) : List Flagged → List Flagged
  | a :: b :: t => op a b :: pairUp op t
  | l => l

/-- The tree over 64 values. -/
def tree64 (op : Flagged → Flagged → Flagged) (l : List Flagged) : Flagged :=
  (pairUp op (pairUp op (pairUp op (pairUp op (pairUp op (pairUp op l)))))).headD (0, 0)

/-- Reduce every row (VX_SUB 0) or column (VX_SUB 1) of A: `op mode` on results already read, `first` on an element,
`ident` for an absent position. -/
def vxReduce (first : Nat → Nat → Nat → Flagged) (op : Nat → Nat → Flagged → Flagged → Flagged) (ident : Nat → Nat) (_d : Dev)
    (v : Stream) (w : Nat) : Stream × Nat × Nat :=
  let a := vxA v w
  let m := vxMode w
  let line := fun k => tree64 (op a.typ m) ((List.range 64).map (fun j =>
    let r := if vxSub w = 0 then k else j
    let c := if vxSub w = 0 then j else k
    if r < a.nr ∧ c < a.nc then first a.typ m (tregEl a r c) else (ident a.typ, 0)))
  let vals := (List.range (if vxSub w = 0 then a.nr else a.nc)).map line
  if vxSub w = 0 then vxPut v w a.typ a.nr 1 (fun r _ => vals.getD r (0, 0))
  else vxPut v w a.typ 1 a.nc (fun _ c => vals.getD c (0, 0))

/-- An element as a reduction reads it. -/
def vxFirst (typ m x : Nat) : Flagged :=
  if typ = 0 then (fEnc fp32 (vxOp m x).1, (vxOp m x).2) else (x, 0)

/-- One step of a reduction on values that have been read. -/
def vxStep (g : FVal → FVal → FVal) (h : Int → Int → Int) (typ m : Nat) (a b : Flagged) : Flagged :=
  let r := if typ = 0 then vxRes m [vxPlain a.1, vxPlain b.1] (g (fDecode fp32 a.1) (fDecode fp32 b.1))
    else vxI (h (toSigned 32 a.1) (toSigned 32 b.1))
  (r.1, r.2 ||| a.2 ||| b.2)

/-- V_RSUM: absent positions enter as -0.0 or 0. -/
def vRsumDev (inst mm : Nat) (o : Otp) (d : Dev) : Dev :=
  onVx 0x28 inst mm o d (vxReduce vxFirst (vxStep fvAdd (· + ·)) (fun t => if t = 0 then 2 ^ 31 else 0))
/-- V_RSUM (R259). -/
def execVRsum (inst mm : Nat) (s : State) : Host.Outcome State Fault Refusal := runDev (vRsumDev inst mm) s

/-- V_RMAX: absent positions enter as -infinity or -2^31. -/
def vRmaxDev (inst mm : Nat) (o : Otp) (d : Dev) : Dev :=
  onVx 0x29 inst mm o d (vxReduce vxFirst (vxStep fvMax max) (fun t => if t = 0 then fmtInf fp32 true else 2 ^ 31))
/-- V_RMAX (R259). -/
def execVRmax (inst mm : Nat) (s : State) : Host.Outcome State Fault Refusal := runDev (vRmaxDev inst mm) s

/-! ### Function tables -/

/-- The free value of element (r, c) of a slot. -/
def vxFree (d : Dev) (r c : Nat) : Nat := (Config.freeWord (d.freeIdx * 4294967296 + r * 64 + c)).toNat % 2 ^ 32

/-- V_FN or V_FND over a tile. -/
def vxFnMap (fnd : Bool) (d : Dev) (v : Stream) (w : Nat) : Stream × Nat × Nat :=
  let a := vxA v w
  let t := smGet [] v.ftabs (vxSub w)
  vxPut v w 0 a.nr a.nc (fun r c => vxFn t (vxMode w) (vxFree d r c) fnd (tregEl a r c) (vxBEl v w r c))

/-- V_FN. -/
def vFnDev (inst mm : Nat) (o : Otp) (d : Dev) : Dev := onVx 0x30 inst mm o d (vxFnMap false)
/-- V_FN (R261). -/
def execVFn (inst mm : Nat) (s : State) : Host.Outcome State Fault Refusal := runDev (vFnDev inst mm) s

/-- V_FND. -/
def vFndDev (inst mm : Nat) (o : Otp) (d : Dev) : Dev := onVx 0x31 inst mm o d (vxFnMap true)
/-- V_FND (R261). -/
def execVFnd (inst mm : Nat) (s : State) : Host.Outcome State Fault Refusal := runDev (vFndDev inst mm) s

/-! ### Compress and expand (R262, R263) -/

/-- The mask at an element. -/
def vxMask (v : Stream) (w r c : Nat) : Bool := vxSet (vxBType v w) (vxBEl v w r c)

/-- The set columns of row `r`. -/
def vxRowSet (v : Stream) (w r : Nat) : List Nat := (List.range (vxA v w).nc).filter (vxMask v w r)

/-- The set positions of the whole register, as r * NC + c. -/
def vxAllSet (v : Stream) (w : Nat) : List Nat :=
  let a := vxA v w
  (List.range (a.nr * a.nc)).filter (fun k => vxMask v w (k / a.nc) (k % a.nc))

/-- Write the result to Td and the counts to Tc; where the two are one register the manual does not say which stands, and a
free choice decides. -/
def vxPack (d : Dev) (v : Stream) (w : Nat) (f : Nat → Nat → Nat) : Stream × Nat × Nat :=
  let a := vxA v w
  let cnt : Nat → Nat → Flagged := fun r c =>
    (if c ≠ 0 then 0 else if vxSub w = 0 then (vxRowSet v w r).length
      else if r = 0 then (vxAllSet v w).length else 0, 0)
  let tc := bits w 36 5
  let x := vxPut v w a.typ a.nr a.nc (fun r c => (f r c, 0))
  let y := fun u : Stream => tregSet u tc (tregMake (tregGet u tc) 4 a.nr a.nc (fun r c => (cnt r c).1))
  if tc = bits w 51 5 ∧ Config.freeBool d.freeIdx then (x.1, 2 * x.2.1, 0) else (y x.1, 2 * x.2.1, 0)

/-- V_COMPRESS over a tile. -/
def vxCompress (d : Dev) (v : Stream) (w : Nat) : Stream × Nat × Nat :=
  let a := vxA v w
  let fill := vxImm a.typ w
  let all := vxAllSet v w
  let rows := (List.range a.nr).map (vxRowSet v w)
  vxPack d v w (fun r c =>
    if vxSub w = 0 then
      match (rows.getD r [])[c]? with
      | some j => tregEl a r j
      | none => fill
    else match all[r * a.nc + c]? with
      | some k => tregEl a (k / a.nc) (k % a.nc)
      | none => fill)

/-- V_EXPAND over a tile. -/
def vxExpand (d : Dev) (v : Stream) (w : Nat) : Stream × Nat × Nat :=
  let a := vxA v w
  let fill := vxImm a.typ w
  let all := vxAllSet v w
  let rows := (List.range a.nr).map (vxRowSet v w)
  vxPack d v w (fun r c =>
    if !vxMask v w r c then fill
    else
      let k := if vxSub w = 0 then (rows.getD r []).findIdx (· == c) else all.findIdx (· == r * a.nc + c)
      let pr := if vxSub w = 0 then r else k / a.nc
      let pc := if vxSub w = 0 then k else k % a.nc
      if pr < a.nr ∧ pc < a.nc then tregEl a pr pc else fill)

/-- V_COMPRESS. -/
def vCompressDev (inst mm : Nat) (o : Otp) (d : Dev) : Dev := onVx 0x38 inst mm o d vxCompress
/-- V_COMPRESS (R262). -/
def execVCompress (inst mm : Nat) (s : State) : Host.Outcome State Fault Refusal := runDev (vCompressDev inst mm) s

/-- V_EXPAND. -/
def vExpandDev (inst mm : Nat) (o : Otp) (d : Dev) : Dev := onVx 0x39 inst mm o d vxExpand
/-- V_EXPAND (R263). -/
def execVExpand (inst mm : Nat) (s : State) : Host.Outcome State Fault Refusal := runDev (vExpandDev inst mm) s

/-! ### Summaries and scalars (R264, R256) -/

/-- V_SUMM over a tile. -/
def vxSumm (_d : Dev) (v : Stream) (w : Nat) : Stream × Nat × Nat :=
  let a := vxA v w
  let m := vxMode w
  let ks := List.range (a.nr * a.nc)
  let cnt := (ks.filter (fun k => vxSet a.typ (tregEl a (k / a.nc) (k % a.nc)))).length
  let els := ks.map (fun k => vxFirst a.typ m (vxBEl v w (k / a.nc) (k % a.nc)))
  let tests := ks.foldl (fun f k => f ||| vxTestFl a.typ (tregEl a (k / a.nc) (k % a.nc))) 0
  let top := (els.drop 1).foldl (vxStep fvMax max a.typ m) ((els.headD (0, 0)).1, (els.headD (0, 0)).2 ||| tests)
  let y := bits w 51 4
  match (if (vxSub w).testBit 0 then none else smGet none v.yregs y) with
  | none => ({ v with yregs := smSet none v.yregs y (some ⟨cnt, top.1, cnt != 0⟩) }, 1, top.2)
  | some p =>
    let t := vxStep fvMax max a.typ m (p.maxv, 0) top
    let sat := if p.count + cnt < 2 ^ 32 then 0 else fSatI
    ({ v with yregs := smSet none v.yregs y (some ⟨satAdd 32 p.count cnt, t.1, p.any || cnt != 0⟩) }, 1, t.2 ||| sat)

/-- V_SUMM. -/
def vSummDev (inst mm : Nat) (o : Otp) (d : Dev) : Dev := onVx 0x3C inst mm o d vxSumm
/-- V_SUMM (R264). -/
def execVSumm (inst mm : Nat) (s : State) : Host.Outcome State Fault Refusal := runDev (vSummDev inst mm) s

/-- V_SMOV: a scalar register takes a parameter register or element (0, 0) of A. -/
def vxSmov (_d : Dev) (v : Stream) (w : Nat) : Stream × Nat × Nat :=
  let x := if vxSub w = 0 then param v (bits w 9 6) else tregEl (vxA v w) 0 0
  ({ v with sregs := smSet 0 v.sregs (bits w 51 4) x }, 1, 0)

/-- V_SMOV. -/
def vSmovDev (inst mm : Nat) (o : Otp) (d : Dev) : Dev := onVx 0x3E inst mm o d vxSmov
/-- V_SMOV (R256). -/
def execVSmov (inst mm : Nat) (s : State) : Host.Outcome State Fault Refusal := runDev (vSmovDev inst mm) s

/-! ### Messages (Table 9-8) -/

/-- DZ_VXE_MODE (R265): the mode of streams that start after the reply. -/
def hVxeMode (ch : Nat) (p : List Byte) (o : Otp) (d : Dev) : DzRes :=
  let mask := fld p 0 2
  let mode := fld p 2 1
  let set := (List.range 16).filter (fun n => mask.testBit n)
  let kept := d.uncollated.filter (fun n => !set.contains n)
  dzPf ch d stVxDenied <| dzNeed d (decide (mode < 2) && zeroAt p 3 5) stMbxParam <|
    dzNeed d (set.all (present o 2)) stEngineAbsent <|
      dzOk { d with uncollated := (List.range 16).filter (fun n => kept.contains n || (mode == 1 && set.contains n)) } []

/-- DZ_VXE_QUERY. -/
def hVxeQuery (_ch : Nat) (p : List Byte) (o : Otp) (d : Dev) : DzRes :=
  let n := fld p 0 1
  let e := ek 2 n
  let run := match stGet d e with
    | some v => natLe 1 v.uncollated.toNat
    | none => natLe 1 0xFF
  dzNeed d (zeroAt p 1 7) stMbxParam <| dzNeed d (present o 2 n) stEngineAbsent <|
    dzOk d (natLe 1 (d.uncollated.contains n).toNat ++ run ++ zeros 6 ++ pcBytes d (kEng e + 3) ++ pcBytes d (kEng e + 4) ++
      pcBytes d (kEng e + 5) ++ natLe 1 (pcOvf d (kEng e + 3) 3) ++ zeros 5)

end Sys2Proof.Machine
end

