-- ==== Sys2Proof/Machine/Mailbox.lean ====
section
/-!
DEFINITION. The mailboxes (chapter 17): BAR0 (R443, R444), the capability report (R477, R478), the header and its checks (R467 to
R470), the serving of requests with their deferred replies (R471, R473), the MCTP channel (R474, R475, R528), and the message
rows, which are requests with a well-formed header.
-/

namespace Sys2Proof.Machine

/-! ### The capability report -/

/-- The 40 bytes of the capability block as a function reads it (Tables 16-4, 0-2, 17-7). -/
def capBlock (o : Otp) (d : Dev) (fn : Nat) : List Byte :=
  let v := slotGet d d.fw.running
  let fw := if fwRuns d then natLe 2 (Config.fwRelease v.build).toNat ++ natLe 2 v.svn ++ natLe 4 v.build else zeros 8
  let dz := if fwRuns d then 4000 + 1 <<< 16 + d.fw.running <<< 24 + (v.state == 3).toNat <<< 25 else 0
  natLe 2 o.vendorId.toNat ++ natLe 2 (deviceId fn) ++ natLe 1 o.stepping.toNat ++ zeros 2 ++ [1] ++
    natLe 8 o.capEngines.toNat ++ natLe 8 o.capUnits.toNat ++ fw ++ natLe 8 dz

/-- The usable sets of R478. -/
def usableSets (o : Otp) (d : Dev) : List Byte :=
  let eng := classMask 1 (usable o d 1) + classMask 3 (usable o d 3) <<< 32
  let gone := intUnits o d 2 % 2 ^ 24
  natLe 8 eng ++ natLe 8 (o.capUnits.toNat - (o.capUnits.toNat &&& gone))

/-- DZ_CAP_READ (R478). -/
def hCapRead (ch : Nat) (_p : List Byte) (o : Otp) (d : Dev) : DzRes := dzOk d (capBlock o d (fnOf ch) ++ usableSets o d)

/-! ### Mailbox registers -/

/-- A channel's mailbox. -/
def mbxGet (d : Dev) (ch : Nat) : Mailbox := smGet mailbox0 d.mbox ch

/-- HUB_MBX_STATE (Table 17-3). -/
def mbxState (m : Mailbox) : Nat :=
  m.phase + m.seqFree.toNat <<< 2 + m.overrun.toNat <<< 3 + m.lastStatus.toNat <<< 16 + m.lastSeq.toNat <<< 32

/-- DZ_MBX_STATUS. -/
def hMbxStatus (ch : Nat) (_p : List Byte) (_o : Otp) (d : Dev) : DzRes :=
  let k := kMbx ch
  dzOk d (natLe 8 (mbxState (mbxGet d ch)) ++ (List.range 3).flatMap (fun i => pcBytes d (k + i)) ++ natLe 1 (pcOvf d k 3) ++
    zeros 5)

/-- The message buffer, 4,032 bytes. -/
def mbxBuf (m : Mailbox) : List Byte := padTo 4032 m.buffer

/-- Bytes put into a list at an offset. -/
def putBytes (l : List Byte) (off : Nat) (bs : List Byte) : List Byte := l.take off ++ bs ++ l.drop (off + bs.length)

/-! ### The opcode index -/

/-- A message: its opcode, the length of its request (R468), and its meaning. -/
structure DzRow where
  op : Nat
  len : List Byte → Nat
  run : Nat → List Byte → Otp → Dev → DzRes

/-- Messages of group 0x01: opcode, request length, meaning. -/
def dzGroup01 : List DzRow := [
  ⟨0x0100, fun _ => 0, hCapRead⟩,
  ⟨0x0101, fun _ => 0, hMbxStatus⟩]

/-- Messages of group 0x02: opcode, request length, meaning. -/
def dzGroup02 : List DzRow := [
  ⟨0x0200, fun _ => 80, hQueueCreate⟩,
  ⟨0x0201, fun _ => 8, hQueueDestroy⟩,
  ⟨0x0202, fun _ => 8, hQueueHalt⟩,
  ⟨0x0203, fun _ => 12, hQueueRestart⟩,
  ⟨0x0204, fun _ => 8, hQueueQuery⟩,
  ⟨0x0205, fun _ => 8, hQueueExpect⟩,
  ⟨0x0240, fun _ => 16, hCodeLoad⟩,
  ⟨0x0241, fun _ => 2, hCodeUnload⟩,
  ⟨0x0242, fun _ => 2, hCodeQuery⟩,
  ⟨0x0243, fun _ => 4, hTallyRead⟩,
  ⟨0x0244, fun _ => 8, hTallySet⟩,
  ⟨0x0245, fun _ => 16, hBreakSet⟩,
  ⟨0x0246, fun _ => 1, hBreakQuery⟩,
  ⟨0x0250, fun _ => 40, hCombArea⟩,
  ⟨0x0251, fun _ => 8, hCombQuery⟩,
  ⟨0x0260, fun _ => 32, hMxeFreeze⟩,
  ⟨0x0261, fun _ => 8, hMxeQuery⟩,
  ⟨0x0270, fun _ => 8, hVxeMode⟩,
  ⟨0x0271, fun _ => 8, hVxeQuery⟩]

/-- Messages of group 0x03: opcode, request length, meaning. -/
def dzGroup03 : List DzRow := [
  ⟨0x0300, fun _ => 24, hMemAlloc⟩,
  ⟨0x0301, fun _ => 8, hMemFree⟩,
  ⟨0x0302, fun _ => 8, hMemQuery⟩,
  ⟨0x0303, fun _ => 12, hMemSlots⟩,
  ⟨0x0304, fun _ => 8, hMemFlush⟩,
  ⟨0x0305, fun _ => 8, hMemStatus⟩,
  ⟨0x0306, fun _ => 8, hMemResv⟩,
  ⟨0x0307, fun _ => 8, hMemLine⟩,
  ⟨0x0308, fun _ => 8, hXfeQuery⟩,
  ⟨0x0310, fun _ => 16, hHostAperture⟩,
  ⟨0x0311, fun _ => 0, hHostStatus⟩]

/-- Messages of group 0x04: opcode, request length, meaning. -/
def dzGroup04 : List DzRow := [
  ⟨0x0400, fun _ => 136, hCatWrite⟩,
  ⟨0x0401, fun _ => 8, hCatRead⟩,
  ⟨0x0402, fun _ => 8, hCatClear⟩,
  ⟨0x0403, fun _ => 8, hCatQuery⟩,
  ⟨0x0404, fun _ => 8, hCatZeroClear⟩,
  ⟨0x0405, fun _ => 24, hHrdRegion⟩,
  ⟨0x0406, fun _ => 8, hHrdRead⟩,
  ⟨0x0407, fun _ => 8, hHrdClear⟩,
  ⟨0x0408, fun _ => 8, hEmbCounters⟩]

/-- Messages of group 0x05: opcode, request length, meaning. -/
def dzGroup05 : List DzRow := [
  ⟨0x0500, fun _ => 136, hParamWrite⟩,
  ⟨0x0501, fun _ => 8, hParamRead⟩,
  ⟨0x0502, fun _ => 8, hParamClear⟩,
  ⟨0x0503, fun p => 8 + 32 * fld p 1 1, hSchedWrite⟩,
  ⟨0x0504, fun _ => 8, hSeedSet⟩,
  ⟨0x0505, fun _ => 16, hVerInit⟩,
  ⟨0x0506, fun _ => 8, hVerConfig⟩,
  ⟨0x0507, fun _ => 8, hVerQuery⟩,
  ⟨0x0508, fun _ => 24, hDjArea⟩,
  ⟨0x0520, fun _ => 48, hPubArea⟩,
  ⟨0x0521, fun _ => 64, hPubMap⟩,
  ⟨0x0522, fun _ => 8, hPubQuery⟩,
  ⟨0x0530, fun _ => 20, hGuardConfig⟩,
  ⟨0x0531, fun _ => 0, hGuardQuery⟩,
  ⟨0x0532, fun _ => 8, hGuardHold⟩,
  ⟨0x0533, fun _ => 8, hGuardAbandon⟩,
  ⟨0x0534, fun _ => 8, hExportDesc⟩,
  ⟨0x0540, fun _ => 24, hRrAssign⟩,
  ⟨0x0541, fun _ => 24, hRrWindow⟩,
  ⟨0x0542, fun _ => 520, hRrTables⟩,
  ⟨0x0543, fun _ => 14, hRrTally⟩,
  ⟨0x0544, fun _ => 1, hRrQuery⟩]

/-- Messages of group 0x06: opcode, request length, meaning. -/
def dzGroup06 : List DzRow := [
  ⟨0x0600, fun _ => 0, hRhStatus⟩,
  ⟨0x0601, fun _ => 8, hRhPort⟩,
  ⟨0x0602, fun _ => 8, hRhRing⟩,
  ⟨0x0603, fun _ => 8, hRhPortCtl⟩,
  ⟨0x0610, fun _ => 16, hCollGroup⟩,
  ⟨0x0611, fun _ => 24, hCollArea⟩,
  ⟨0x0612, fun _ => 8, hCollMode⟩,
  ⟨0x0613, fun _ => 8, hCollQuery⟩]

/-- Messages of group 0x07: opcode, request length, meaning. -/
def dzGroup07 : List DzRow := [
  ⟨0x0700, fun _ => 0, hIntStatus⟩,
  ⟨0x0701, fun _ => 8, hIntConfig⟩,
  ⟨0x0702, fun _ => 8, hIntUnit⟩,
  ⟨0x0703, fun _ => 40, hLogDest⟩,
  ⟨0x0704, fun _ => 16, hLogRead⟩,
  ⟨0x0705, fun _ => 12, hKatLoad⟩,
  ⟨0x0706, fun _ => 16, hSpecArea⟩,
  ⟨0x0707, fun _ => 8, hIntInject⟩]

/-- Messages of group 0x08: opcode, request length, meaning. -/
def dzGroup08 : List DzRow := [
  ⟨0x0800, fun _ => 4, hSxFix⟩,
  ⟨0x0801, fun _ => 0, hSxSummary⟩,
  ⟨0x0802, fun _ => 8, hSxPowerCap⟩,
  ⟨0x0803, fun _ => 8, hSxClockCap⟩,
  ⟨0x0804, fun _ => 8, hSxCage⟩]

/-- Messages of group 0x09: opcode, request length, meaning. -/
def dzGroup09 : List DzRow := [
  ⟨0x0900, fun _ => 8, hAlmanacSet⟩,
  ⟨0x0901, fun _ => 8, hLedgerRead⟩,
  ⟨0x0902, fun _ => 8, hLedgerEvents⟩,
  ⟨0x0903, fun _ => 0, hLedgerCommit⟩,
  ⟨0x0904, fun _ => 0, hPcOvfClear⟩]

/-- Messages of group 0x0A: opcode, request length, meaning. -/
def dzGroup0A : List DzRow := [
  ⟨0x0A00, fun _ => 0, hSecMeas⟩,
  ⟨0x0A01, fun _ => 40, hSecExtend⟩,
  ⟨0x0A02, fun _ => 32, hSecAttest⟩,
  ⟨0x0A03, fun _ => 8, hSecCerts⟩,
  ⟨0x0A04, fun _ => 0, hSecChallenge⟩,
  ⟨0x0A05, fun _ => 256, hSecUnlock⟩,
  ⟨0x0A06, fun _ => 8, hSecZeroise⟩,
  ⟨0x0A07, fun _ => 12, hSecManifest⟩,
  ⟨0x0A08, fun _ => 0, hSecSelftest⟩]

/-- Messages of group 0x0B: opcode, request length, meaning. -/
def dzGroup0B : List DzRow := [
  ⟨0x0B00, fun _ => 20, hFwStage⟩,
  ⟨0x0B01, fun _ => 8, hFwActivate⟩,
  ⟨0x0B02, fun _ => 0, hFwConfirm⟩,
  ⟨0x0B03, fun _ => 0, hFwQuery⟩,
  ⟨0x0B04, fun _ => 0, hFwRevert⟩,
  ⟨0x0B05, fun _ => 0, hFwOpen⟩,
  ⟨0x0B06, fun p => 16 + fld p 4 4, hFwChunk⟩,
  ⟨0x0B10, fun _ => 8, hDbgWindow⟩]

/-- The opcode index (Table 17-11). -/
def dzTable : List DzRow :=
  dzGroup01 ++ dzGroup02 ++ dzGroup03 ++ dzGroup04 ++ dzGroup05 ++ dzGroup06 ++ dzGroup07 ++ dzGroup08 ++ dzGroup09 ++ dzGroup0A ++ dzGroup0B

/-- The message of an opcode. -/
def dzFind (op : Nat) : Option DzRow := dzTable.find? (fun r => r.op == op)

/-- Opcodes that the MCTP channel may send (R475, R439, R503, R521, R543). -/
def mctpOpen (op : Nat) : Bool :=
  [0x0100, 0x0101, 0x0700, 0x0703, 0x0704, 0x0A00, 0x0A02, 0x0A03, 0x0A04, 0x0A05, 0x0A06, 0x0A07, 0x0A08].contains op ||
    (decide (0x0800 ≤ op) && decide (op ≤ 0x09FF)) || (decide (0x0B00 ≤ op) && decide (op ≤ 0x0B06))

/-- Opcodes that the boot ROM answers in recovery (R528). -/
def recoveryOpen (op : Nat) (p : List Byte) : Bool :=
  [0x0B03, 0x0B05, 0x0B06, 0x0A00].contains op || (op == 0x0B00 && fld p 0 1 == 1)

/-- Check 6 of Table 17-5. -/
def dzOpen (d : Dev) (ch op : Nat) (p : List Byte) : Bool :=
  if d.pow.phase = .recovery then recoveryOpen op p
  else if ch = 16 then mctpOpen op
  else !(isVf ch && decide (0x0B00 ≤ op) && decide (op ≤ 0x0BFF))

/-! ### Requests and replies -/

/-- The 32 bytes of a header and the payload, with MH_CRC (Table 17-4). -/
def mhSeal (h payload : List Byte) : List Byte := h ++ natLe 4 (crc32c (h ++ payload)) ++ payload

/-- A request as a sender forms it. -/
def mhRequest (op : Nat) (sq : W32) (ctx : W64) (p : List Byte) : List Byte :=
  mhSeal (natLe 2 op ++ zeros 2 ++ natLe 4 sq.toNat ++ natLe 4 p.length ++ zeros 2 ++ [1] ++ zeros 1 ++ natLe 8 ctx.toNat ++
    zeros 4) p

/-- A reply (R467, R468). -/
def mhReply (op : Nat) (sq ctx st : Nat) (p : List Byte) : List Byte :=
  let p := if st = stOk then p else []
  mhSeal (natLe 2 op ++ natLe 2 1 ++ natLe 4 sq ++ natLe 4 p.length ++ natLe 2 st ++ [1] ++ zeros 1 ++ natLe 8 ctx ++ zeros 4) p

/-- The retry key (R470): the CRC with MH_CONTEXT zero. -/
def retryKey (h payload : List Byte) : Nat := crc32c (h.take 16 ++ zeros 8 ++ (h.drop 24).take 4 ++ payload)

/-- Reply bytes where the sender wrote to the buffer while it was BUSY hold either value (R465, R18). -/
def mixLate (i : Nat) (late : List (Nat × Byte)) (reply : List Byte) : List Byte :=
  (List.range reply.length).map (fun k =>
    match late.find? (fun x => x.1 == k) with
    | some x => if Config.freeBool (i * 4294967296 + k) then x.2 else reply.getD k 0
    | none => reply.getD k 0)

/-- A reply is written (R464, R449): into the buffer, then HUB_MBX_STATE, then the vector; on the MCTP channel as a message of
type 0x7E, whose vendor ID stands with its high byte first (PRESUMED, log 159). -/
def mbxReply (o : Otp) (d : Dev) (ch op sq ctx st : Nat) (p : List Byte) : Dev :=
  let bs := mhReply op sq ctx st p
  let m := mbxGet d ch
  let free := d.freeIdx
  let done : Mailbox → Mailbox := fun m =>
    { m with phase := if ch = 16 then 0 else 2, lastSeq := BitVec.ofNat 32 sq, lastStatus := BitVec.ofNat 16 st,
             buffer := putBytes (mbxBuf m) 0 (mixLate free m.late bs), busy := none, late := [] }
  let d := mbxMod d ch done
  let d := if m.late = [] then d else bump d
  if ch = 16 then
    { d with out := { d.out with smbus := d.out.smbus ++ [[0x7E] ++ natBe 2 o.vendorId.toNat ++ bs] } }
  else if m.vector = 0xFFFF then d else msixSend d (fnOf ch) m.vector.toNat

/-- The end of an executed request: its sequence number is consumed and its reply kept (R469, R470). -/
def mbxFinish (o : Otp) (d : Dev) (ch : Nat) (b : Busy) (st : Nat) (p : List Byte) : Dev :=
  let p := if st = stOk then p else []
  let keep : Mailbox → Mailbox := fun m =>
    { m with seqFree := false, execSeq := b.seq, kept := some ⟨b.opcode, b.len, b.key, st, p⟩ }
  mbxReply o (mbxMod d ch keep) ch b.opcode b.seq.toNat b.ctx.toNat st p

/-- In recovery, a slot that has been staged and verified becomes TRIAL, and the module resets (R528). -/
def recoveryAct (o : Otp) (d : Dev) (op st : Nat) : Dev :=
  if d.pow.phase = .recovery ∧ op = 0x0B00 ∧ st = stOk then
    let i := otherSlot d
    moduleReset o (slotSet d i { slotGet d i with state := 3, trial := 0 })
  else d

/-- Execute a request that has passed checks 1 to 6 (R469, R471). -/
def mbxExecute (o : Otp) (d : Dev) (ch : Nat) (b : Busy) : Dev :=
  match dzFind b.opcode with
  | none => d
  | some r =>
    if b.len ≠ r.len b.payload then mbxFinish o d ch b stMbxLen []
    else
      let x := r.run ch b.payload o d
      match x.wait with
      | some w =>
        let hold : Mailbox → Mailbox := fun m => { m with busy := some { b with wait := w, payload := [] } }
        mbxMod x.dev ch hold
      | none => recoveryAct o (mbxFinish o x.dev ch b x.status x.payload) b.opcode x.status

/-- A failure at checks 1 to 6: nothing is executed and no number consumed. -/
def mbxReject (o : Otp) (d : Dev) (ch op sq ctx st : Nat) : Dev := mbxReply o (pcAdd d (kMbx ch + 1) 1) ch op sq ctx st []

/-- A request of `op` with this length and key repeats the last executed one (R470). -/
def isRetry (m : Mailbox) (op sq len key : Nat) : Option Kept :=
  match m.kept with
  | some k => if !m.seqFree && sq == m.execSeq.toNat && op == k.opcode && len == k.len && key == k.key then some k else none
  | none => none

/-- Serve the request that stands in a channel's buffer: the mailbox becomes BUSY, and the checks of Table 17-5 follow in
order. -/
def mbxServe (o : Otp) (d : Dev) (ch : Nat) : Dev :=
  let busy : Mailbox → Mailbox := fun m => { m with phase := 1, late := [] }
  let d := pcAdd (mbxMod d ch busy) (kMbx ch) 1
  let m := mbxGet d ch
  let b := mbxBuf m
  let h := b.take 28
  let op := fld b 0 2
  let sq := fld b 4 4
  let len := fld b 8 4
  let ctx := fld b 16 8
  let p := (b.drop 32).take len
  let no := fun st => mbxReject o d ch op sq ctx st
  if 4000 < len then no stMbxLen
  else if fld b 28 4 ≠ crc32c (h ++ p) then no stMbxCrc
  else if fld b 14 1 ≠ 1 ∨ fld b 2 2 ≠ 0 ∨ fld b 12 2 ≠ 0 ∨ fld b 15 1 ≠ 0 ∨ fld b 24 4 ≠ 0 then no stMbxProto
  else match isRetry m op sq len (retryKey h p) with
    | some k => mbxReply o (pcAdd d (kMbx ch + 2) 1) ch op sq ctx k.status k.reply
    | none =>
      if !m.seqFree ∧ sq ≠ (m.execSeq.toNat + 1) % 2 ^ 32 then no stMbxSeq
      else if dzFind op = none then no stMbxOpcode
      else if !dzOpen d ch op p then no stMbxDenied
      else mbxExecute o d ch ⟨op, BitVec.ofNat 32 sq, BitVec.ofNat 64 ctx, len, retryKey h p, .guardHold, p⟩

/-! ### The registers -/

/-- MBX_RESET acts (Table 17-2). -/
def mbxClear (m : Mailbox) : Mailbox := { m with phase := 0, kept := none, seqFree := true }

/-- A write to HUB_MBX_CTL: the vector, and MBX_RESET and MBX_GO by the phase (Table 17-2, R464). -/
def mbxCtl (ch : Nat) (vector : H16) (reset go : Bool) (o : Otp) (d : Dev) : Dev :=
  let put : Mailbox → Mailbox := fun m => { m with vector := vector }
  let mark : Mailbox → Mailbox := fun m => { m with overrun := true }
  let d := mbxMod d ch put
  if (mbxGet d ch).phase = 0 ∨ (mbxGet d ch).phase = 2 then
    if reset then mbxMod d ch mbxClear else if go then mbxServe o d ch else d
  else if go then mbxMod d ch mark else d

/-- The channel of a function's mailbox page `mb` (R462). -/
def mbxChannel (fn mb : Nat) : Option Nat :=
  if fn = 0 then (if mb ≤ 8 then some mb else none) else if mb = 0 ∧ fn ≤ 7 then some (8 + fn) else none

/-- A write of HUB_MBX_CTL by a function. -/
def mbxCtlDev (fn mb : Nat) (vector : H16) (reset go : Bool) (o : Otp) (d : Dev) : Dev :=
  if !claimed d fn then d
  else match mbxChannel fn mb with
    | some ch => mbxCtl ch vector reset go o d
    | none => d

/-- An act in which the first `rr` reads of a record from memory that it reads fail their CRC (R412). -/
def withFails (rr : Nat) (f : Otp → Dev → Dev) (o : Otp) (d : Dev) : Dev :=
  if rr = 0 then f o d else { f o { d with readFails := rr } with readFails := 0 }

/-- MBX_GO: a write of HUB_MBX_CTL with MBX_GO, and MBX_RESET or not; `go.fails` for a message that reads a record from memory. -/
def execMbxGo (fn mb : Nat) (vector : H16) (go : GoWrite) (s : State) : Host.Outcome State Fault Refusal :=
  runDev (withFails go.fails (mbxCtlDev fn mb vector go.reset true)) s

/-- MBX_RESET: a write of HUB_MBX_CTL with MBX_RESET alone. -/
def execMbxReset (fn mb : Nat) (vector : H16) (s : State) : Host.Outcome State Fault Refusal :=
  runDev (mbxCtlDev fn mb vector true false) s

/-- A write to the message buffer at `off` (R465). -/
def mbxBufWrite (d : Dev) (ch off : Nat) (bs : List Byte) : Dev :=
  let late := (List.range bs.length).map (fun i => (off + i, bs.getD i 0))
  let put : Mailbox → Mailbox := fun m =>
    if m.phase = 1 then { m with late := late ++ m.late } else { m with buffer := putBytes (mbxBuf m) off bs }
  mbxMod d ch put

/-- A write to the MSI-X table (R449): address, data, and the mask bit of vector control. -/
def msixWrite (d : Dev) (fn off : Nat) (bs : List Byte) : Dev :=
  let n := off / 16
  if vectorCount fn ≤ n then d
  else
    let e := smGet msix0 d.host.msix (fn * 2048 + n)
    let old := natLe 8 e.addr.toNat ++ natLe 4 e.data.toNat ++ natLe 4 e.masked.toNat
    let new := putBytes old (off % 16) bs
    let e' : Msix := ⟨BitVec.ofNat 64 (fld new 0 8), BitVec.ofNat 32 (fld new 8 4), (fld new 12 4).testBit 0, e.pend⟩
    msixRelease { d with host := { d.host with msix := smSet msix0 d.host.msix (fn * 2048 + n) e' } } fn

/-- A write inside a mailbox page: HUB_MBX_CTL, HUB_MBX_STATE, or the buffer. -/
def mbxPageWrite (o : Otp) (d : Dev) (ch off width val : Nat) : Dev :=
  if off = 0 then mbxCtl ch (BitVec.ofNat 16 (val / 65536)) (val.testBit 1) (val.testBit 0) o d
  else if off = 8 then
    let clr : Mailbox → Mailbox := fun m => { m with overrun := m.overrun && !val.testBit 3 }
    mbxMod d ch clr
  else if 0x40 ≤ off then mbxBufWrite d ch (off - 0x40) (natLe width val)
  else d

/-- The access is naturally aligned and 4 or 8 bytes wide (R444). -/
def bar0Form (off width : Nat) : Bool := (width == 4 || width == 8) && isMul off width

/-- A host write to BAR0 (R15, R443, R444): dropped when it is narrow, misaligned or to a reserved or read-only place. -/
def registerWriteDev (fn off width val : Nat) (o : Otp) (d : Dev) : Dev :=
  if !claimed d fn || !bar0Form off width then d
  else if 0x10000 ≤ off ∧ off < 0x20000 then
    match mbxChannel fn ((off - 0x10000) / 4096) with
    | some ch => mbxPageWrite o d ch (off % 4096) width val
    | none => d
  else if off = 0x20000 ∧ width = 8 then doorbellDev fn (BitVec.ofNat 64 val) o d
  else if off = 0x20008 ∧ width = 8 then cqDoorbellDev fn (BitVec.ofNat 64 val) o d
  else if off = 0x50000 then
    if val.testBit 15 then { d with host := { d.host with refused := d.host.refused.filter (· != fn) } } else d
  else if 0x100000 ≤ off ∧ off < 0x100000 + 16 * vectorCount fn then msixWrite d fn (off - 0x100000) (natLe width val)
  else d

/-- The debug window of BAR0 (R445). -/
def inDebugWindow (fn off : Nat) : Bool := fn == 0 && decide (0x2000000 ≤ off) && decide (off < 0x4000000)

/-- The 8 bytes of BAR0 from `off` on, a multiple of 4, as a function reads them outside the debug window (Table 16-3). -/
def bar0Reg (o : Otp) (d : Dev) (fn off : Nat) : List Byte :=
  let part := fun (bs : List Byte) (base : Nat) => padTo 8 ((bs.drop (off - base)))
  if off < 0x1000 then part (capBlock o d fn) 0
  else if 0x10000 ≤ off ∧ off < 0x20000 then
    match mbxChannel fn ((off - 0x10000) / 4096) with
    | some ch =>
      let m := mbxGet d ch
      part (natLe 8 (m.vector.toNat <<< 16) ++ natLe 8 (mbxState m) ++ zeros 48 ++ mbxBuf m) (off / 4096 * 4096)
    | none => zeros 8
  else if 0x30000 ≤ off ∧ off < 0x32000 then
    match qGet d ((off - 0x30000) / 32) with
    | some v =>
      if v.owner = fn ∨ fn = 0 then
        part (natLe 8 (dqState v) ++ natLe 8 (dqCons v) ++ natLe 8 v.count.toNat) (off / 32 * 32)
      else zeros 8
    | none => zeros 8
  else if 0x40000 ≤ off ∧ off < 0x40020 ∧ fn = 0 then
    part (natLe 8 (intEngines o d 2) ++ natLe 8 (intUnits o d 2) ++ natLe 8 (intEngines o d 1) ++ natLe 8 (intUnits o d 1)) 0x40000
  else if 0x50000 ≤ off ∧ off < 0x50008 then part (natLe 8 (linkStatus d fn)) 0x50000
  else if 0x100000 ≤ off ∧ off < 0x100000 + 16 * vectorCount fn then
    let e := smGet msix0 d.host.msix (fn * 2048 + (off - 0x100000) / 16)
    part (natLe 8 e.addr.toNat ++ natLe 4 e.data.toNat ++ natLe 4 e.masked.toNat) (off / 16 * 16)
  else if 0x110000 ≤ off ∧ off < 0x110000 + vectorCount fn / 8 then
    part ((List.range (vectorCount fn / 8)).map (fun b =>
      BitVec.ofNat 8 (ofBits ((List.range 8).map (fun i => (smGet msix0 d.host.msix (fn * 2048 + 8 * b + i)).pend))))) 0x110000
  else zeros 8

/-- What a host read of BAR0 returns outside the debug window (R444). -/
def bar0Read (o : Otp) (d : Dev) (fn off width : Nat) : List Byte :=
  if bar0Form off width then (bar0Reg o d fn off).take width else zeros width

/-- An access to the debug window while the debug lock is engaged, or of a form that R444 does not allow: a read returns zero
and a write is dropped. -/
def debugWindowDev (fn off width : Nat) (wr : Option W64) (_o : Otp) (d : Dev) : Dev :=
  if !claimed d fn ∨ !inDebugWindow fn off then d
  else match wr with
    | some _ => d
    | none => hostPut d (.readDone fn (zeros width))

/-- An access that reaches the control range behind a released debug window (R445, R484, R534), whose contents the manual does
not lay down. -/
def reachesControl (d : Dev) (fn off width : Nat) : Bool :=
  claimed d fn && inDebugWindow fn off && bar0Form off width && !d.sec.locked

/-- DEBUG_WINDOW_ACCESS, a write of a value or a read. -/
def execDebugWindowAccess (fn off width : Nat) (wr : Option W64) (s : State) : Host.Outcome State Fault Refusal :=
  if reachesControl s.dev fn off width then .refused .controlRange else runDev (debugWindowDev fn off width wr) s

/-- REGISTER_WRITE. -/
def execRegisterWrite (fn off width val : Nat) (s : State) : Host.Outcome State Fault Refusal :=
  if reachesControl s.dev fn off width then .refused .controlRange else runDev (registerWriteDev fn off width val) s

/-! ### Deferred replies (R471, R473) -/

/-- The event that a reply waits for has occurred: its status and payload. -/
def deferDone (o : Otp) (d : Dev) : Defer → Option (Nat × List Byte)
  | .queueHalt q =>
    match qGet d q with
    | some v => if v.run = 3 then some (stOk, natLe 8 (dqState v)) else none
    | none => some (stQNone, [])
  | .memFlush n =>
    if flushDone d n then
      some (match objGet d n with
        | some ob => ob.flushSt
        | none => stMemNone, [])
    else none
  | .guardHold => if actQuiet o d then some (stOk, holdReply d) else none
  | .rrWindow cs =>
    if cs.all (fun c => !((List.range 8).any (fun f => (fnCommands d f).contains c))) then some (stOk, []) else none

/-- MAILBOX_DEFERRED_REPLY. -/
def deferredDev (ch : Nat) (o : Otp) (d : Dev) : Dev :=
  match (mbxGet d ch).busy with
  | none => d
  | some b =>
    match deferDone o d b.wait with
    | some x => mbxFinish o d ch b x.1 x.2
    | none => d

/-- MAILBOX_DEFERRED_REPLY. -/
def execMailboxDeferredReply (ch : Nat) (s : State) : Host.Outcome State Fault Refusal := runDev (deferredDev ch) s

/-- MBX_TIMEOUT (R473): the effects stand. -/
def mbxTimeoutDev (ch : Nat) (o : Otp) (d : Dev) : Dev :=
  match (mbxGet d ch).busy with
  | none => d
  | some b => mbxFinish o d ch b stMbxTimeout []

/-- MBX_TIMEOUT. -/
def execMbxTimeout (ch : Nat) (s : State) : Host.Outcome State Fault Refusal := runDev (mbxTimeoutDev ch) s

/-! ### The MCTP channel (R474) -/

/-- The endpoint answers: the firmware runs, or the boot ROM is in recovery. -/
def mctpServed (d : Dev) : Bool := fwRuns d || d.pow.phase == .recovery

/-- The answer to an MCTP control message. -/
def mctpAnswer (d : Dev) (iid cmd : Nat) (data : List Byte) : Dev :=
  { d with out := { d.out with smbus := d.out.smbus ++ [[0] ++ natLe 1 (iid % 32) ++ natLe 1 cmd ++ data] } }

/-- MCTP_SET_ENDPOINT_ID. -/
def mctpSetEidDev (iid : Nat) (eid : Byte) (_o : Otp) (d : Dev) : Dev :=
  if !mctpServed d then d
  else if eid = 0 ∨ eid = 0xFF then mctpAnswer d iid 1 [2]
  else mctpAnswer { d with eid := eid } iid 1 [0, 0, eid, 0]

/-- MCTP_SET_ENDPOINT_ID. -/
def execMctpSetEndpointId (iid : Nat) (eid : Byte) (s : State) : Host.Outcome State Fault Refusal :=
  runDev (mctpSetEidDev iid eid) s

/-- MCTP_GET_ENDPOINT_ID. -/
def mctpGetEidDev (iid : Nat) (_o : Otp) (d : Dev) : Dev := if mctpServed d then mctpAnswer d iid 2 [0, d.eid, 0, 0] else d

/-- MCTP_GET_ENDPOINT_ID. -/
def execMctpGetEndpointId (iid : Nat) (s : State) : Host.Outcome State Fault Refusal := runDev (mctpGetEidDev iid) s

/-- MCTP_GET_VERSION_SUPPORT: a type that the endpoint does not serve is answered with its completion code. -/
def mctpGetVersionDev (iid : Nat) (typ : Byte) (_o : Otp) (d : Dev) : Dev :=
  if !mctpServed d then d
  else if typ = 0xFF ∨ typ = 0 ∨ typ = 0x7E then
    let vs := Config.mctpVersions typ.toNat
    mctpAnswer d iid 4 ([0] ++ natLe 1 (vs.length / 4) ++ vs)
  else mctpAnswer d iid 4 [0x80]

/-- MCTP_GET_VERSION_SUPPORT. -/
def execMctpGetVersionSupport (iid : Nat) (typ : Byte) (s : State) : Host.Outcome State Fault Refusal :=
  runDev (mctpGetVersionDev iid typ) s

/-- MCTP_GET_MESSAGE_TYPE_SUPPORT: the vendor-defined type of Dreaz. -/
def mctpGetTypesDev (iid : Nat) (_o : Otp) (d : Dev) : Dev := if mctpServed d then mctpAnswer d iid 5 [0, 1, 0x7E] else d

/-- MCTP_GET_MESSAGE_TYPE_SUPPORT. -/
def execMctpGetMessageTypeSupport (iid : Nat) (s : State) : Host.Outcome State Fault Refusal := runDev (mctpGetTypesDev iid) s

/-- A whole request arrives on the MCTP channel: served, or dropped while another is (R474). -/
def mctpRequest (bs : List Byte) (o : Otp) (d : Dev) : Dev :=
  if !mctpServed d ∨ (mbxGet d 16).phase = 1 then d
  else
    let put : Mailbox → Mailbox := fun m => { m with buffer := padTo 4032 bs }
    mbxServe o (mbxMod d 16 put) 16

/-! ### The messages -/

/-- A sender writes a request with a well-formed header into its mailbox, in a phase that takes it, and sets MBX_GO with the
vector unchanged; channel 16 is the MCTP channel. In the other phases MBX_GO sets MBX_OVERRUN. -/
def dzSend (op ch : Nat) (sq : W32) (ctx : W64) (p : List Byte) (o : Otp) (d : Dev) : Dev :=
  let bs := mhRequest op sq ctx p
  if ch = 16 then mctpRequest bs o d
  else if 16 < ch ∨ !claimed d (fnOf ch) then d
  else
    let m := mbxGet d ch
    let d := if m.phase = 0 ∨ m.phase = 2 then mbxBufWrite d ch 0 bs else d
    mbxCtl ch m.vector false true o d

/-- DZ_CAP_READ (R478). -/
def execDzCapRead (ch : Nat) (sq : W32) (ctx : W64) (p : List Byte) (s : State) : Host.Outcome State Fault Refusal :=
  runDev (dzSend 0x0100 ch sq ctx p) s
/-- DZ_MBX_STATUS (R485). -/
def execDzMbxStatus (ch : Nat) (sq : W32) (ctx : W64) (p : List Byte) (s : State) : Host.Outcome State Fault Refusal :=
  runDev (dzSend 0x0101 ch sq ctx p) s
/-- DZ_CODE_LOAD (R114). -/
def execDzCodeLoad (ch : Nat) (sq : W32) (ctx : W64) (x : RecordRequest) (s : State) : Host.Outcome State Fault Refusal :=
  runDev (withFails x.fails (dzSend 0x0240 ch sq ctx x.payload)) s
/-- DZ_CODE_UNLOAD (R126). -/
def execDzCodeUnload (ch : Nat) (sq : W32) (ctx : W64) (p : List Byte) (s : State) : Host.Outcome State Fault Refusal :=
  runDev (dzSend 0x0241 ch sq ctx p) s
/-- DZ_CODE_QUERY (R126). -/
def execDzCodeQuery (ch : Nat) (sq : W32) (ctx : W64) (p : List Byte) (s : State) : Host.Outcome State Fault Refusal :=
  runDev (dzSend 0x0242 ch sq ctx p) s
/-- DZ_TALLY_READ (R126). -/
def execDzTallyRead (ch : Nat) (sq : W32) (ctx : W64) (p : List Byte) (s : State) : Host.Outcome State Fault Refusal :=
  runDev (dzSend 0x0243 ch sq ctx p) s
/-- DZ_TALLY_SET (R126). -/
def execDzTallySet (ch : Nat) (sq : W32) (ctx : W64) (p : List Byte) (s : State) : Host.Outcome State Fault Refusal :=
  runDev (dzSend 0x0244 ch sq ctx p) s
/-- DZ_BREAK_SET (R124). -/
def execDzBreakSet (ch : Nat) (sq : W32) (ctx : W64) (p : List Byte) (s : State) : Host.Outcome State Fault Refusal :=
  runDev (dzSend 0x0245 ch sq ctx p) s
/-- DZ_BREAK_QUERY (R126). -/
def execDzBreakQuery (ch : Nat) (sq : W32) (ctx : W64) (p : List Byte) (s : State) : Host.Outcome State Fault Refusal :=
  runDev (dzSend 0x0246 ch sq ctx p) s
/-- DZ_QUEUE_CREATE (R159). -/
def execDzQueueCreate (ch : Nat) (sq : W32) (ctx : W64) (p : List Byte) (s : State) : Host.Outcome State Fault Refusal :=
  runDev (dzSend 0x0200 ch sq ctx p) s
/-- DZ_QUEUE_DESTROY (R159). -/
def execDzQueueDestroy (ch : Nat) (sq : W32) (ctx : W64) (p : List Byte) (s : State) : Host.Outcome State Fault Refusal :=
  runDev (dzSend 0x0201 ch sq ctx p) s
/-- DZ_QUEUE_HALT (R154). -/
def execDzQueueHalt (ch : Nat) (sq : W32) (ctx : W64) (p : List Byte) (s : State) : Host.Outcome State Fault Refusal :=
  runDev (dzSend 0x0202 ch sq ctx p) s
/-- DZ_QUEUE_RESTART (R156). -/
def execDzQueueRestart (ch : Nat) (sq : W32) (ctx : W64) (p : List Byte) (s : State) : Host.Outcome State Fault Refusal :=
  runDev (dzSend 0x0203 ch sq ctx p) s
/-- DZ_QUEUE_QUERY (R159). -/
def execDzQueueQuery (ch : Nat) (sq : W32) (ctx : W64) (p : List Byte) (s : State) : Host.Outcome State Fault Refusal :=
  runDev (dzSend 0x0204 ch sq ctx p) s
/-- DZ_QUEUE_EXPECT (R159). -/
def execDzQueueExpect (ch : Nat) (sq : W32) (ctx : W64) (p : List Byte) (s : State) : Host.Outcome State Fault Refusal :=
  runDev (dzSend 0x0205 ch sq ctx p) s
/-- DZ_CAT_WRITE (R163). -/
def execDzCatWrite (ch : Nat) (sq : W32) (ctx : W64) (p : List Byte) (s : State) : Host.Outcome State Fault Refusal :=
  runDev (dzSend 0x0400 ch sq ctx p) s
/-- DZ_CAT_READ (R189). -/
def execDzCatRead (ch : Nat) (sq : W32) (ctx : W64) (p : List Byte) (s : State) : Host.Outcome State Fault Refusal :=
  runDev (dzSend 0x0401 ch sq ctx p) s
/-- DZ_CAT_CLEAR (R165). -/
def execDzCatClear (ch : Nat) (sq : W32) (ctx : W64) (p : List Byte) (s : State) : Host.Outcome State Fault Refusal :=
  runDev (dzSend 0x0402 ch sq ctx p) s
/-- DZ_CAT_QUERY (R189). -/
def execDzCatQuery (ch : Nat) (sq : W32) (ctx : W64) (p : List Byte) (s : State) : Host.Outcome State Fault Refusal :=
  runDev (dzSend 0x0403 ch sq ctx p) s
/-- DZ_CAT_ZERO_CLEAR (R171). -/
def execDzCatZeroClear (ch : Nat) (sq : W32) (ctx : W64) (p : List Byte) (s : State) : Host.Outcome State Fault Refusal :=
  runDev (dzSend 0x0404 ch sq ctx p) s
/-- DZ_HRD_REGION (R183). -/
def execDzHrdRegion (ch : Nat) (sq : W32) (ctx : W64) (p : List Byte) (s : State) : Host.Outcome State Fault Refusal :=
  runDev (dzSend 0x0405 ch sq ctx p) s
/-- DZ_HRD_READ (R189). -/
def execDzHrdRead (ch : Nat) (sq : W32) (ctx : W64) (p : List Byte) (s : State) : Host.Outcome State Fault Refusal :=
  runDev (dzSend 0x0406 ch sq ctx p) s
/-- DZ_HRD_CLEAR (R189). -/
def execDzHrdClear (ch : Nat) (sq : W32) (ctx : W64) (p : List Byte) (s : State) : Host.Outcome State Fault Refusal :=
  runDev (dzSend 0x0407 ch sq ctx p) s
/-- DZ_EMB_COUNTERS (R189). -/
def execDzEmbCounters (ch : Nat) (sq : W32) (ctx : W64) (p : List Byte) (s : State) : Host.Outcome State Fault Refusal :=
  runDev (dzSend 0x0408 ch sq ctx p) s
/-- DZ_COMB_AREA (R191). -/
def execDzCombArea (ch : Nat) (sq : W32) (ctx : W64) (p : List Byte) (s : State) : Host.Outcome State Fault Refusal :=
  runDev (dzSend 0x0250 ch sq ctx p) s
/-- DZ_COMB_QUERY (R223). -/
def execDzCombQuery (ch : Nat) (sq : W32) (ctx : W64) (p : List Byte) (s : State) : Host.Outcome State Fault Refusal :=
  runDev (dzSend 0x0251 ch sq ctx p) s
/-- DZ_PUB_AREA (R205). -/
def execDzPubArea (ch : Nat) (sq : W32) (ctx : W64) (p : List Byte) (s : State) : Host.Outcome State Fault Refusal :=
  runDev (dzSend 0x0520 ch sq ctx p) s
/-- DZ_PUB_MAP (R204). -/
def execDzPubMap (ch : Nat) (sq : W32) (ctx : W64) (p : List Byte) (s : State) : Host.Outcome State Fault Refusal :=
  runDev (dzSend 0x0521 ch sq ctx p) s
/-- DZ_PUB_QUERY (R223). -/
def execDzPubQuery (ch : Nat) (sq : W32) (ctx : W64) (p : List Byte) (s : State) : Host.Outcome State Fault Refusal :=
  runDev (dzSend 0x0522 ch sq ctx p) s
/-- DZ_MXE_FREEZE (R237). -/
def execDzMxeFreeze (ch : Nat) (sq : W32) (ctx : W64) (p : List Byte) (s : State) : Host.Outcome State Fault Refusal :=
  runDev (dzSend 0x0260 ch sq ctx p) s
/-- DZ_MXE_QUERY (R250). -/
def execDzMxeQuery (ch : Nat) (sq : W32) (ctx : W64) (p : List Byte) (s : State) : Host.Outcome State Fault Refusal :=
  runDev (dzSend 0x0261 ch sq ctx p) s
/-- DZ_VXE_MODE (R265). -/
def execDzVxeMode (ch : Nat) (sq : W32) (ctx : W64) (p : List Byte) (s : State) : Host.Outcome State Fault Refusal :=
  runDev (dzSend 0x0270 ch sq ctx p) s
/-- DZ_VXE_QUERY (R271). -/
def execDzVxeQuery (ch : Nat) (sq : W32) (ctx : W64) (p : List Byte) (s : State) : Host.Outcome State Fault Refusal :=
  runDev (dzSend 0x0271 ch sq ctx p) s
/-- DZ_PARAM_WRITE (R273). -/
def execDzParamWrite (ch : Nat) (sq : W32) (ctx : W64) (x : RecordRequest) (s : State) : Host.Outcome State Fault Refusal :=
  runDev (withFails x.fails (dzSend 0x0500 ch sq ctx x.payload)) s
/-- DZ_PARAM_READ (R295). -/
def execDzParamRead (ch : Nat) (sq : W32) (ctx : W64) (p : List Byte) (s : State) : Host.Outcome State Fault Refusal :=
  runDev (dzSend 0x0501 ch sq ctx p) s
/-- DZ_PARAM_CLEAR (R295). -/
def execDzParamClear (ch : Nat) (sq : W32) (ctx : W64) (p : List Byte) (s : State) : Host.Outcome State Fault Refusal :=
  runDev (dzSend 0x0502 ch sq ctx p) s
/-- DZ_SCHED_WRITE (R288). -/
def execDzSchedWrite (ch : Nat) (sq : W32) (ctx : W64) (p : List Byte) (s : State) : Host.Outcome State Fault Refusal :=
  runDev (dzSend 0x0503 ch sq ctx p) s
/-- DZ_SEED_SET (R290). -/
def execDzSeedSet (ch : Nat) (sq : W32) (ctx : W64) (p : List Byte) (s : State) : Host.Outcome State Fault Refusal :=
  runDev (dzSend 0x0504 ch sq ctx p) s
/-- DZ_VER_INIT (R274). -/
def execDzVerInit (ch : Nat) (sq : W32) (ctx : W64) (p : List Byte) (s : State) : Host.Outcome State Fault Refusal :=
  runDev (dzSend 0x0505 ch sq ctx p) s
/-- DZ_VER_CONFIG (R295). -/
def execDzVerConfig (ch : Nat) (sq : W32) (ctx : W64) (p : List Byte) (s : State) : Host.Outcome State Fault Refusal :=
  runDev (dzSend 0x0506 ch sq ctx p) s
/-- DZ_VER_QUERY (R564). -/
def execDzVerQuery (ch : Nat) (sq : W32) (ctx : W64) (p : List Byte) (s : State) : Host.Outcome State Fault Refusal :=
  runDev (dzSend 0x0507 ch sq ctx p) s
/-- DZ_DJ_AREA (R283). -/
def execDzDjArea (ch : Nat) (sq : W32) (ctx : W64) (p : List Byte) (s : State) : Host.Outcome State Fault Refusal :=
  runDev (dzSend 0x0508 ch sq ctx p) s
/-- DZ_GUARD_CONFIG (R322). -/
def execDzGuardConfig (ch : Nat) (sq : W32) (ctx : W64) (p : List Byte) (s : State) : Host.Outcome State Fault Refusal :=
  runDev (dzSend 0x0530 ch sq ctx p) s
/-- DZ_GUARD_QUERY (R322). -/
def execDzGuardQuery (ch : Nat) (sq : W32) (ctx : W64) (p : List Byte) (s : State) : Host.Outcome State Fault Refusal :=
  runDev (dzSend 0x0531 ch sq ctx p) s
/-- DZ_GUARD_HOLD (R307). -/
def execDzGuardHold (ch : Nat) (sq : W32) (ctx : W64) (p : List Byte) (s : State) : Host.Outcome State Fault Refusal :=
  runDev (dzSend 0x0532 ch sq ctx p) s
/-- DZ_GUARD_ABANDON (R305). -/
def execDzGuardAbandon (ch : Nat) (sq : W32) (ctx : W64) (p : List Byte) (s : State) : Host.Outcome State Fault Refusal :=
  runDev (dzSend 0x0533 ch sq ctx p) s
/-- DZ_EXPORT_DESC (R317). -/
def execDzExportDesc (ch : Nat) (sq : W32) (ctx : W64) (p : List Byte) (s : State) : Host.Outcome State Fault Refusal :=
  runDev (dzSend 0x0534 ch sq ctx p) s
/-- DZ_RR_ASSIGN (R310). -/
def execDzRrAssign (ch : Nat) (sq : W32) (ctx : W64) (p : List Byte) (s : State) : Host.Outcome State Fault Refusal :=
  runDev (dzSend 0x0540 ch sq ctx p) s
/-- DZ_RR_WINDOW (R311). -/
def execDzRrWindow (ch : Nat) (sq : W32) (ctx : W64) (p : List Byte) (s : State) : Host.Outcome State Fault Refusal :=
  runDev (dzSend 0x0541 ch sq ctx p) s
/-- DZ_RR_TABLES (R313). -/
def execDzRrTables (ch : Nat) (sq : W32) (ctx : W64) (p : List Byte) (s : State) : Host.Outcome State Fault Refusal :=
  runDev (dzSend 0x0542 ch sq ctx p) s
/-- DZ_RR_TALLY (R312). -/
def execDzRrTally (ch : Nat) (sq : W32) (ctx : W64) (p : List Byte) (s : State) : Host.Outcome State Fault Refusal :=
  runDev (dzSend 0x0543 ch sq ctx p) s
/-- DZ_RR_QUERY (R322). -/
def execDzRrQuery (ch : Nat) (sq : W32) (ctx : W64) (p : List Byte) (s : State) : Host.Outcome State Fault Refusal :=
  runDev (dzSend 0x0544 ch sq ctx p) s
/-- DZ_MEM_ALLOC (R336). -/
def execDzMemAlloc (ch : Nat) (sq : W32) (ctx : W64) (p : List Byte) (s : State) : Host.Outcome State Fault Refusal :=
  runDev (dzSend 0x0300 ch sq ctx p) s
/-- DZ_MEM_FREE (R339). -/
def execDzMemFree (ch : Nat) (sq : W32) (ctx : W64) (p : List Byte) (s : State) : Host.Outcome State Fault Refusal :=
  runDev (dzSend 0x0301 ch sq ctx p) s
/-- DZ_MEM_QUERY (R354). -/
def execDzMemQuery (ch : Nat) (sq : W32) (ctx : W64) (p : List Byte) (s : State) : Host.Outcome State Fault Refusal :=
  runDev (dzSend 0x0302 ch sq ctx p) s
/-- DZ_MEM_SLOTS (R354). -/
def execDzMemSlots (ch : Nat) (sq : W32) (ctx : W64) (p : List Byte) (s : State) : Host.Outcome State Fault Refusal :=
  runDev (dzSend 0x0303 ch sq ctx p) s
/-- DZ_MEM_FLUSH (R354). -/
def execDzMemFlush (ch : Nat) (sq : W32) (ctx : W64) (p : List Byte) (s : State) : Host.Outcome State Fault Refusal :=
  runDev (dzSend 0x0304 ch sq ctx p) s
/-- DZ_MEM_STATUS (R354). -/
def execDzMemStatus (ch : Nat) (sq : W32) (ctx : W64) (p : List Byte) (s : State) : Host.Outcome State Fault Refusal :=
  runDev (dzSend 0x0305 ch sq ctx p) s
/-- DZ_MEM_RESV (R348). -/
def execDzMemResv (ch : Nat) (sq : W32) (ctx : W64) (p : List Byte) (s : State) : Host.Outcome State Fault Refusal :=
  runDev (dzSend 0x0306 ch sq ctx p) s
/-- DZ_MEM_LINE (R330). -/
def execDzMemLine (ch : Nat) (sq : W32) (ctx : W64) (p : List Byte) (s : State) : Host.Outcome State Fault Refusal :=
  runDev (dzSend 0x0307 ch sq ctx p) s
/-- DZ_XFE_QUERY (R354). -/
def execDzXfeQuery (ch : Nat) (sq : W32) (ctx : W64) (p : List Byte) (s : State) : Host.Outcome State Fault Refusal :=
  runDev (dzSend 0x0308 ch sq ctx p) s
/-- DZ_RH_STATUS (R385). -/
def execDzRhStatus (ch : Nat) (sq : W32) (ctx : W64) (p : List Byte) (s : State) : Host.Outcome State Fault Refusal :=
  runDev (dzSend 0x0600 ch sq ctx p) s
/-- DZ_RH_PORT (R385). -/
def execDzRhPort (ch : Nat) (sq : W32) (ctx : W64) (p : List Byte) (s : State) : Host.Outcome State Fault Refusal :=
  runDev (dzSend 0x0601 ch sq ctx p) s
/-- DZ_RH_RING (R385). -/
def execDzRhRing (ch : Nat) (sq : W32) (ctx : W64) (p : List Byte) (s : State) : Host.Outcome State Fault Refusal :=
  runDev (dzSend 0x0602 ch sq ctx p) s
/-- DZ_RH_PORT_CTL (R385). -/
def execDzRhPortCtl (ch : Nat) (sq : W32) (ctx : W64) (p : List Byte) (s : State) : Host.Outcome State Fault Refusal :=
  runDev (dzSend 0x0603 ch sq ctx p) s
/-- DZ_COLL_GROUP (R386). -/
def execDzCollGroup (ch : Nat) (sq : W32) (ctx : W64) (p : List Byte) (s : State) : Host.Outcome State Fault Refusal :=
  runDev (dzSend 0x0610 ch sq ctx p) s
/-- DZ_COLL_AREA (R390). -/
def execDzCollArea (ch : Nat) (sq : W32) (ctx : W64) (p : List Byte) (s : State) : Host.Outcome State Fault Refusal :=
  runDev (dzSend 0x0611 ch sq ctx p) s
/-- DZ_COLL_MODE (R388). -/
def execDzCollMode (ch : Nat) (sq : W32) (ctx : W64) (p : List Byte) (s : State) : Host.Outcome State Fault Refusal :=
  runDev (dzSend 0x0612 ch sq ctx p) s
/-- DZ_COLL_QUERY (R410). -/
def execDzCollQuery (ch : Nat) (sq : W32) (ctx : W64) (p : List Byte) (s : State) : Host.Outcome State Fault Refusal :=
  runDev (dzSend 0x0613 ch sq ctx p) s
/-- DZ_INT_STATUS (R439). -/
def execDzIntStatus (ch : Nat) (sq : W32) (ctx : W64) (p : List Byte) (s : State) : Host.Outcome State Fault Refusal :=
  runDev (dzSend 0x0700 ch sq ctx p) s
/-- DZ_INT_CONFIG (R428). -/
def execDzIntConfig (ch : Nat) (sq : W32) (ctx : W64) (p : List Byte) (s : State) : Host.Outcome State Fault Refusal :=
  runDev (dzSend 0x0701 ch sq ctx p) s
/-- DZ_INT_UNIT (R439). -/
def execDzIntUnit (ch : Nat) (sq : W32) (ctx : W64) (p : List Byte) (s : State) : Host.Outcome State Fault Refusal :=
  runDev (dzSend 0x0702 ch sq ctx p) s
/-- DZ_LOG_DEST (R433). -/
def execDzLogDest (ch : Nat) (sq : W32) (ctx : W64) (p : List Byte) (s : State) : Host.Outcome State Fault Refusal :=
  runDev (dzSend 0x0703 ch sq ctx p) s
/-- DZ_LOG_READ (R435). -/
def execDzLogRead (ch : Nat) (sq : W32) (ctx : W64) (p : List Byte) (s : State) : Host.Outcome State Fault Refusal :=
  runDev (dzSend 0x0704 ch sq ctx p) s
/-- DZ_KAT_LOAD (R427). -/
def execDzKatLoad (ch : Nat) (sq : W32) (ctx : W64) (p : List Byte) (s : State) : Host.Outcome State Fault Refusal :=
  runDev (dzSend 0x0705 ch sq ctx p) s
/-- DZ_SPEC_AREA (R431). -/
def execDzSpecArea (ch : Nat) (sq : W32) (ctx : W64) (p : List Byte) (s : State) : Host.Outcome State Fault Refusal :=
  runDev (dzSend 0x0706 ch sq ctx p) s
/-- DZ_INT_INJECT (R439). -/
def execDzIntInject (ch : Nat) (sq : W32) (ctx : W64) (p : List Byte) (s : State) : Host.Outcome State Fault Refusal :=
  runDev (dzSend 0x0707 ch sq ctx p) s
/-- DZ_HOST_APERTURE (R446). -/
def execDzHostAperture (ch : Nat) (sq : W32) (ctx : W64) (p : List Byte) (s : State) : Host.Outcome State Fault Refusal :=
  runDev (dzSend 0x0310 ch sq ctx p) s
/-- DZ_HOST_STATUS (R461). -/
def execDzHostStatus (ch : Nat) (sq : W32) (ctx : W64) (p : List Byte) (s : State) : Host.Outcome State Fault Refusal :=
  runDev (dzSend 0x0311 ch sq ctx p) s
/-- DZ_FW_STAGE (R480). -/
def execDzFwStage (ch : Nat) (sq : W32) (ctx : W64) (p : List Byte) (s : State) : Host.Outcome State Fault Refusal :=
  runDev (dzSend 0x0B00 ch sq ctx p) s
/-- DZ_FW_ACTIVATE (R482). -/
def execDzFwActivate (ch : Nat) (sq : W32) (ctx : W64) (p : List Byte) (s : State) : Host.Outcome State Fault Refusal :=
  runDev (dzSend 0x0B01 ch sq ctx p) s
/-- DZ_FW_CONFIRM (R483). -/
def execDzFwConfirm (ch : Nat) (sq : W32) (ctx : W64) (p : List Byte) (s : State) : Host.Outcome State Fault Refusal :=
  runDev (dzSend 0x0B02 ch sq ctx p) s
/-- DZ_FW_QUERY (R485). -/
def execDzFwQuery (ch : Nat) (sq : W32) (ctx : W64) (p : List Byte) (s : State) : Host.Outcome State Fault Refusal :=
  runDev (dzSend 0x0B03 ch sq ctx p) s
/-- DZ_FW_REVERT (R482). -/
def execDzFwRevert (ch : Nat) (sq : W32) (ctx : W64) (p : List Byte) (s : State) : Host.Outcome State Fault Refusal :=
  runDev (dzSend 0x0B04 ch sq ctx p) s
/-- DZ_FW_OPEN (R480). -/
def execDzFwOpen (ch : Nat) (sq : W32) (ctx : W64) (p : List Byte) (s : State) : Host.Outcome State Fault Refusal :=
  runDev (dzSend 0x0B05 ch sq ctx p) s
/-- DZ_FW_CHUNK (R480). -/
def execDzFwChunk (ch : Nat) (sq : W32) (ctx : W64) (p : List Byte) (s : State) : Host.Outcome State Fault Refusal :=
  runDev (dzSend 0x0B06 ch sq ctx p) s
/-- DZ_DBG_WINDOW (R484). -/
def execDzDbgWindow (ch : Nat) (sq : W32) (ctx : W64) (p : List Byte) (s : State) : Host.Outcome State Fault Refusal :=
  runDev (dzSend 0x0B10 ch sq ctx p) s
/-- DZ_SX_FIX (R503). -/
def execDzSxFix (ch : Nat) (sq : W32) (ctx : W64) (p : List Byte) (s : State) : Host.Outcome State Fault Refusal :=
  runDev (dzSend 0x0800 ch sq ctx p) s
/-- DZ_SX_SUMMARY (R503). -/
def execDzSxSummary (ch : Nat) (sq : W32) (ctx : W64) (p : List Byte) (s : State) : Host.Outcome State Fault Refusal :=
  runDev (dzSend 0x0801 ch sq ctx p) s
/-- DZ_SX_POWER_CAP (R500). -/
def execDzSxPowerCap (ch : Nat) (sq : W32) (ctx : W64) (p : List Byte) (s : State) : Host.Outcome State Fault Refusal :=
  runDev (dzSend 0x0802 ch sq ctx p) s
/-- DZ_SX_CLOCK_CAP (R499). -/
def execDzSxClockCap (ch : Nat) (sq : W32) (ctx : W64) (p : List Byte) (s : State) : Host.Outcome State Fault Refusal :=
  runDev (dzSend 0x0803 ch sq ctx p) s
/-- DZ_SX_CAGE (R494). -/
def execDzSxCage (ch : Nat) (sq : W32) (ctx : W64) (p : List Byte) (s : State) : Host.Outcome State Fault Refusal :=
  runDev (dzSend 0x0804 ch sq ctx p) s
/-- DZ_ALMANAC_SET (R512). -/
def execDzAlmanacSet (ch : Nat) (sq : W32) (ctx : W64) (p : List Byte) (s : State) : Host.Outcome State Fault Refusal :=
  runDev (dzSend 0x0900 ch sq ctx p) s
/-- DZ_LEDGER_READ (R521). -/
def execDzLedgerRead (ch : Nat) (sq : W32) (ctx : W64) (p : List Byte) (s : State) : Host.Outcome State Fault Refusal :=
  runDev (dzSend 0x0901 ch sq ctx p) s
/-- DZ_LEDGER_EVENTS (R521). -/
def execDzLedgerEvents (ch : Nat) (sq : W32) (ctx : W64) (p : List Byte) (s : State) : Host.Outcome State Fault Refusal :=
  runDev (dzSend 0x0902 ch sq ctx p) s
/-- DZ_LEDGER_COMMIT (R516). -/
def execDzLedgerCommit (ch : Nat) (sq : W32) (ctx : W64) (p : List Byte) (s : State) : Host.Outcome State Fault Refusal :=
  runDev (dzSend 0x0903 ch sq ctx p) s
/-- DZ_PC_OVF_CLEAR (R506). -/
def execDzPcOvfClear (ch : Nat) (sq : W32) (ctx : W64) (p : List Byte) (s : State) : Host.Outcome State Fault Refusal :=
  runDev (dzSend 0x0904 ch sq ctx p) s
/-- DZ_SEC_MEAS (R543). -/
def execDzSecMeas (ch : Nat) (sq : W32) (ctx : W64) (p : List Byte) (s : State) : Host.Outcome State Fault Refusal :=
  runDev (dzSend 0x0A00 ch sq ctx p) s
/-- DZ_SEC_EXTEND (R529). -/
def execDzSecExtend (ch : Nat) (sq : W32) (ctx : W64) (p : List Byte) (s : State) : Host.Outcome State Fault Refusal :=
  runDev (dzSend 0x0A01 ch sq ctx p) s
/-- DZ_SEC_ATTEST (R532). -/
def execDzSecAttest (ch : Nat) (sq : W32) (ctx : W64) (p : List Byte) (s : State) : Host.Outcome State Fault Refusal :=
  runDev (dzSend 0x0A02 ch sq ctx p) s
/-- DZ_SEC_CERTS (R531). -/
def execDzSecCerts (ch : Nat) (sq : W32) (ctx : W64) (p : List Byte) (s : State) : Host.Outcome State Fault Refusal :=
  runDev (dzSend 0x0A03 ch sq ctx p) s
/-- DZ_SEC_CHALLENGE (R535). -/
def execDzSecChallenge (ch : Nat) (sq : W32) (ctx : W64) (p : List Byte) (s : State) : Host.Outcome State Fault Refusal :=
  runDev (dzSend 0x0A04 ch sq ctx p) s
/-- DZ_SEC_UNLOCK (R536). -/
def execDzSecUnlock (ch : Nat) (sq : W32) (ctx : W64) (p : List Byte) (s : State) : Host.Outcome State Fault Refusal :=
  runDev (dzSend 0x0A05 ch sq ctx p) s
/-- DZ_SEC_ZEROISE (R537). -/
def execDzSecZeroise (ch : Nat) (sq : W32) (ctx : W64) (p : List Byte) (s : State) : Host.Outcome State Fault Refusal :=
  runDev (dzSend 0x0A06 ch sq ctx p) s
/-- DZ_SEC_MANIFEST (R525). -/
def execDzSecManifest (ch : Nat) (sq : W32) (ctx : W64) (p : List Byte) (s : State) : Host.Outcome State Fault Refusal :=
  runDev (dzSend 0x0A07 ch sq ctx p) s
/-- DZ_SEC_SELFTEST (R539). -/
def execDzSecSelftest (ch : Nat) (sq : W32) (ctx : W64) (p : List Byte) (s : State) : Host.Outcome State Fault Refusal :=
  runDev (dzSend 0x0A08 ch sq ctx p) s

end Sys2Proof.Machine
end

