-- ==== Sys2Proof/Machine/Remote.lean ====
section
/-!
DEFINITION. Remote accesses (R367, R368, R371): what a target does with READ and WRITE, what an issuer does with the answers,
with refusals, with returned packets, and with requests that stay without an answer.
-/

namespace Sys2Proof.Machine

/-! ### The target -/

/-- The form of a READ or WRITE body (Table 13-7): the reserved bits are zero, the count is 1 to 1,024, and the payload has the
units that it needs. -/
def rwForm (p : Pkt) : Bool :=
  let n := fld p.body 8 2
  decide (fld p.body 0 8 < 2 ^ 44) && zeroAt p.body 10 2 && decide (1 ≤ n ∧ n ≤ 1024) &&
    p.len == (if p.kind = 0x01 then ceilDiv n 64 else 0)

/-- WRITE (R367): performed and acknowledged, or refused. -/
def writeDev (_o : Otp) (d : Dev) : Dev :=
  onPacket d 0x01 (fun d _ p =>
    let a := fld p.body 0 8
    let n := fld p.body 8 2
    if rwForm p && mapped d a n then sendNew (memWrite d a (p.payload.take n)) 0x02 p.src p.tag [] []
    else sendRefuse d p stAddrUnmapped)

/-- WRITE. -/
def execWrite (s : State) : Host.Outcome State Fault Refusal := runDev writeDev s

/-- READ (R367): answered or refused. -/
def readDev (_o : Otp) (d : Dev) : Dev :=
  onPacket d 0x03 (fun d _ p =>
    let a := fld p.body 0 8
    let n := fld p.body 8 2
    if rwForm p && mapped d a n then sendNew d 0x04 p.src p.tag [] (memRead d a n)
    else sendRefuse d p stAddrUnmapped)

/-- READ. -/
def execRead (s : State) : Host.Outcome State Fault Refusal := runDev readDev s

/-! ### The issuer -/

/-- The accesses of a list but the one with a tag. -/
def dropTag (l : List Remote) (t : Nat) : List Remote := l.filter (fun x => x.tag != t)

/-- Bytes that have come back, kept at their global addresses. -/
def rbPut (rb : RBuf) (a : Nat) (bs : List Byte) : RBuf := smSetList 0 rb a (bs.map (fun b => b.toNat + 1))

/-- A request is answered: it leaves its issuer's list, and bytes that it read are kept there. -/
def reqAnswered (d : Dev) (t : Nat) (r : Req) (bs : List Byte) : Dev :=
  let d := reqSet d t none
  match r.issuer with
  | .stream e =>
    stMod d e (fun v =>
      if v.remote.any (fun x => x.tag == t) then { v with remote := dropTag v.remote t, rbuf := rbPut v.rbuf r.off bs } else v)
  | .plan x =>
    planMod d x (fun p =>
      if p.remote.any (fun x => x.tag == t) then { p with remote := dropTag p.remote t, rbuf := rbPut p.rbuf r.off bs } else p)
  | .cmd q sq =>
    collSettle (runMod d q sq (fun v =>
      if v.remote.any (fun x => x.tag == t) then { v with remote := dropTag v.remote t, rbuf := rbPut v.rbuf r.off bs } else v)) q sq
  | .chan n => chMod d n (fun c => { c with sent := c.sent.filter (· != t) })
  | .flush i => flushSettle d i

/-- The answer to an outstanding request of kind `k`, from the module that it went to. -/
def onAnswer (d : Dev) (p : Pkt) (k : Nat) (f : Dev → Req → Dev) : Dev :=
  match reqGet d p.tag with
  | some r => if r.pkt.kind = k ∧ r.pkt.dst = p.src then f d r else d
  | none => d

/-- WRITE_ACK (R368). -/
def writeAckDev (_o : Otp) (d : Dev) : Dev := onPacket d 0x02 (fun d _ p => onAnswer d p 0x01 (fun d r => reqAnswered d p.tag r []))

/-- WRITE_ACK. -/
def execWriteAck (s : State) : Host.Outcome State Fault Refusal := runDev writeAckDev s

/-- READ_DATA (R367). -/
def readDataDev (_o : Otp) (d : Dev) : Dev :=
  onPacket d 0x04 (fun d _ p => onAnswer d p 0x03 (fun d r => reqAnswered d p.tag r (p.payload.take (fld r.pkt.body 8 2))))

/-- READ_DATA. -/
def execReadData (s : State) : Host.Outcome State Fault Refusal := runDev readDataDev s

/-- A stream waits for the answer with tag `t`: an access of one of its slots, or a row of its lookup. -/
def streamAwaits (v : Stream) (t : Nat) : Bool :=
  v.remote.any (fun x => x.tag == t) || (match v.look with
    | some l => l.tags.any (fun x => x.1 == t)
    | none => false)

/-- A stream's access fails with a status: the signals that waited for it are never sent (R110), and a stream that has not
faulted yet faults. -/
def streamFail (d : Dev) (e t st : Nat) : Dev :=
  match stGet d e with
  | none => d
  | some v =>
    if streamAwaits v t then
      let d := stSet d e { v with remote := dropTag v.remote t, sigs := v.sigs.filter (fun s => !s.tags.contains t) }
      if v.final.isNone then stFault d e st else d
    else d

/-- The pin that the start of a DC_RUN holds is let go once (R116). -/
def startUnpin (d : Dev) (q sq : Nat) (r : Running) : Dev :=
  match r.work with
  | [h, g] =>
    if r.cmd.op = 0x01 ∧ (stGet d r.engine).isNone then runMod (pinMod d h g (· - 1)) q sq (fun r => { r with work := [] }) else d
  | _ => d

/-- A command's access fails with a status: a command that has not failed yet fails, with its channel or the pin that its
start holds. -/
def commandFail (d : Dev) (q sq t st : Nat) : Dev :=
  match (qGet d q).bind (fun v => runGet v sq) with
  | none => d
  | some r =>
    if !r.remote.any (fun x => x.tag == t) then d
    else
      let d := runMod d q sq (fun r => { r with remote := dropTag r.remote t })
      if r.final.getD stOk ≠ stOk then d
      else
        let d := startUnpin d q sq r
        match d.chans.find? (fun c => match c.2 with
          | some c => c.queue == q && c.seq == sq
          | none => false) with
        | some c => chEnd d c.1 st
        | none => cmdFinal d q sq st 0

/-- A request fails with a status (R367). -/
def reqFail (d : Dev) (t : Nat) (r : Req) (st : Nat) : Dev :=
  let d := reqSet d t none
  match r.issuer with
  | .stream e => streamFail d e t st
  | .plan x =>
    match planGet d x with
    | some p => if p.remote.any (fun y => y.tag == t) then planFail d x st else d
    | none => d
  | .cmd q sq => commandFail d q sq t st
  | .chan n => chEnd d n st
  | .flush i =>
    let f : MemObj → MemObj := fun ob => { ob with flushSt := st }
    flushSettle { d with objs := smMod none d.objs i (fun x => x.map f) } i

/-- A packet of a collective that its sender sends again when its receiver refuses it (R394, R397). -/
def collKind (k : Nat) : Bool := k == 0x20 || k == 0x28 || k == 0x40 || k == 0x41

/-- REFUSE (R367, R394, R397). The two statuses of R394 and R397 bear on packets of a collective only. -/
def refuseDev (_o : Otp) (d : Dev) : Dev :=
  onPacket d 0x05 (fun d _ p =>
    match reqGet d p.tag with
    | none => d
    | some r =>
      let st := fld p.body 0 2
      if r.pkt.dst ≠ p.src then d
      else if st = stCollClosed ∨ st = stCollFull then
        (if collKind r.pkt.kind then reqSet d p.tag (some { r with waiting := true }) else d)
      else reqFail d p.tag r st)

/-- REFUSE. -/
def execRefuse (s : State) : Host.Outcome State Fault Refusal := runDev refuseDev s

/-- UNDELIVERABLE (R371, R398): sent again later, or failed. -/
def undeliverableDev (_o : Otp) (d : Dev) : Dev :=
  onPacket d 0x06 (fun d _ p =>
    match reqGet d p.tag with
    | none => d
    | some r =>
      let reason := fld p.body 1 1
      if r.pkt.kind ≠ fld p.body 0 1 then d
      else if r.pkt.kind = 0x20 then reqSet d p.tag (some { r with waiting := true })
      else if p.maybe then reqFail d p.tag r stRhLinkLost
      else if (reason = 1 ∨ reason = 4) ∧ r.resends < 4 then reqSet d p.tag (some { r with waiting := true })
      else reqFail d p.tag r stRhUnreach)

/-- UNDELIVERABLE. -/
def execUndeliverable (s : State) : Host.Outcome State Fault Refusal := runDev undeliverableDev s

/-- NOPATH_RESEND (R371), of the request with tag `t`; a channel counts its own (R399, R409). -/
def nopathResendDev (t : Nat) (_o : Otp) (d : Dev) : Dev :=
  match reqGet d t with
  | none => d
  | some r =>
    let again := { r with resends := r.resends + 1 }
    if !r.waiting then d
    else match r.issuer with
      | .chan n => chResend d n t again
      | _ => sendPkt (reqSet d t (some { again with waiting := false })) r.pkt

/-- NOPATH_RESEND. -/
def execNopathResend (t : Nat) (s : State) : Host.Outcome State Fault Refusal := runDev (nopathResendDev t) s

/-- RH_REQUEST_TIMEOUT (R367), of the request with tag `t`; an RS_CHUNK is sent again instead (R398), and nothing answers a
token of a barrier. -/
def requestTimeoutDev (t : Nat) (_o : Otp) (d : Dev) : Dev :=
  match reqGet d t with
  | none => d
  | some r => if r.pkt.kind = 0x20 ∨ r.pkt.kind = 0x40 ∨ r.pkt.kind = 0x41 then d else reqFail d t r stRhTimeout

/-- RH_REQUEST_TIMEOUT. -/
def execRhRequestTimeout (t : Nat) (s : State) : Host.Outcome State Fault Refusal := runDev (requestTimeoutDev t) s

end Sys2Proof.Machine
end

