-- ==== Sys2Proof/Machine/Dispatch.lean ====
section
/-! DEFINITION. The dispatch: one arm per command, one direct call of its meaning. -/
namespace Sys2Proof.Machine
def exec (i : Instr) (s : State) : Host.Outcome State Fault Refusal :=
  match i with
  | .powerOn failRail => Sys2Proof.Machine.execPowerOn failRail s
  | .inputPowerLoss => Sys2Proof.Machine.execInputPowerLoss s
  | .moduleReset => Sys2Proof.Machine.execModuleReset s
  | .moduleResetRelease straps romOk => Sys2Proof.Machine.execModuleResetRelease straps romOk s
  | .hostReady hbmStacks pkgs => Sys2Proof.Machine.execHostReady hbmStacks pkgs s
  | .sightingStart x => Sys2Proof.Machine.execSightingStart x s
  | .perstNAssert => Sys2Proof.Machine.execPerstNAssert s
  | .perstNDeassert => Sys2Proof.Machine.execPerstNDeassert s
  | .linkDlDown => Sys2Proof.Machine.execLinkDlDown s
  | .dlDownSelfReset => Sys2Proof.Machine.execDlDownSelfReset s
  | .hotReset => Sys2Proof.Machine.execHotReset s
  | .functionLevelReset fn => Sys2Proof.Machine.execFunctionLevelReset fn s
  | .d3hotToD0 => Sys2Proof.Machine.execD3hotToD0 s
  | .configurationRequest fn op => Sys2Proof.Machine.execConfigurationRequest fn op s
  | .unclaimedMemoryRequest fn => Sys2Proof.Machine.execUnclaimedMemoryRequest fn s
  | .registerWrite fn off width val => Sys2Proof.Machine.execRegisterWrite fn off width val s
  | .hubDqDoorbell fn val => Sys2Proof.Machine.execHubDqDoorbell fn val s
  | .hubDqCqDoorbell fn val => Sys2Proof.Machine.execHubDqCqDoorbell fn val s
  | .mbxGo fn mb vector go => Sys2Proof.Machine.execMbxGo fn mb vector go s
  | .mbxReset fn mb vector => Sys2Proof.Machine.execMbxReset fn mb vector s
  | .bar2Read fn off len => Sys2Proof.Machine.execBar2Read fn off len s
  | .bar2Write fn off data => Sys2Proof.Machine.execBar2Write fn off data s
  | .debugWindowAccess fn off width wr => Sys2Proof.Machine.execDebugWindowAccess fn off width wr s
  | .hostReadCompletion t n ok data => Sys2Proof.Machine.execHostReadCompletion t n ok data s
  | .hostReadTimeout t n => Sys2Proof.Machine.execHostReadTimeout t n s
  | .commandFetch q data => Sys2Proof.Machine.execCommandFetch q data s
  | .refetchBackoffExpiry q => Sys2Proof.Machine.execRefetchBackoffExpiry q s
  | .commandDispatch => Sys2Proof.Machine.execCommandDispatch s
  | .dqWaitLimitExpiry q => Sys2Proof.Machine.execDqWaitLimitExpiry q s
  | .commandDone q sq => Sys2Proof.Machine.execCommandDone q sq s
  | .dcNop q => Sys2Proof.Machine.execDcNop q s
  | .dcRun q rr => Sys2Proof.Machine.execDcRun q rr s
  | .dcCopy q rr => Sys2Proof.Machine.execDcCopy q rr s
  | .dcInline q => Sys2Proof.Machine.execDcInline q s
  | .dcStage q => Sys2Proof.Machine.execDcStage q s
  | .dcPlan q => Sys2Proof.Machine.execDcPlan q s
  | .lyCopy q rr => Sys2Proof.Machine.execLyCopy q rr s
  | .lyGather q rr => Sys2Proof.Machine.execLyGather q rr s
  | .lyScatter q rr => Sys2Proof.Machine.execLyScatter q rr s
  | .lyList q rr => Sys2Proof.Machine.execLyList q rr s
  | .lyFill q rr => Sys2Proof.Machine.execLyFill q rr s
  | .dcEmbBind q => Sys2Proof.Machine.execDcEmbBind q s
  | .dcHrdWrite q => Sys2Proof.Machine.execDcHrdWrite q s
  | .hrdInsertStage q => Sys2Proof.Machine.execHrdInsertStage q s
  | .dcCatSwitch q => Sys2Proof.Machine.execDcCatSwitch q s
  | .dcRouteRows x => Sys2Proof.Machine.execDcRouteRows x s
  | .dcNormSubmit q => Sys2Proof.Machine.execDcNormSubmit q s
  | .partialNormComplete q => Sys2Proof.Machine.execPartialNormComplete q s
  | .dcVerdictWait q => Sys2Proof.Machine.execDcVerdictWait q s
  | .verdictWaitExpiry q => Sys2Proof.Machine.execVerdictWaitExpiry q s
  | .vcCommit q => Sys2Proof.Machine.execVcCommit q s
  | .vcCommitAct q => Sys2Proof.Machine.execVcCommitAct q s
  | .vcCommitWaitExpiry q => Sys2Proof.Machine.execVcCommitWaitExpiry q s
  | .vcAcquire q => Sys2Proof.Machine.execVcAcquire q s
  | .vcAcquireResolve q => Sys2Proof.Machine.execVcAcquireResolve q s
  | .vcAcquireWaitExpiry q => Sys2Proof.Machine.execVcAcquireWaitExpiry q s
  | .vcRelease q => Sys2Proof.Machine.execVcRelease q s
  | .rscat x => Sys2Proof.Machine.execRscat x s
  | .agather x => Sys2Proof.Machine.execAgather x s
  | .alltoall x => Sys2Proof.Machine.execAlltoall x s
  | .barrier q => Sys2Proof.Machine.execBarrier q s
  | .collProgressLimit n => Sys2Proof.Machine.execCollProgressLimit n s
  | .dcKat q bad => Sys2Proof.Machine.execDcKat q bad s
  | .katDueRun u bad => Sys2Proof.Machine.execKatDueRun u bad s
  | .icacheDemandFill cls inst rr => Sys2Proof.Machine.execIcacheDemandFill cls inst rr s
  | .icachePrefetchFill cls inst rr => Sys2Proof.Machine.execIcachePrefetchFill cls inst rr s
  | .bundleIssue cls inst => Sys2Proof.Machine.execBundleIssue cls inst s
  | .bundleWaitMet cls inst => Sys2Proof.Machine.execBundleWaitMet cls inst s
  | .spWaitLimitExpiry cls inst => Sys2Proof.Machine.execSpWaitLimitExpiry cls inst s
  | .signalFire cls inst => Sys2Proof.Machine.execSignalFire cls inst s
  | .streamRetire cls inst => Sys2Proof.Machine.execStreamRetire cls inst s
  | .sLoop cls inst => Sys2Proof.Machine.execSLoop cls inst s
  | .sEnd cls inst => Sys2Proof.Machine.execSEnd cls inst s
  | .sSumm cls inst => Sys2Proof.Machine.execSSumm cls inst s
  | .sAdve cls inst => Sys2Proof.Machine.execSAdve cls inst s
  | .sChoose cls inst => Sys2Proof.Machine.execSChoose cls inst s
  | .syWait cls inst => Sys2Proof.Machine.execSyWait cls inst s
  | .sySignal cls inst => Sys2Proof.Machine.execSySignal cls inst s
  | .mxeScaleLoad inst => Sys2Proof.Machine.execMxeScaleLoad inst s
  | .mMma inst => Sys2Proof.Machine.execMMma inst s
  | .mDrain inst => Sys2Proof.Machine.execMDrain inst s
  | .mLimit inst => Sys2Proof.Machine.execMLimit inst s
  | .collatorTileCheck inst wrong flip => Sys2Proof.Machine.execCollatorTileCheck inst wrong flip s
  | .tileRecomputeComplete inst wrong2 wrong3 flip2 flip3 katFail => Sys2Proof.Machine.execTileRecomputeComplete inst wrong2 wrong3 flip2 flip3 katFail s
  | .vxeTileLoad inst mm => Sys2Proof.Machine.execVxeTileLoad inst mm s
  | .vxeFtabLoad inst => Sys2Proof.Machine.execVxeFtabLoad inst s
  | .vxeTileStore inst mm => Sys2Proof.Machine.execVxeTileStore inst mm s
  | .vAdd inst mm => Sys2Proof.Machine.execVAdd inst mm s
  | .vSub inst mm => Sys2Proof.Machine.execVSub inst mm s
  | .vMul inst mm => Sys2Proof.Machine.execVMul inst mm s
  | .vFma inst mm => Sys2Proof.Machine.execVFma inst mm s
  | .vDiv inst mm => Sys2Proof.Machine.execVDiv inst mm s
  | .vMax inst mm => Sys2Proof.Machine.execVMax inst mm s
  | .vMin inst mm => Sys2Proof.Machine.execVMin inst mm s
  | .vSqrt inst mm => Sys2Proof.Machine.execVSqrt inst mm s
  | .vAbs inst mm => Sys2Proof.Machine.execVAbs inst mm s
  | .vNeg inst mm => Sys2Proof.Machine.execVNeg inst mm s
  | .vCmp inst mm => Sys2Proof.Machine.execVCmp inst mm s
  | .vSel inst mm => Sys2Proof.Machine.execVSel inst mm s
  | .vAnd inst mm => Sys2Proof.Machine.execVAnd inst mm s
  | .vOr inst mm => Sys2Proof.Machine.execVOr inst mm s
  | .vCvt inst mm => Sys2Proof.Machine.execVCvt inst mm s
  | .vRsum inst mm => Sys2Proof.Machine.execVRsum inst mm s
  | .vRmax inst mm => Sys2Proof.Machine.execVRmax inst mm s
  | .vFn inst mm => Sys2Proof.Machine.execVFn inst mm s
  | .vFnd inst mm => Sys2Proof.Machine.execVFnd inst mm s
  | .vCompress inst mm => Sys2Proof.Machine.execVCompress inst mm s
  | .vExpand inst mm => Sys2Proof.Machine.execVExpand inst mm s
  | .vSumm inst mm => Sys2Proof.Machine.execVSumm inst mm s
  | .vSmov inst mm => Sys2Proof.Machine.execVSmov inst mm s
  | .eLookup inst => Sys2Proof.Machine.execELookup inst s
  | .eLookupRowsArrived inst mm => Sys2Proof.Machine.execELookupRowsArrived inst mm s
  | .eAccum inst mm => Sys2Proof.Machine.execEAccum inst mm s
  | .rowRead own => Sys2Proof.Machine.execRowRead own s
  | .rowGatePass => Sys2Proof.Machine.execRowGatePass s
  | .rowGateTimeout n => Sys2Proof.Machine.execRowGateTimeout n s
  | .rowData => Sys2Proof.Machine.execRowData s
  | .mrow => Sys2Proof.Machine.execMrow s
  | .mrowAck => Sys2Proof.Machine.execMrowAck s
  | .verdict => Sys2Proof.Machine.execVerdict s
  | .reservationGrant => Sys2Proof.Machine.execReservationGrant s
  | .pubEntryApply n entry recov bad lost => Sys2Proof.Machine.execPubEntryApply n entry recov bad lost s
  | .denseTileApply n recov bad lost => Sys2Proof.Machine.execDenseTileApply n recov bad lost s
  | .shardRead => Sys2Proof.Machine.execShardRead s
  | .shardReadResolve => Sys2Proof.Machine.execShardReadResolve s
  | .shardReadWaitExpiry n => Sys2Proof.Machine.execShardReadWaitExpiry n s
  | .shardData => Sys2Proof.Machine.execShardData s
  | .normUp => Sys2Proof.Machine.execNormUp s
  | .verdictReq => Sys2Proof.Machine.execVerdictReq s
  | .verdictRequestTimer => Sys2Proof.Machine.execVerdictRequestTimer s
  | .verdictLimitExpiry => Sys2Proof.Machine.execVerdictLimitExpiry s
  | .rsChunk => Sys2Proof.Machine.execRsChunk s
  | .rsAck => Sys2Proof.Machine.execRsAck s
  | .rsChunkAckTimeout t => Sys2Proof.Machine.execRsChunkAckTimeout t s
  | .collRefuseResend t => Sys2Proof.Machine.execCollRefuseResend t s
  | .a2aBlock => Sys2Proof.Machine.execA2aBlock s
  | .a2aAck => Sys2Proof.Machine.execA2aAck s
  | .barUp => Sys2Proof.Machine.execBarUp s
  | .barDown => Sys2Proof.Machine.execBarDown s
  | .packetArrival p t h payload => Sys2Proof.Machine.execPacketArrival p t h payload s
  | .write => Sys2Proof.Machine.execWrite s
  | .writeAck => Sys2Proof.Machine.execWriteAck s
  | .read => Sys2Proof.Machine.execRead s
  | .readData => Sys2Proof.Machine.execReadData s
  | .refuse => Sys2Proof.Machine.execRefuse s
  | .undeliverable => Sys2Proof.Machine.execUndeliverable s
  | .nopathResend t => Sys2Proof.Machine.execNopathResend t s
  | .rhRequestTimeout t => Sys2Proof.Machine.execRhRequestTimeout t s
  | .linkTagReceive p t => Sys2Proof.Machine.execLinkTagReceive p t s
  | .codewordUncorrectable p n cw => Sys2Proof.Machine.execCodewordUncorrectable p n cw s
  | .replayRequest p t => Sys2Proof.Machine.execReplayRequest p t s
  | .laneLossOfLock p lane => Sys2Proof.Machine.execLaneLossOfLock p lane s
  | .portLinkLoss p => Sys2Proof.Machine.execPortLinkLoss p s
  | .partnerSignalDetect p => Sys2Proof.Machine.execPartnerSignalDetect p s
  | .laneTrainingComplete p lanes rtt => Sys2Proof.Machine.execLaneTrainingComplete p lanes rtt s
  | .silentTimeout p => Sys2Proof.Machine.execSilentTimeout p s
  | .trainingTimeout p => Sys2Proof.Machine.execTrainingTimeout p s
  | .excludedRetry p => Sys2Proof.Machine.execExcludedRetry p s
  | .sight => Sys2Proof.Machine.execSight s
  | .hail => Sys2Proof.Machine.execHail s
  | .fix => Sys2Proof.Machine.execFix s
  | .chart => Sys2Proof.Machine.execChart s
  | .ppFill xfe rr => Sys2Proof.Machine.execPpFill xfe rr s
  | .ppClean xfe rr => Sys2Proof.Machine.execPpClean xfe rr s
  | .ppEvict xfe rr => Sys2Proof.Machine.execPpEvict xfe rr s
  | .ppDrop xfe rr => Sys2Proof.Machine.execPpDrop xfe rr s
  | .ppCopy xfe rr => Sys2Proof.Machine.execPpCopy xfe rr s
  | .ppWait xfe rr => Sys2Proof.Machine.execPpWait xfe rr s
  | .planWaitMet xfe => Sys2Proof.Machine.execPlanWaitMet xfe s
  | .planWaitLimitExpiry xfe => Sys2Proof.Machine.execPlanWaitLimitExpiry xfe s
  | .ppSignal xfe rr => Sys2Proof.Machine.execPpSignal xfe rr s
  | .scrubPass faults => Sys2Proof.Machine.execScrubPass faults s
  | .logbookSend => Sys2Proof.Machine.execLogbookSend s
  | .logbookRepeat => Sys2Proof.Machine.execLogbookRepeat s
  | .specimenFragmentSend => Sys2Proof.Machine.execSpecimenFragmentSend s
  | .icmpv6EchoRequest src dst ident sqn data => Sys2Proof.Machine.execIcmpv6EchoRequest src dst ident sqn data s
  | .neighborDiscovery src target => Sys2Proof.Machine.execNeighborDiscovery src target s
  | .mctpSetEndpointId iid eid => Sys2Proof.Machine.execMctpSetEndpointId iid eid s
  | .mctpGetEndpointId iid => Sys2Proof.Machine.execMctpGetEndpointId iid s
  | .mctpGetVersionSupport iid typ => Sys2Proof.Machine.execMctpGetVersionSupport iid typ s
  | .mctpGetMessageTypeSupport iid => Sys2Proof.Machine.execMctpGetMessageTypeSupport iid s
  | .mailboxDeferredReply ch => Sys2Proof.Machine.execMailboxDeferredReply ch s
  | .mbxTimeout ch => Sys2Proof.Machine.execMbxTimeout ch s
  | .dzCapRead ch sq ctx p => Sys2Proof.Machine.execDzCapRead ch sq ctx p s
  | .dzMbxStatus ch sq ctx p => Sys2Proof.Machine.execDzMbxStatus ch sq ctx p s
  | .dzCodeLoad ch sq ctx x => Sys2Proof.Machine.execDzCodeLoad ch sq ctx x s
  | .dzCodeUnload ch sq ctx p => Sys2Proof.Machine.execDzCodeUnload ch sq ctx p s
  | .dzCodeQuery ch sq ctx p => Sys2Proof.Machine.execDzCodeQuery ch sq ctx p s
  | .dzTallyRead ch sq ctx p => Sys2Proof.Machine.execDzTallyRead ch sq ctx p s
  | .dzTallySet ch sq ctx p => Sys2Proof.Machine.execDzTallySet ch sq ctx p s
  | .dzBreakSet ch sq ctx p => Sys2Proof.Machine.execDzBreakSet ch sq ctx p s
  | .dzBreakQuery ch sq ctx p => Sys2Proof.Machine.execDzBreakQuery ch sq ctx p s
  | .dzQueueCreate ch sq ctx p => Sys2Proof.Machine.execDzQueueCreate ch sq ctx p s
  | .dzQueueDestroy ch sq ctx p => Sys2Proof.Machine.execDzQueueDestroy ch sq ctx p s
  | .dzQueueHalt ch sq ctx p => Sys2Proof.Machine.execDzQueueHalt ch sq ctx p s
  | .dzQueueRestart ch sq ctx p => Sys2Proof.Machine.execDzQueueRestart ch sq ctx p s
  | .dzQueueQuery ch sq ctx p => Sys2Proof.Machine.execDzQueueQuery ch sq ctx p s
  | .dzQueueExpect ch sq ctx p => Sys2Proof.Machine.execDzQueueExpect ch sq ctx p s
  | .dzCatWrite ch sq ctx p => Sys2Proof.Machine.execDzCatWrite ch sq ctx p s
  | .dzCatRead ch sq ctx p => Sys2Proof.Machine.execDzCatRead ch sq ctx p s
  | .dzCatClear ch sq ctx p => Sys2Proof.Machine.execDzCatClear ch sq ctx p s
  | .dzCatQuery ch sq ctx p => Sys2Proof.Machine.execDzCatQuery ch sq ctx p s
  | .dzCatZeroClear ch sq ctx p => Sys2Proof.Machine.execDzCatZeroClear ch sq ctx p s
  | .dzHrdRegion ch sq ctx p => Sys2Proof.Machine.execDzHrdRegion ch sq ctx p s
  | .dzHrdRead ch sq ctx p => Sys2Proof.Machine.execDzHrdRead ch sq ctx p s
  | .dzHrdClear ch sq ctx p => Sys2Proof.Machine.execDzHrdClear ch sq ctx p s
  | .dzEmbCounters ch sq ctx p => Sys2Proof.Machine.execDzEmbCounters ch sq ctx p s
  | .dzCombArea ch sq ctx p => Sys2Proof.Machine.execDzCombArea ch sq ctx p s
  | .dzCombQuery ch sq ctx p => Sys2Proof.Machine.execDzCombQuery ch sq ctx p s
  | .dzPubArea ch sq ctx p => Sys2Proof.Machine.execDzPubArea ch sq ctx p s
  | .dzPubMap ch sq ctx p => Sys2Proof.Machine.execDzPubMap ch sq ctx p s
  | .dzPubQuery ch sq ctx p => Sys2Proof.Machine.execDzPubQuery ch sq ctx p s
  | .dzMxeFreeze ch sq ctx p => Sys2Proof.Machine.execDzMxeFreeze ch sq ctx p s
  | .dzMxeQuery ch sq ctx p => Sys2Proof.Machine.execDzMxeQuery ch sq ctx p s
  | .dzVxeMode ch sq ctx p => Sys2Proof.Machine.execDzVxeMode ch sq ctx p s
  | .dzVxeQuery ch sq ctx p => Sys2Proof.Machine.execDzVxeQuery ch sq ctx p s
  | .dzParamWrite ch sq ctx x => Sys2Proof.Machine.execDzParamWrite ch sq ctx x s
  | .dzParamRead ch sq ctx p => Sys2Proof.Machine.execDzParamRead ch sq ctx p s
  | .dzParamClear ch sq ctx p => Sys2Proof.Machine.execDzParamClear ch sq ctx p s
  | .dzSchedWrite ch sq ctx p => Sys2Proof.Machine.execDzSchedWrite ch sq ctx p s
  | .dzSeedSet ch sq ctx p => Sys2Proof.Machine.execDzSeedSet ch sq ctx p s
  | .dzVerInit ch sq ctx p => Sys2Proof.Machine.execDzVerInit ch sq ctx p s
  | .dzVerConfig ch sq ctx p => Sys2Proof.Machine.execDzVerConfig ch sq ctx p s
  | .dzVerQuery ch sq ctx p => Sys2Proof.Machine.execDzVerQuery ch sq ctx p s
  | .dzDjArea ch sq ctx p => Sys2Proof.Machine.execDzDjArea ch sq ctx p s
  | .dzGuardConfig ch sq ctx p => Sys2Proof.Machine.execDzGuardConfig ch sq ctx p s
  | .dzGuardQuery ch sq ctx p => Sys2Proof.Machine.execDzGuardQuery ch sq ctx p s
  | .dzGuardHold ch sq ctx p => Sys2Proof.Machine.execDzGuardHold ch sq ctx p s
  | .dzGuardAbandon ch sq ctx p => Sys2Proof.Machine.execDzGuardAbandon ch sq ctx p s
  | .dzExportDesc ch sq ctx p => Sys2Proof.Machine.execDzExportDesc ch sq ctx p s
  | .dzRrAssign ch sq ctx p => Sys2Proof.Machine.execDzRrAssign ch sq ctx p s
  | .dzRrWindow ch sq ctx p => Sys2Proof.Machine.execDzRrWindow ch sq ctx p s
  | .dzRrTables ch sq ctx p => Sys2Proof.Machine.execDzRrTables ch sq ctx p s
  | .dzRrTally ch sq ctx p => Sys2Proof.Machine.execDzRrTally ch sq ctx p s
  | .dzRrQuery ch sq ctx p => Sys2Proof.Machine.execDzRrQuery ch sq ctx p s
  | .dzMemAlloc ch sq ctx p => Sys2Proof.Machine.execDzMemAlloc ch sq ctx p s
  | .dzMemFree ch sq ctx p => Sys2Proof.Machine.execDzMemFree ch sq ctx p s
  | .dzMemQuery ch sq ctx p => Sys2Proof.Machine.execDzMemQuery ch sq ctx p s
  | .dzMemSlots ch sq ctx p => Sys2Proof.Machine.execDzMemSlots ch sq ctx p s
  | .dzMemFlush ch sq ctx p => Sys2Proof.Machine.execDzMemFlush ch sq ctx p s
  | .dzMemStatus ch sq ctx p => Sys2Proof.Machine.execDzMemStatus ch sq ctx p s
  | .dzMemResv ch sq ctx p => Sys2Proof.Machine.execDzMemResv ch sq ctx p s
  | .dzMemLine ch sq ctx p => Sys2Proof.Machine.execDzMemLine ch sq ctx p s
  | .dzXfeQuery ch sq ctx p => Sys2Proof.Machine.execDzXfeQuery ch sq ctx p s
  | .dzRhStatus ch sq ctx p => Sys2Proof.Machine.execDzRhStatus ch sq ctx p s
  | .dzRhPort ch sq ctx p => Sys2Proof.Machine.execDzRhPort ch sq ctx p s
  | .dzRhRing ch sq ctx p => Sys2Proof.Machine.execDzRhRing ch sq ctx p s
  | .dzRhPortCtl ch sq ctx p => Sys2Proof.Machine.execDzRhPortCtl ch sq ctx p s
  | .dzCollGroup ch sq ctx p => Sys2Proof.Machine.execDzCollGroup ch sq ctx p s
  | .dzCollArea ch sq ctx p => Sys2Proof.Machine.execDzCollArea ch sq ctx p s
  | .dzCollMode ch sq ctx p => Sys2Proof.Machine.execDzCollMode ch sq ctx p s
  | .dzCollQuery ch sq ctx p => Sys2Proof.Machine.execDzCollQuery ch sq ctx p s
  | .dzIntStatus ch sq ctx p => Sys2Proof.Machine.execDzIntStatus ch sq ctx p s
  | .dzIntConfig ch sq ctx p => Sys2Proof.Machine.execDzIntConfig ch sq ctx p s
  | .dzIntUnit ch sq ctx p => Sys2Proof.Machine.execDzIntUnit ch sq ctx p s
  | .dzLogDest ch sq ctx p => Sys2Proof.Machine.execDzLogDest ch sq ctx p s
  | .dzLogRead ch sq ctx p => Sys2Proof.Machine.execDzLogRead ch sq ctx p s
  | .dzKatLoad ch sq ctx p => Sys2Proof.Machine.execDzKatLoad ch sq ctx p s
  | .dzSpecArea ch sq ctx p => Sys2Proof.Machine.execDzSpecArea ch sq ctx p s
  | .dzIntInject ch sq ctx p => Sys2Proof.Machine.execDzIntInject ch sq ctx p s
  | .dzHostAperture ch sq ctx p => Sys2Proof.Machine.execDzHostAperture ch sq ctx p s
  | .dzHostStatus ch sq ctx p => Sys2Proof.Machine.execDzHostStatus ch sq ctx p s
  | .dzFwStage ch sq ctx p => Sys2Proof.Machine.execDzFwStage ch sq ctx p s
  | .dzFwActivate ch sq ctx p => Sys2Proof.Machine.execDzFwActivate ch sq ctx p s
  | .fwActivateReset => Sys2Proof.Machine.execFwActivateReset s
  | .dzFwConfirm ch sq ctx p => Sys2Proof.Machine.execDzFwConfirm ch sq ctx p s
  | .dzFwQuery ch sq ctx p => Sys2Proof.Machine.execDzFwQuery ch sq ctx p s
  | .dzFwRevert ch sq ctx p => Sys2Proof.Machine.execDzFwRevert ch sq ctx p s
  | .dzFwOpen ch sq ctx p => Sys2Proof.Machine.execDzFwOpen ch sq ctx p s
  | .dzFwChunk ch sq ctx p => Sys2Proof.Machine.execDzFwChunk ch sq ctx p s
  | .dzDbgWindow ch sq ctx p => Sys2Proof.Machine.execDzDbgWindow ch sq ctx p s
  | .dzSxFix ch sq ctx p => Sys2Proof.Machine.execDzSxFix ch sq ctx p s
  | .dzSxSummary ch sq ctx p => Sys2Proof.Machine.execDzSxSummary ch sq ctx p s
  | .dzSxPowerCap ch sq ctx p => Sys2Proof.Machine.execDzSxPowerCap ch sq ctx p s
  | .dzSxClockCap ch sq ctx p => Sys2Proof.Machine.execDzSxClockCap ch sq ctx p s
  | .dzSxCage ch sq ctx p => Sys2Proof.Machine.execDzSxCage ch sq ctx p s
  | .dzAlmanacSet ch sq ctx p => Sys2Proof.Machine.execDzAlmanacSet ch sq ctx p s
  | .dzLedgerRead ch sq ctx p => Sys2Proof.Machine.execDzLedgerRead ch sq ctx p s
  | .dzLedgerEvents ch sq ctx p => Sys2Proof.Machine.execDzLedgerEvents ch sq ctx p s
  | .dzLedgerCommit ch sq ctx p => Sys2Proof.Machine.execDzLedgerCommit ch sq ctx p s
  | .dzPcOvfClear ch sq ctx p => Sys2Proof.Machine.execDzPcOvfClear ch sq ctx p s
  | .dzSecMeas ch sq ctx p => Sys2Proof.Machine.execDzSecMeas ch sq ctx p s
  | .dzSecExtend ch sq ctx p => Sys2Proof.Machine.execDzSecExtend ch sq ctx p s
  | .dzSecAttest ch sq ctx p => Sys2Proof.Machine.execDzSecAttest ch sq ctx p s
  | .dzSecCerts ch sq ctx p => Sys2Proof.Machine.execDzSecCerts ch sq ctx p s
  | .dzSecChallenge ch sq ctx p => Sys2Proof.Machine.execDzSecChallenge ch sq ctx p s
  | .dzSecUnlock ch sq ctx p => Sys2Proof.Machine.execDzSecUnlock ch sq ctx p s
  | .dzSecZeroise ch sq ctx p => Sys2Proof.Machine.execDzSecZeroise ch sq ctx p s
  | .dzSecManifest ch sq ctx p => Sys2Proof.Machine.execDzSecManifest ch sq ctx p s
  | .dzSecSelftest ch sq ctx p => Sys2Proof.Machine.execDzSecSelftest ch sq ctx p s
  | .railFix r uV mA => Sys2Proof.Machine.execRailFix r uV mA s
  | .shutdownRailsOff => Sys2Proof.Machine.execShutdownRailsOff s
  | .tempFix temps => Sys2Proof.Machine.execTempFix temps s
  | .cageFix c mA => Sys2Proof.Machine.execCageFix c mA s
  | .plugPresentChange c here classMw media => Sys2Proof.Machine.execPlugPresentChange c here classMw media s
  | .plugReadyCheck c mA => Sys2Proof.Machine.execPlugReadyCheck c mA s
  | .controlLoopPeriod => Sys2Proof.Machine.execControlLoopPeriod s
  | .ledgerCommitTimer => Sys2Proof.Machine.execLedgerCommitTimer s
  | .linkDlUp rate width flit rootRate rootWidth rootFlit => Sys2Proof.Machine.execLinkDlUp rate width flit rootRate rootWidth rootFlit s
  | .codewordCorrected p n syms => Sys2Proof.Machine.execCodewordCorrected p n syms s
  | .managementLinkUp => Sys2Proof.Machine.execManagementLinkUp s
end Sys2Proof.Machine
end

