-- ==== Sys2Proof/Safety.lean ====
section
/-! DEFINITION. What the statements about every step say of a state: the canonical form of the device memory and the
fuses that no step gives back. -/
namespace Sys2Proof.Machine

/-- The canonical form of the device memory. -/
def State.memOk (s : State) : Prop := Memory.wf s.dev.mem = true

/-- `o'` may follow `o`: the kill fuse stays blown, the words programmed into the three anti-rollback arrays stay, in
their order, and every cell that is programmed in manufacture only keeps its value. -/
def Otp.Extends (o o' : Otp) : Prop :=
  (o.kill = true → o'.kill = true) ∧ o.arb0 <+: o'.arb0 ∧ o.arb1 <+: o'.arb1 ∧ o.arb2 <+: o'.arb2 ∧
    { o' with kill := o.kill, arb0 := o.arb0, arb1 := o.arb1, arb2 := o.arb2 } = o

/-- The anti-rollback arrays hold no more words than they have: 128 for counter 0, 32 for counters 1 and 2. -/
def Otp.Fits (o : Otp) : Prop := o.arb0.length ≤ 128 ∧ o.arb1.length ≤ 32 ∧ o.arb2.length ≤ 32

/-- No flip that DZ_INT_INJECT has set stands in entry `i` of array `a`. -/
def Unharmed (d : Dev) (a i : Nat) : Prop :=
  d.int.injects.find? (fun x => (x.kind == 1 || x.kind == 2) && x.unit == a && x.index == i) = none

/-- A step that answers a next state. -/
def Steps (s s' : State) : Prop := step s = .next s'

/-- No command may stop the block but an access of the released debug window to the control range. -/
def GoesOn (i : Instr) : Prop :=
  match i with
  | .debugWindowAccess _ _ _ _ => False
  | .registerWrite _ _ _ _ => False
  | _ => True

/-- Engine `e` runs stream `v`, `sl` is the next slot of its bundle with `rest` after it, and nothing is awaited: no wait,
no fill, no tile at a Collator, no lookup, no read of another module; and the engine is usable (R104, R425). -/
def Fronts (o : Otp) (d : Dev) (e : Nat) (v : Stream) (sl : Slot) (rest : List Slot) : Prop :=
  stGet d e = some v ∧ v.slots = sl :: rest ∧ v.final = none ∧ v.waits = [] ∧ v.missing = none ∧ v.tile = none ∧
    v.look = none ∧ v.remote.any (·.isRead) = false ∧ usable o d (e / 32) (e % 32) = true

/-- Command `r` of queue `q`, whose descriptor is `v`, is the first that satisfies `p`, is not done with its work and waits
for no byte of another module. -/
def Awaits (d : Dev) (q : Nat) (v : Queue) (r : Running) (p : Running → Bool) : Prop :=
  qGet d q = some v ∧ v.running.find? (fun r => p r && r.final.isNone && r.remote == []) = some r

/-- Queue `q` is the next to be served, and the wait of its next command `c`, of opcode `op`, is met. Once dispatched, on the
device `d'`, the command is `r` of the queue, whose descriptor is then `v` (R149, R151). -/
def Dispatches (d : Dev) (q op : Nat) (c : Cmd) (d' : Dev) (v : Queue) (r : Running) : Prop :=
  nextQueue d = some q ∧ ∃ u rest, qGet d q = some u ∧ u.parsed = c :: rest ∧ c.op = op ∧ cmdWait d u c = 1 ∧
    d' = dispatchHead d q u c rest ∧ fresh d' q (· == op) = some (v, r)

/-- The transfer engine `x` runs plan `p` and stands before entry `e`, which passes its CRC and every check (R347); the directory
that it names is sound (R413), and no entry in progress on another engine acts on its slots (R346). -/
def AtEntry (d : Dev) (x : Nat) (p : Plan) (e : List Byte) : Prop :=
  planGet d x = some p ∧ p.phase = 0 ∧ e = memRead d (localOf p.list + 32 * p.next) 32 ∧ sealOk 32 e = true ∧
    entryOk p e = true ∧ entryObj d e = stOk ∧ (5 < fld e 0 1 ∨ entryWindow d (planFn d p) e = true) ∧
    dirUse d (fld e 2 2) = d ∧ slotsBusy d x e = false

/-- `d'` differs from `d` in work that was in progress, in what that work reached (memory, side-bands, objects, packets, counters)
and in what the host has set (Reading Rooms, mailboxes, host interface) at most: everything else of R457 is kept. -/
def HostKept (d d' : Dev) : Prop :=
  ∃ mem side objs regions streams bindsInUse rowReqs fab pcs handles icache plans queues chans shardReqs freeIdx rrAssign
    rrWindows rrTables rrTallies host mbox,
    d' = { d with mem := mem, side := side, objs := objs, regions := regions, streams := streams, bindsInUse := bindsInUse,
                  rowReqs := rowReqs, fab := fab, pcs := pcs, handles := handles, icache := icache, plans := plans,
                  queues := queues, chans := chans, shardReqs := shardReqs, freeIdx := freeIdx, rrAssign := rrAssign,
                  rrWindows := rrWindows, rrTables := rrTables, rrTallies := rrTallies, host := host, mbox := mbox }

/-- A mailbox request as it is sent: the opcode, the channel, the sequence number, the context and the payload. -/
structure Request where
  op : Nat
  ch : Nat
  seq : W32
  ctx : W64
  payload : List Byte
  deriving DecidableEq, Repr

/-- How many reads of a record from memory fail their CRC first while the command's request is served (R412). -/
def sentFails (i : Instr) : Nat :=
  match i with
  | .dzCodeLoad _ _ _ x => x.fails
  | .dzParamWrite _ _ _ x => x.fails
  | _ => 0

/-- The mailbox request that a command sends, with the opcode of Table 17-11. -/
def sentRequest (i : Instr) : Option Request :=
  match i with
  | .dzCapRead ch sq ctx p => some ⟨0x0100, ch, sq, ctx, p⟩
  | .dzMbxStatus ch sq ctx p => some ⟨0x0101, ch, sq, ctx, p⟩
  | .dzCodeLoad ch sq ctx x => some ⟨0x0240, ch, sq, ctx, x.payload⟩
  | .dzCodeUnload ch sq ctx p => some ⟨0x0241, ch, sq, ctx, p⟩
  | .dzCodeQuery ch sq ctx p => some ⟨0x0242, ch, sq, ctx, p⟩
  | .dzTallyRead ch sq ctx p => some ⟨0x0243, ch, sq, ctx, p⟩
  | .dzTallySet ch sq ctx p => some ⟨0x0244, ch, sq, ctx, p⟩
  | .dzBreakSet ch sq ctx p => some ⟨0x0245, ch, sq, ctx, p⟩
  | .dzBreakQuery ch sq ctx p => some ⟨0x0246, ch, sq, ctx, p⟩
  | .dzQueueCreate ch sq ctx p => some ⟨0x0200, ch, sq, ctx, p⟩
  | .dzQueueDestroy ch sq ctx p => some ⟨0x0201, ch, sq, ctx, p⟩
  | .dzQueueHalt ch sq ctx p => some ⟨0x0202, ch, sq, ctx, p⟩
  | .dzQueueRestart ch sq ctx p => some ⟨0x0203, ch, sq, ctx, p⟩
  | .dzQueueQuery ch sq ctx p => some ⟨0x0204, ch, sq, ctx, p⟩
  | .dzQueueExpect ch sq ctx p => some ⟨0x0205, ch, sq, ctx, p⟩
  | .dzCatWrite ch sq ctx p => some ⟨0x0400, ch, sq, ctx, p⟩
  | .dzCatRead ch sq ctx p => some ⟨0x0401, ch, sq, ctx, p⟩
  | .dzCatClear ch sq ctx p => some ⟨0x0402, ch, sq, ctx, p⟩
  | .dzCatQuery ch sq ctx p => some ⟨0x0403, ch, sq, ctx, p⟩
  | .dzCatZeroClear ch sq ctx p => some ⟨0x0404, ch, sq, ctx, p⟩
  | .dzHrdRegion ch sq ctx p => some ⟨0x0405, ch, sq, ctx, p⟩
  | .dzHrdRead ch sq ctx p => some ⟨0x0406, ch, sq, ctx, p⟩
  | .dzHrdClear ch sq ctx p => some ⟨0x0407, ch, sq, ctx, p⟩
  | .dzEmbCounters ch sq ctx p => some ⟨0x0408, ch, sq, ctx, p⟩
  | .dzCombArea ch sq ctx p => some ⟨0x0250, ch, sq, ctx, p⟩
  | .dzCombQuery ch sq ctx p => some ⟨0x0251, ch, sq, ctx, p⟩
  | .dzPubArea ch sq ctx p => some ⟨0x0520, ch, sq, ctx, p⟩
  | .dzPubMap ch sq ctx p => some ⟨0x0521, ch, sq, ctx, p⟩
  | .dzPubQuery ch sq ctx p => some ⟨0x0522, ch, sq, ctx, p⟩
  | .dzMxeFreeze ch sq ctx p => some ⟨0x0260, ch, sq, ctx, p⟩
  | .dzMxeQuery ch sq ctx p => some ⟨0x0261, ch, sq, ctx, p⟩
  | .dzVxeMode ch sq ctx p => some ⟨0x0270, ch, sq, ctx, p⟩
  | .dzVxeQuery ch sq ctx p => some ⟨0x0271, ch, sq, ctx, p⟩
  | .dzParamWrite ch sq ctx x => some ⟨0x0500, ch, sq, ctx, x.payload⟩
  | .dzParamRead ch sq ctx p => some ⟨0x0501, ch, sq, ctx, p⟩
  | .dzParamClear ch sq ctx p => some ⟨0x0502, ch, sq, ctx, p⟩
  | .dzSchedWrite ch sq ctx p => some ⟨0x0503, ch, sq, ctx, p⟩
  | .dzSeedSet ch sq ctx p => some ⟨0x0504, ch, sq, ctx, p⟩
  | .dzVerInit ch sq ctx p => some ⟨0x0505, ch, sq, ctx, p⟩
  | .dzVerConfig ch sq ctx p => some ⟨0x0506, ch, sq, ctx, p⟩
  | .dzVerQuery ch sq ctx p => some ⟨0x0507, ch, sq, ctx, p⟩
  | .dzDjArea ch sq ctx p => some ⟨0x0508, ch, sq, ctx, p⟩
  | .dzGuardConfig ch sq ctx p => some ⟨0x0530, ch, sq, ctx, p⟩
  | .dzGuardQuery ch sq ctx p => some ⟨0x0531, ch, sq, ctx, p⟩
  | .dzGuardHold ch sq ctx p => some ⟨0x0532, ch, sq, ctx, p⟩
  | .dzGuardAbandon ch sq ctx p => some ⟨0x0533, ch, sq, ctx, p⟩
  | .dzExportDesc ch sq ctx p => some ⟨0x0534, ch, sq, ctx, p⟩
  | .dzRrAssign ch sq ctx p => some ⟨0x0540, ch, sq, ctx, p⟩
  | .dzRrWindow ch sq ctx p => some ⟨0x0541, ch, sq, ctx, p⟩
  | .dzRrTables ch sq ctx p => some ⟨0x0542, ch, sq, ctx, p⟩
  | .dzRrTally ch sq ctx p => some ⟨0x0543, ch, sq, ctx, p⟩
  | .dzRrQuery ch sq ctx p => some ⟨0x0544, ch, sq, ctx, p⟩
  | .dzMemAlloc ch sq ctx p => some ⟨0x0300, ch, sq, ctx, p⟩
  | .dzMemFree ch sq ctx p => some ⟨0x0301, ch, sq, ctx, p⟩
  | .dzMemQuery ch sq ctx p => some ⟨0x0302, ch, sq, ctx, p⟩
  | .dzMemSlots ch sq ctx p => some ⟨0x0303, ch, sq, ctx, p⟩
  | .dzMemFlush ch sq ctx p => some ⟨0x0304, ch, sq, ctx, p⟩
  | .dzMemStatus ch sq ctx p => some ⟨0x0305, ch, sq, ctx, p⟩
  | .dzMemResv ch sq ctx p => some ⟨0x0306, ch, sq, ctx, p⟩
  | .dzMemLine ch sq ctx p => some ⟨0x0307, ch, sq, ctx, p⟩
  | .dzXfeQuery ch sq ctx p => some ⟨0x0308, ch, sq, ctx, p⟩
  | .dzRhStatus ch sq ctx p => some ⟨0x0600, ch, sq, ctx, p⟩
  | .dzRhPort ch sq ctx p => some ⟨0x0601, ch, sq, ctx, p⟩
  | .dzRhRing ch sq ctx p => some ⟨0x0602, ch, sq, ctx, p⟩
  | .dzRhPortCtl ch sq ctx p => some ⟨0x0603, ch, sq, ctx, p⟩
  | .dzCollGroup ch sq ctx p => some ⟨0x0610, ch, sq, ctx, p⟩
  | .dzCollArea ch sq ctx p => some ⟨0x0611, ch, sq, ctx, p⟩
  | .dzCollMode ch sq ctx p => some ⟨0x0612, ch, sq, ctx, p⟩
  | .dzCollQuery ch sq ctx p => some ⟨0x0613, ch, sq, ctx, p⟩
  | .dzIntStatus ch sq ctx p => some ⟨0x0700, ch, sq, ctx, p⟩
  | .dzIntConfig ch sq ctx p => some ⟨0x0701, ch, sq, ctx, p⟩
  | .dzIntUnit ch sq ctx p => some ⟨0x0702, ch, sq, ctx, p⟩
  | .dzLogDest ch sq ctx p => some ⟨0x0703, ch, sq, ctx, p⟩
  | .dzLogRead ch sq ctx p => some ⟨0x0704, ch, sq, ctx, p⟩
  | .dzKatLoad ch sq ctx p => some ⟨0x0705, ch, sq, ctx, p⟩
  | .dzSpecArea ch sq ctx p => some ⟨0x0706, ch, sq, ctx, p⟩
  | .dzIntInject ch sq ctx p => some ⟨0x0707, ch, sq, ctx, p⟩
  | .dzHostAperture ch sq ctx p => some ⟨0x0310, ch, sq, ctx, p⟩
  | .dzHostStatus ch sq ctx p => some ⟨0x0311, ch, sq, ctx, p⟩
  | .dzFwStage ch sq ctx p => some ⟨0x0B00, ch, sq, ctx, p⟩
  | .dzFwActivate ch sq ctx p => some ⟨0x0B01, ch, sq, ctx, p⟩
  | .dzFwConfirm ch sq ctx p => some ⟨0x0B02, ch, sq, ctx, p⟩
  | .dzFwQuery ch sq ctx p => some ⟨0x0B03, ch, sq, ctx, p⟩
  | .dzFwRevert ch sq ctx p => some ⟨0x0B04, ch, sq, ctx, p⟩
  | .dzFwOpen ch sq ctx p => some ⟨0x0B05, ch, sq, ctx, p⟩
  | .dzFwChunk ch sq ctx p => some ⟨0x0B06, ch, sq, ctx, p⟩
  | .dzDbgWindow ch sq ctx p => some ⟨0x0B10, ch, sq, ctx, p⟩
  | .dzSxFix ch sq ctx p => some ⟨0x0800, ch, sq, ctx, p⟩
  | .dzSxSummary ch sq ctx p => some ⟨0x0801, ch, sq, ctx, p⟩
  | .dzSxPowerCap ch sq ctx p => some ⟨0x0802, ch, sq, ctx, p⟩
  | .dzSxClockCap ch sq ctx p => some ⟨0x0803, ch, sq, ctx, p⟩
  | .dzSxCage ch sq ctx p => some ⟨0x0804, ch, sq, ctx, p⟩
  | .dzAlmanacSet ch sq ctx p => some ⟨0x0900, ch, sq, ctx, p⟩
  | .dzLedgerRead ch sq ctx p => some ⟨0x0901, ch, sq, ctx, p⟩
  | .dzLedgerEvents ch sq ctx p => some ⟨0x0902, ch, sq, ctx, p⟩
  | .dzLedgerCommit ch sq ctx p => some ⟨0x0903, ch, sq, ctx, p⟩
  | .dzPcOvfClear ch sq ctx p => some ⟨0x0904, ch, sq, ctx, p⟩
  | .dzSecMeas ch sq ctx p => some ⟨0x0A00, ch, sq, ctx, p⟩
  | .dzSecExtend ch sq ctx p => some ⟨0x0A01, ch, sq, ctx, p⟩
  | .dzSecAttest ch sq ctx p => some ⟨0x0A02, ch, sq, ctx, p⟩
  | .dzSecCerts ch sq ctx p => some ⟨0x0A03, ch, sq, ctx, p⟩
  | .dzSecChallenge ch sq ctx p => some ⟨0x0A04, ch, sq, ctx, p⟩
  | .dzSecUnlock ch sq ctx p => some ⟨0x0A05, ch, sq, ctx, p⟩
  | .dzSecZeroise ch sq ctx p => some ⟨0x0A06, ch, sq, ctx, p⟩
  | .dzSecManifest ch sq ctx p => some ⟨0x0A07, ch, sq, ctx, p⟩
  | .dzSecSelftest ch sq ctx p => some ⟨0x0A08, ch, sq, ctx, p⟩
  | _ => none

/-- The mailbox of a request that its sender has put into the buffer and that is BUSY with it (R464, R465, R474). -/
def Request.placed (r : Request) (m : Mailbox) : Mailbox :=
  let bs := mhRequest r.op r.seq r.ctx r.payload
  { m with buffer := if r.ch = 16 then padTo 4032 bs else putBytes (mbxBuf m) 0 bs, phase := 1, late := [] }

/-- The device with a request taken in: its mailbox is BUSY and the request counted. -/
def Request.taken (r : Request) (d : Dev) : Dev := pcAdd (mbxMod d r.ch r.placed) (kMbx r.ch) 1

/-- What the mailbox holds of a request in progress. -/
def Request.busy (r : Request) : Busy :=
  ⟨r.op, r.seq, r.ctx, r.payload.length, retryKey ((mhRequest r.op r.seq r.ctx r.payload).take 28) r.payload, .guardHold,
    r.payload⟩

/-- The channel takes a request now: the sender's function claims it and its mailbox is IDLE or DONE, or the module serves
the MCTP channel and that is not BUSY; and the sequence number is free or the next (R462, R464, R469, R474). -/
def Request.accepted (r : Request) (d : Dev) : Prop :=
  (if r.ch = 16 then mctpServed d = true ∧ (mbxGet d 16).phase ≠ 1
   else r.ch < 16 ∧ claimed d (fnOf r.ch) = true ∧ ((mbxGet d r.ch).phase = 0 ∨ (mbxGet d r.ch).phase = 2)) ∧
    ((mbxGet d r.ch).seqFree = true ∨ r.seq = (mbxGet d r.ch).execSeq + 1) ∧ r.payload.length ≤ 4000

end Sys2Proof.Machine
end

