-- ==== Sys2Proof/Certificates/Slice0/Obligations.lean ====
section
/-! DEFINITION. The statements about the model, for the provers: each family of commands and each kind of state, and what
every step keeps. A result is written as the next state that the command answers; `settle` carries an effect out on the module
and then programs the fuses that it asked for. -/
section
open Sys2Proof Sys2Proof.Machine

/-! ### Streams (chapter 4) -/

/-- R104, R112, R121: a scalar slot at the front of an engine's bundle is carried out. S_LOOP opens its level with the count
in the slot or in a parameter register, S_END marks the end, S_ADVE adds to an expectation, S_SUMM deposits a summary
register whole in a slot of an SCC of the engine's own die. R122: S_CHOOSE at the front of a bundle whose choice entry the
SCC's cache holds takes the first of the four rules that matches the named summary slot; the rule sets its parameter register
when CR_PSET is 1, and the stream ends when CR_ENTRY is 0xFFFF, else continues at that entry. -/
def Obligations.ScalarSlotsComplete : Prop :=
  (∀ (cls inst : Nat) (s : State) (v : Stream) (sl : Slot) (rest : List Slot),
     Fronts s.otp s.dev (ek cls inst) v sl rest → sl.kind = 6 →
     (bits sl.w 28 4 = 1 →
       let n := if sl.w.testBit 25 then param v (bits sl.w 0 6) else bits sl.w 0 24
       let v' := { v with opened := some ⟨bits sl.w 26 2, v.pos + bundleLen (v.head.getD 0), n, 0⟩ }
       exec (.sLoop cls inst) s = .next (settle (fun _ d => slotDone (stSet d (ek cls inst) v') (ek cls inst)) s)) ∧
     (bits sl.w 28 4 = 2 →
       exec (.sEnd cls inst) s =
         .next (settle (fun _ d => slotDone (stSet d (ek cls inst) { v with ending := true }) (ek cls inst)) s)) ∧
     (bits sl.w 28 4 = 4 →
       let b := bits sl.w 24 4
       let v' := { v with exps := setAt v.exps b (satAdd 32 (nth v.exps b) (bits sl.w 0 24)) }
       exec (.sAdve cls inst) s = .next (settle (fun _ d => slotDone (stSet d (ek cls inst) v') (ek cls inst)) s)) ∧
     (bits sl.w 28 4 = 3 → sccDenied s.dev v (sccOf (ek cls inst) (bits sl.w 22 2)) = false →
       let y := (smGet none v.yregs (bits sl.w 24 4)).getD summ0
       let k := sccOf (ek cls inst) (bits sl.w 22 2) * 32 + bits sl.w 17 5
       exec (.sSumm cls inst) s =
         .next (settle (fun _ d => slotDone { d with sccSlots := smSet summ0 d.sccSlots k y } (ek cls inst)) s))) ∧
  (∀ (cls inst : Nat) (s : State) (v : Stream) (sl : Slot) (rest : List Slot) (g : Gen) (blk r : List Byte),
     Fronts s.otp s.dev (ek cls inst) v sl rest → sl.kind = 6 → bits sl.w 28 4 = 5 →
     let n := sccOf (ek cls inst) (bits sl.w 26 2)
     let off := g.choiceOff + 64 * bits sl.w 13 8
     sccDenied s.dev v n = false → stGen s.dev v = some g →
     icFind s.dev (224 + n) v.handle v.gen (off / 1024) = some blk →
     let ent := (blk.drop (off % 1024)).take 64
     let y := smGet summ0 s.dev.sccSlots (n * 32 + bits sl.w 21 5)
     ((List.range 4).map (fun i => (ent.drop (16 * i)).take 16)).find? (fun r => ruleMatch r y) = some r →
     let v' := { v with params := if (fld r 7 1).testBit 7 then smSet 0 v.params (fld r 7 1 % 64) y.count else v.params }
     let v'' := if fld r 4 2 = 0xFFFF then { v' with ending := true } else { v' with chosen := some (nth g.entries (fld r 4 2)) }
     exec (.sChoose cls inst) s =
       .next (settle (fun _ d => slotDone (stSet (icPut d (224 + n) v.handle v.gen (off / 1024) blk) (ek cls inst) v'')
         (ek cls inst)) s))

/-- R107: a sync slot at the front of a bundle gives the bundle its second wait, or its second signal with the increment
and the signal point of the slot. -/
def Obligations.SyncSlotsComplete : Prop :=
  ∀ (cls inst : Nat) (s : State) (v : Stream) (sl : Slot) (rest : List Slot),
    Fronts s.otp s.dev (ek cls inst) v sl rest → sl.kind = 0 →
    (bits sl.w 30 2 = 1 →
      let ws : List WaitReq := if bits sl.w 28 2 = 0 then [] else [⟨bits sl.w 24 4, bits sl.w 28 2, bits sl.w 0 24, 0⟩]
      exec (.syWait cls inst) s =
        .next (settle (fun _ d => advance (stSet d (ek cls inst) { v with slots := rest, waits := ws }) (ek cls inst)) s)) ∧
    (bits sl.w 30 2 = 2 →
      let sig : SigReq := ⟨nth v.tallies (bits sl.w 26 4), bits sl.w 0 24, bits sl.w 24 2 == 1, false, []⟩
      exec (.sySignal cls inst) s =
        .next (settle (fun _ d => slotDone (stSet d (ek cls inst) { v with sigs := v.sigs ++ [sig] }) (ek cls inst)) s))

/-- R109, R110: the first armed signal whose accesses have all completed fires: its increment is added to its tally, or the
tally saturates; the signal is gone from the stream, every pending wait on the tally is judged by its new value, the other
tallies are as before, and nothing else changes. -/
def Obligations.SignalFires : Prop :=
  ∀ (cls inst : Nat) (s : State) (v : Stream) (pre post : List SigReq) (g : SigReq),
    stGet s.dev (ek cls inst) = some v → v.sigs = pre ++ g :: post →
    g.armed = true → (∀ t ∈ g.tags, ∀ r ∈ v.remote, r.tag ≠ t) →
    (∀ p ∈ pre, p.armed = false ∨ ∃ t ∈ p.tags, ∃ r ∈ v.remote, r.tag = t) → s.dev.burns = [] →
    Unharmed s.dev 0 (tallyKey g.tally) →
    let k := tallyKey g.tally
    let y := tallyAddV (tallyGet s.dev g.tally) g.inc
    ∃ t, exec (.signalFire cls inst) s = .next t ∧
      tallyGet t.dev g.tally = y ∧ (∀ r, tallyKey r ≠ k → tallyGet t.dev r = tallyGet s.dev r) ∧
      stGet t.dev (ek cls inst) = some (streamSees k y { v with sigs := pre ++ post }) ∧
      (∀ e, e ≠ ek cls inst → stGet t.dev e = (stGet s.dev e).map (streamSees k y)) ∧
      (∀ q, qGet t.dev q = (qGet s.dev q).map (queueSees k y)) ∧
      (∀ x, planGet t.dev x = (planGet s.dev x).map (planSees k y)) ∧
      { t.dev with streams := s.dev.streams, tallies := s.dev.tallies, queues := s.dev.queues, plans := s.dev.plans } = s.dev ∧
      t.otp = s.otp

/-- R104, R113, R118: an engine that can take its next bundle, whose block the instruction cache holds, takes it: the head
wait, then the slots; ENG_PC_BUNDLES counts it. In the body of a loop with a count of 0 the bundle is only gone past. R108,
R109, R111: the wait that a bundle meets first, met now or by an earlier act on its tally, goes away and (AT_LEAST_ADV) moves
its expectation to the target; one whose tally saturated, or whose target is above 0xFFFF_FFFF, faults the stream with
ST_TALLY_SAT; an unmet wait whose limit expires faults it with ST_WAIT_LIMIT. The cycles stalled are a free value in
ENG_PC_WAIT. -/
def Obligations.BundlesIssueAndWait : Prop :=
  (∀ (cls inst : Nat) (s : State) (v : Stream) (bs : List Byte),
     stGet s.dev (ek cls inst) = some v → canIssue v = true →
     icFind s.dev (ek cls inst) v.handle v.gen (v.pos / 1024) = some bs →
     let e := ek cls inst
     let rd := fun off n => fld bs (off % 1024) n
     let h := rd v.pos 4
     let held := fun d : Dev => icPut d e v.handle v.gen (v.pos / 1024) bs
     let waits : List WaitReq := if bits h 23 2 = 0 then [] else [⟨bits h 19 4, bits h 23 2, bits h 15 4, 0⟩]
     (v.skip = 0 → exec (.bundleIssue cls inst) s =
       .next (settle (fun _ d => advance (pcAdd (stSet (held d) e
         { v with head := some h, waits := waits, slots := bundleSlots rd h v.pos }) (kEng e) 1) e) s)) ∧
     (v.skip ≠ 0 →
       let opens := (bundleSlots rd h v.pos).any (fun x => x.kind == 6 && bits x.w 28 4 == 1)
       let skip := v.skip + opens.toNat - (h.testBit 4).toNat
       exec (.bundleIssue cls inst) s =
         .next (settle (fun _ d => stSet (held d) e { v with pos := v.pos + bundleLen h, skip := skip }) s))) ∧
  (∀ (cls inst : Nat) (s : State) (v : Stream) (w : WaitReq) (rest : List WaitReq),
     stGet s.dev (ek cls inst) = some v → v.waits = w :: rest →
     let b := w.binding
     let x := if w.res = 0 then waitTest (tallyGet s.dev (nth v.tallies b)) (nth v.exps b) w.cond w.value else w.res
     let stall := fun d : Dev => bump (pcAdd d (kEng (ek cls inst) + 2) (Config.freeCount d.freeIdx).toNat)
     let v' := { v with waits := rest, exps := setAt v.exps b (waitExp (nth v.exps b) w.cond w.value) }
     (Unharmed s.dev 0 (tallyKey (nth v.tallies b)) → x = 1 → (v.head = none ∨ v.slots ≠ []) →
       exec (.bundleWaitMet cls inst) s = .next (settle (fun _ d => stSet (stall d) (ek cls inst) v') s)) ∧
     (Unharmed s.dev 0 (tallyKey (nth v.tallies b)) → x = 1 → ∀ h, v.head = some h → v.slots = [] →
       exec (.bundleWaitMet cls inst) s = .next (settle (fun _ d => stSet (stall d) (ek cls inst) (bundleEnd v' h)) s)) ∧
     (Unharmed s.dev 0 (tallyKey (nth v.tallies b)) → x = 2 → exec (.bundleWaitMet cls inst) s =
       .next (settle (fun _ d => stFault (stall d) (ek cls inst) stTallySat) s)) ∧
     (x = 0 → exec (.spWaitLimitExpiry cls inst) s =
       .next (settle (fun _ d => stFault (stall d) (ek cls inst) stWaitLimit) s)))

/-- R101, R117, R118: the fill of a code block passes when the CRC of the block with the build identity of the generation is
the block's entry of the CRC array, and no more than three reads failed. A demand fill that passes puts the block first in its
set and starts a prefetch of the next block of the body when that is neither held nor on its way; one that fails faults the
stream with ST_CODE_CRC. The engine's oldest prefetch that passes puts its block, and one that fails is discarded without a
fault; it is done in either case, and no stream changes. -/
def Obligations.CodeFills : Prop :=
  (∀ (d : Dev) (o : Otp) (h n x rr : Nat) (g : Gen), (handleGet d h).gens.find? (fun g => g.gen == n) = some g →
    let block := memRead d (g.base + 1024 + 1024 * x) 1024
    (codeFill o d h n x rr).2 = if blockCrc block g.build = memNat d (g.base + g.crcOff + 4 * x) 4 ∧ rr < 4
      then some block else none) ∧
  (∀ (cls inst rr x : Nat) (s : State) (v : Stream) (d' : Dev) (bs : List Byte),
    stGet s.dev (ek cls inst) = some v → v.missing = some x →
    let e := ek cls inst
    let fill := codeFill s.otp s.dev v.handle v.gen (x % 65536) rr
    (fill = (d', none) →
      exec (.icacheDemandFill cls inst rr) s = .next (settle (fun _ _ => stFault d' e stCodeCrc) s)) ∧
    (∀ g, fill = (d', some bs) → stGen d' v = some g →
      let d := icPut d' (x / 65536) v.handle v.gen (x % 65536) bs
      let got := fun d : Dev => stMod d e (fun v => { v with missing := none })
      let more := x % 65536 + 1 < g.bodyLen / 1024 ∧ icFind d (x / 65536) v.handle v.gen (x % 65536 + 1) = none ∧
        ¬∃ p ∈ d.prefetches, p = ⟨e, x / 65536, v.handle, v.gen, x % 65536 + 1⟩
      (more → exec (.icacheDemandFill cls inst rr) s = .next (settle (fun _ _ =>
        got { d with prefetches := d.prefetches ++ [⟨e, x / 65536, v.handle, v.gen, x % 65536 + 1⟩] }) s)) ∧
      (¬more → exec (.icacheDemandFill cls inst rr) s = .next (settle (fun _ _ => got d) s)))) ∧
  (∀ (cls inst rr : Nat) (s : State) (pre post : List Prefetch) (p : Prefetch) (d' : Dev),
    s.dev.prefetches = pre ++ p :: post → p.engine = ek cls inst → (∀ x ∈ pre, x.engine ≠ ek cls inst) →
    let fill := codeFill s.otp { s.dev with prefetches := pre ++ post } p.handle p.gen p.blk rr
    (∀ bs, fill = (d', some bs) → exec (.icachePrefetchFill cls inst rr) s =
      .next (settle (fun _ _ => icPut d' p.cache p.handle p.gen p.blk bs) s)) ∧
    (fill = (d', none) → exec (.icachePrefetchFill cls inst rr) s = .next (settle (fun _ _ => d') s)))

/-- R116: a stream that has ended or faulted, with no signal and no access outstanding and no statistics record due,
retires: its engine is free, its bind slots and its pin are released, and its command takes the stream's status. -/
def Obligations.StreamRetires : Prop :=
  ∀ (cls inst : Nat) (s : State) (v : Stream),
    stGet s.dev (ek cls inst) = some v → (v.final.isSome = true ∨ v.ending = true ∧ v.head = none) → v.sigs = [] →
    v.remote = [] → v.gstats = [] →
    let e := ek cls inst
    let free := fun d : Dev => { d with streams := smSet none d.streams e none,
                                        bindsInUse := v.bindSlots.foldl (fun m k => smMod 0 m k (· - 1)) d.bindsInUse }
    let flags := fun r : Running => { r with numFlags := r.numFlags ||| v.numFlags }
    exec (.streamRetire cls inst) s =
      .next (settle (fun _ d => cmdFinal (runMod (pinMod (free d) v.handle v.gen (· - 1)) v.queue v.seq flags) v.queue v.seq
        (v.final.getD stOk) v.detail) s)

/-- R116, R119: the first active engine-run command of a queue, on an engine that runs no stream, whose parameter block is
in place (a multiple of 512, inside the function's windows, mapped, on the own module), passes its CRC and the checks of
Table 4-12, pins the current generation of its handle and goes on to its descriptors. A block outside the windows gives
ST_RR_WINDOW, a misaligned or unmapped one ST_ADDR_UNMAPPED, one that fails its CRC ST_SP_CRC, one that fails a check that
check's status, and a code object outside the windows ST_RR_WINDOW. -/
def Obligations.EngineRunStarts : Prop :=
  ∀ (q rr : Nat) (s : State) (v : Queue) (r : Running),
    Awaits s.dev q v r (fun r => r.cmd.op == 0x01 && (stGet s.dev r.engine).isNone) →
    let sq := r.cmd.cseq.toNat
    let a := fld r.cmd.body 8 8
    (windowOk s.dev v.owner a 512 false = false →
      exec (.dcRun q rr) s = .next (settle (fun _ d => cmdFinal d q sq stRrWindow 0) s)) ∧
    (windowOk s.dev v.owner a 512 false = true → (isMul a 512 = false ∨ gaMapped s.dev a 512 = false) →
      exec (.dcRun q rr) s = .next (settle (fun _ d => cmdFinal d q sq stAddrUnmapped 0) s)) ∧
    (windowOk s.dev v.owner a 512 false = true → isMul a 512 = true → gaMapped s.dev a 512 = true → r.work.length ≠ 2 →
      let d := cmdHold s.dev q r [(a, 512)]
      let r := cmdOwn s.dev r [(a, 512)]
      gaMissing d r.rbuf [(a, 512)] = [] →
      let x := recRead s.otp d a (recAt d r a 512) (rrOf rr 0)
      (x.2 = false → exec (.dcRun q rr) s = .next (settle (fun _ _ => cmdFinal x.1 q sq stSpCrc 0) s)) ∧
      (x.2 = true →
        let sp := recAt x.1 r a 512
        let h := fld sp 0 2 % 1024
        let st := spChecks x.1 v.owner (r.engine / 32) sp
        (st ≠ stOk → exec (.dcRun q rr) s = .next (settle (fun _ _ => cmdFinal x.1 q sq st 0) s)) ∧
        (st = stOk → spWindow x.1 v.owner h = false →
          exec (.dcRun q rr) s = .next (settle (fun _ _ => cmdFinal x.1 q sq stRrWindow 0) s)) ∧
        (st = stOk → spWindow x.1 v.owner h = true →
          let g := (handleGet x.1 h).current
          let r := { r with started := true, work := [h, g] }
          exec (.dcRun q rr) s = .next (settle (fun o _ =>
            startTds o (runMod (pinMod x.1 h g (· + 1)) q sq (fun _ => r)) q v r sp h g rr) s))))

/-! ### The vector engine (chapter 9) -/

/-- The compute rows of the vector engine: the command, its opcode (Table 9-3) and what it makes of its operands: the
stream with the results written, how many elements they are, and the flags raised. -/
def vxRows : List ((Nat → Nat → Instr) × Nat × (Dev → Stream → Nat → Stream × Nat × Nat)) := [
  (.vAdd, 0x01, vxMap id (fun t m _ a b _ => vx2 t m fvAdd (· + ·) a b)),
  (.vSub, 0x02, vxMap id (fun t m _ a b _ => vx2 t m fvSub (· - ·) a b)),
  (.vMul, 0x03, vxMap id (fun t m _ a b _ => vx2 t m fvMul (· * ·) a b)),
  (.vFma, 0x04, vxMap id (fun _ m _ a b c =>
    vxRes m [vxOp m a, vxOp m b, vxOp m c] (fvFma (vxOp m a).1 (vxOp m b).1 (vxOp m c).1))),
  (.vDiv, 0x05, vxMap id (fun _ m _ a b _ => vxF2 m fvDiv a b)),
  (.vMax, 0x06, vxMap id (fun t m _ a b _ => vx2 t m fvMax max a b)),
  (.vMin, 0x07, vxMap id (fun t m _ a b _ => vx2 t m fvMin min a b)),
  (.vSqrt, 0x08, vxMap id (fun _ m _ a _ _ => vxF1 m fvSqrt a)),
  (.vAbs, 0x09, vxMap id (fun t m _ a _ _ => if t = 0 then vxF1 m fvAbs a else vxI (toSigned 32 a).natAbs)),
  (.vNeg, 0x0A, vxMap id (fun t m _ a _ _ => if t = 0 then vxF1 m fvNegate a else vxI (-(toSigned 32 a)))),
  (.vCmp, 0x10, vxMap (fun _ => 4) (fun t m sub a b _ => vxCmp t m sub a b)),
  (.vSel, 0x11, fun d v w => vxMap id (fun t m _ a b c => vxSelect t m (vxC v w).typ a b c) d v w),
  (.vAnd, 0x18, vxMap id (fun _ _ _ a b _ => (a &&& b, 0))),
  (.vOr, 0x19, vxMap id (fun _ _ _ a b _ => (a ||| b, 0))),
  (.vCvt, 0x20, vxMap (fun t => 4 - t) (fun _ m sub a _ _ => vxCvt sub m a)),
  (.vRsum, 0x28, vxReduce vxFirst (vxStep fvAdd (· + ·)) (fun t => if t = 0 then 2 ^ 31 else 0)),
  (.vRmax, 0x29, vxReduce vxFirst (vxStep fvMax max) (fun t => if t = 0 then fmtInf fp32 true else 2 ^ 31)),
  (.vFn, 0x30, vxFnMap false),
  (.vFnd, 0x31, vxFnMap true),
  (.vCompress, 0x38, vxCompress),
  (.vExpand, 0x39, vxExpand),
  (.vSumm, 0x3C, vxSumm),
  (.vSmov, 0x3E, vxSmov)]

/-- R256 to R264, R266, R267, R269: a compute slot at the front of a VXE whose checks of Table 9-7 pass is carried out. In
uncollated mode it is computed once; in collated mode it counts one operation of the engine's window (with an injected
mismatch logged), and with the two computations equal it writes what the one computation gives; the element and cycle
counters advance and the flags are raised. A slot whose check fails faults the stream with that check's status. R422, R424:
in collated mode a slot whose two computations differ once is logged, counts an event and is computed again; one whose two
computations differ twice retires the engine and faults its stream with ST_ENGINE_RETIRED. -/
def Obligations.VectorSlotsComplete : Prop :=
  (∀ row ∈ vxRows, ∀ (inst mm : Nat) (s : State) (v : Stream) (sl : Slot) (rest : List Slot),
     inst < 16 → Fronts s.otp s.dev (ek 2 inst) v sl rest → (sl.kind = 3 ∨ sl.kind = 4) → vxOpc sl.w = row.2.1 →
     let e := ek 2 inst
     let free := fun d : Dev => if row.2.1 ∈ [0x30, 0x31, 0x38, 0x39] then bump d else d
     let done := fun d : Dev =>
       let r := row.2.2 d v sl.w
       slotDone (vxCount (stFlags (stSet (free d) e r.1) e r.2.2) e r.2.1 (vxCycles v sl.w)) e
     (vxCheck v sl.w ≠ stOk → exec (row.1 inst mm) s = .next (settle (fun _ d => stFault d e (vxCheck v sl.w)) s)) ∧
     (vxCheck v sl.w = stOk → v.uncollated = true →
       exec (row.1 inst mm) s = .next (settle (fun _ d => done d) s)) ∧
     (vxCheck v sl.w = stOk → v.uncollated = false →
       exec (row.1 inst 0) s = .next (settle (fun _ d => done (laneOp d e (some (kEng e + 5)))) s))) ∧
  (∀ row ∈ vxRows, ∀ (inst : Nat) (s : State) (v : Stream) (sl : Slot) (rest : List Slot),
     inst < 16 → Fronts s.otp s.dev (ek 2 inst) v sl rest → (sl.kind = 3 ∨ sl.kind = 4) → vxOpc sl.w = row.2.1 →
     vxCheck v sl.w = stOk → v.uncollated = false →
     let e := ek 2 inst
     let op := fun d : Dev => laneOp d e (some (kEng e + 5))
     let note := fun d : Dev => laneNote d e (some (kEng e + 5)) false
     let free := fun d : Dev => if row.2.1 ∈ [0x30, 0x31, 0x38, 0x39] then bump d else d
     let done := fun d : Dev =>
       let r := row.2.2 d v sl.w
       slotDone (vxCount (stFlags (stSet (free d) e r.1) e r.2.2) e r.2.1 (vxCycles v sl.w)) e
     exec (row.1 inst 1) s = .next (settle (fun o d => done (unitEvent o (note (op d)) e 4 1)) s) ∧
     ∀ n, exec (row.1 inst (n + 2)) s = .next (settle (fun o d =>
       let d := note (note (op d))
       stFault (if retired d e then d else retireUnit o d e) e stEngineRetired) s))

/-- R252 to R254: the transfers of a VXE, in uncollated mode, or in collated mode with the two computations equal, where a tile
load or store counts one operation of the engine's window. A load through a bound tensor of a type that R252 allows, with
an access pattern of a legal shape that the cache holds, all of whose bytes are at hand, fills the tile register
with the widened elements, tile dimension 0 along the columns; a table load puts 2,064 words into its slot; a store of a
FULL register through a checked binding, with none of its bytes in a write not yet acknowledged, writes its elements to the
tensor, narrowed by SP_PARAM[53]. -/
def Obligations.VectorTransfers : Prop :=
  ∀ (inst mm : Nat) (s : State) (v : Stream) (sl : Slot) (rest : List Slot) (t : Td) (g : Gen) (blk : List Byte),
    inst < 16 → Fronts s.otp s.dev (ek 2 inst) v sl rest → (v.uncollated = true ∨ mm = 0) →
    stTd v (bits sl.w 24 4) = some t → stGen s.dev v = some g →
    let e := ek 2 inst
    let off := g.apOff + 64 * bits sl.w 16 8
    let ap := (blk.drop (off % 1024)).take 64
    let is := apTile ap (loopCtrs v) t.ndim
    let held := fun d : Dev => icPut d e v.handle v.gen (off / 1024) blk
    let lane := fun d : Dev => if v.uncollated then d else laneOp d e (some (kEng e + 5))
    icFind s.dev e v.handle v.gen (off / 1024) = some blk → gaMissing (held s.dev) v.rbuf (tdRanges t is) = [] →
    (isBuf [1, 2] 0x00 0x1F sl = true → t.etype ≠ 3 → t.etype ≠ 7 → apFits ap t.ndim = true → 2 ≤ t.ndim →
      apExt ap 0 ≤ 64 → apExt ap 1 ≤ 64 → (∀ k, 2 ≤ k → k < t.ndim → k < 6 → apExt ap k = 1) →
      exec (.vxeTileLoad inst mm) s = .next (settle (fun _ d =>
        let d := lane (held d)
        let raw := is.map (fun i => vxWiden t.etype (tdRead d v.rbuf t i))
        let reg := tregMake (tregGet v (bits sl.w 8 5)) (vxRegType t.etype) (apExt ap 1) (apExt ap 0)
          (fun r c => nth raw (r * apExt ap 0 + c))
        slotDone (vxCount (stMod d e (fun v => tregSet v (bits sl.w 8 5) reg)) e 0
          (vxXfer (is.length * etBits t.etype / 8))) e) s)) ∧
    (isBuf [1, 2] 0x40 0x47 sl = true → t.etype = 4 → apFits ap t.ndim = true → is.length = 2064 →
      exec (.vxeFtabLoad inst) s = .next (settle (fun _ d =>
        slotDone (vxCount (stMod (held d) e (fun u =>
          { u with ftabs := smSet [] u.ftabs (bits sl.w 8 3) (is.map (tdRead (held d) v.rbuf t)) })) e 0 (vxXfer 8256)) e) s)) ∧
    (isBuf [5] 0x00 0x1F sl = true → v.checked.contains (bits sl.w 24 4) = true → apFits ap t.ndim = true →
      let reg := tregGet v (bits sl.w 8 5)
      let m := param v 53
      let narrows := reg.typ == 0 && (t.etype == 1 || t.etype == 2)
      let is := (vxStoreItems ap (loopCtrs v) t.ndim reg).map (·.1)
      let store := held (markChecked s.dev e (bits sl.w 24 4))
      ownPending v (tdSpan t is) = false → gaMissing store v.rbuf (tdHalves store t is) = [] →
      reg.full = true → vxStores reg.typ t.etype = true → (narrows = true → modeOk m = true) →
      (narrows = true → modeStoch m = true → tdStochOk t = true) →
      exec (.vxeTileStore inst mm) s = .next (settle (fun _ d =>
        let d := lane (held (markChecked d e (bits sl.w 24 4)))
        let items := (vxStoreItems ap (loopCtrs v) t.ndim reg).map (fun x =>
          (x.1, vxStoreEl t.etype m (if narrows ∧ modeStoch m then tdHash d.seed.toNat (param64 v 54) t x.1 else 0) x.2))
        let d := vxCount (stFlags d e (itemFlags t items)) e 0
          (vxXfer (items.length * etBits t.etype / 8))
        slotWrote (tdWriteOn d v.rbuf t (items.map (fun x => (x.1, x.2.1))) (.stream e)) e) s))

/-! ### The matrix engine and the Collator (chapters 8 and 15) -/

/-- R235: M_LIMIT whose count record is aligned, inside the windows, mapped and on the own module sets its limit register to
the smaller of word 0 and SP_PARAM[p + 2]; a misaligned record faults the stream with ST_MX_LIMIT. At stream start every
limit register is 0. R226: a scale load of an INT64 tile of at most 256 positions, all of whose bytes are on the own module,
writes the positions in order to the registers from 256 g on; any other tile faults the stream with ST_MX_SHAPE. -/
def Obligations.LimitsAndScalesLoad : Prop :=
  ((∀ (inst : Nat) (s : State) (v : Stream) (sl : Slot) (rest : List Slot),
     Fronts s.otp s.dev (ek 1 inst) v sl rest → isCompute 3 sl = true →
     let e := ek 1 inst
     let p := bits sl.w 50 6
     let a := param64 v p
     (isMul a 8 = false → exec (.mLimit inst) s = .next (settle (fun _ d => stFault d e stMxLimit) s)) ∧
     (isMul a 8 = true → windowOk s.dev v.fn a 4 false = true → gaMapped s.dev a 4 = true →
       gaMissing s.dev v.rbuf [(a, 4)] = [] →
       exec (.mLimit inst) s = .next (settle (fun _ d => slotDone (stMod d e (fun u =>
         { u with lims := smSet 0 u.lims (bits sl.w 48 2) (min (leNat (gaRead d v.rbuf a 4)) (param v (p + 2))) })) e) s))) ∧
   (∀ (d : Dev) (q fn h g pos k : Nat) (r : Running) (sp : List Byte) (tds : List (List Byte)),
     smGet 0 (newStream d q fn r sp h g pos tds).lims k = 0)) ∧
  (∀ (inst : Nat) (s : State) (v : Stream) (sl : Slot) (rest : List Slot) (t : Td) (g : Gen) (blk : List Byte),
     Fronts s.otp s.dev (ek 1 inst) v sl rest → (sl.kind = 1 ∨ sl.kind = 2) → 0x20 ≤ bits sl.w 8 8 → bits sl.w 8 8 ≤ 0x2F →
     stTd v (bits sl.w 24 4) = some t → stGen s.dev v = some g →
     let e := ek 1 inst
     let off := g.apOff + 64 * bits sl.w 16 8
     let ap := (blk.drop (off % 1024)).take 64
     let is := apTile ap (loopCtrs v) t.ndim
     let held := fun d : Dev => icPut d e v.handle v.gen (off / 1024) blk
     icFind s.dev e v.handle v.gen (off / 1024) = some blk →
     ((t.etype ≠ 7 ∨ apFits ap t.ndim = false ∨ 256 < is.length) →
       exec (.mxeScaleLoad inst) s = .next (settle (fun _ d => stFault (held d) e stMxShape) s)) ∧
     (t.etype = 7 → apFits ap t.ndim = true → is.length ≤ 256 → gaMissing (held s.dev) v.rbuf (tdRanges t is) = [] →
       exec (.mxeScaleLoad inst) s = .next (settle (fun _ d =>
         slotDone (scaleWrites (held d) inst (256 * (bits sl.w 8 8 - 0x20)) (is.map (tdRead (held d) v.rbuf t))) e) s)))

/-- R228, R236, R248: an M_MMA whose access patterns the cache holds. One that the gate or the freeze group skips forms
nothing, and only voids its accumulator when MM_CLR is 1; one that fails a check of Table 8-6 faults the stream with the
first failing status; one that passes but whose saturated-position bits are lost faults it with ST_CTL_LOST (R413); one whose
bits are there, with every operand byte on the own module, forms its product, which then waits for the Collator. -/
def Obligations.ProductsForm : Prop :=
  ∀ (inst : Nat) (s : State) (v : Stream) (sl : Slot) (rest : List Slot) (g : Gen) (ba bb : List Byte),
    Fronts s.otp s.dev (ek 1 inst) v sl rest → isCompute 1 sl = true → stGen s.dev v = some g →
    let e := ek 1 inst
    let q := mmaParse sl.w
    let offA := g.apOff + 64 * bits sl.w 40 8
    let offB := g.apOff + 64 * bits sl.w 32 8
    let heldA := fun d : Dev => icPut d e v.handle v.gen (offA / 1024) ba
    let held := fun d : Dev => icPut (heldA d) e v.handle v.gen (offB / 1024) bb
    let apA := (ba.drop (offA % 1024)).take 64
    let apB := (bb.drop (offB % 1024)).take 64
    icFind s.dev e v.handle v.gen (offA / 1024) = some ba →
    icFind (heldA s.dev) e v.handle v.gen (offB / 1024) = some bb →
    (mSkips v q = true →
      let n := apExt apA 0 * apExt apA 1 * apExt apB (if q.tb then 1 else 0)
      exec (.mMma inst) s = .next (settle (fun _ d =>
        slotDone (pcAdd (stMod (held d) e (fun u => if q.clr then accVoid u q.acc else u)) (kEng e + 4) n) e) s)) ∧
    (∀ ta tb, mSkips v q = false → stTd v q.a = some ta → stTd v q.b = some tb →
      (((q.s24 || tb.esc) && (stTd v q.md).isNone) || (q.occ && (stTd v q.ob).isNone)) = false →
      let opt := fun (on : Bool) b => if on then stTd v b else none
      let a := mOp v ta apA (if q.ta then 1 else 0)
      let x : MSet := ⟨q, a, mOp v tb apB (if q.tb then 0 else 1), opt q.s24 q.md, opt q.occ q.ob,
        opt (tb.esc && !q.s24) q.md, mRed a⟩
      (mStatus (held s.dev) v x ≠ stOk →
        exec (.mMma inst) s = .next (settle (fun _ d => stFault (held d) e (mStatus (held d) v x)) s)) ∧
      let look := fun d : Dev => satLook (held d) inst v x
      (mStatus (held s.dev) v x = stOk → (look s.dev).2 = true →
        exec (.mMma inst) s = .next (settle (fun _ d => stFault (look d).1 e stCtlLost) s)) ∧
      (mStatus (held s.dev) v x = stOk → (look s.dev).2 = false → gaMissing (look s.dev).1 v.rbuf (mRanges v x) = [] →
        exec (.mMma inst) s = .next (settle (fun _ d => mForm (look d).1 e v x sl.w) s)))

/-- R238 to R241: a drain of a VOID accumulator writes and sends nothing: its slot is done, and nothing but the streams
changes. A drain that passes its checks hands its elements to memory, when none of their bytes is in a write not yet
acknowledged, or to its collective channel when MD_FAB is 1. -/
def Obligations.DrainsComplete : Prop :=
  ∀ (inst : Nat) (s : State) (v : Stream) (sl : Slot) (rest : List Slot),
    Fronts s.otp s.dev (ek 1 inst) v sl rest → isCompute 2 sl = true →
    let e := ek 1 inst
    let q := drainParse sl.w
    let a := accGet v q.acc
    (a.valid = false → ∃ t, exec (.mDrain inst) s = .next t ∧ t = settle (fun _ d => slotDone d e) s ∧
      t.dev = { s.dev with streams := t.dev.streams, burns := [] }) ∧
    (∀ (t : Td) (g : Gen) (blk : List Byte), a.valid = true → stTd v q.out = some t → stGen s.dev v = some g →
      let off := g.apOff + 64 * bits sl.w 44 8
      let ap := (blk.drop (off % 1024)).take 64
      let items := drainItems ap (loopCtrs v) t a
      let org := ((apTile ap (loopCtrs v) t.ndim).headD []).getD 0 0
      icFind s.dev e v.handle v.gen (off / 1024) = some blk → drainShape q t ap org = true →
      (a.typ ≠ 3 ∨ q.acc % 2 = 0) → (q.mode = 1 → q.sbase + nth t.ext 0 ≤ 4096) →
      (modeStoch q.nm = false ∨ q.mode = 1 ∨ q.mode = 2 ∨ tdStochOk t = true) →
      (q.fab = false → (q.grad && q.gfmt == 3) = false → v.checked.contains q.out = true → drainTypes q a t none = true →
        let store := icPut (markChecked s.dev e q.out) e v.handle v.gen (off / 1024) blk
        let is := items.map (·.1)
        ownPending v (tdSpan t is) = false → gaMissing store v.rbuf (tdHalves store t is) = [] →
        exec (.mDrain inst) s = .next (settle (fun _ d =>
          let d := icPut (markChecked d e q.out) e v.handle v.gen (off / 1024) blk
          drainMem (if q.mode = 3 then bump d else d) e inst v q t items) s)) ∧
      (q.fab = true → drainTypes q a t none = true →
        let held := fun d : Dev => icPut d e v.handle v.gen (off / 1024) blk
        drainChan (held s.dev) v q t ap items = stOk →
        exec (.mDrain inst) s = .next (settle (fun _ d => drainFab (held d) e inst v q t items) s)))

/-- R419, R421, R245: a tile that waits for its Collator counts in the windows of its MXE and of the Collator of its die. When
every compared check agrees, it is accepted: its accumulator takes the product. When a row or a column disagrees, the tile
keeps its place: the rerun and the third computation on the chosen engine begin, and both disagreement counters count it. While
the operands stand as they were read, the result is the product with the positions that a fault has changed. An injected fault
(R439) disagrees at some position of its own. -/
def Obligations.CollatorDecides : Prop :=
  ∀ (inst : Nat) (wrong : List (Nat × Nat)) (flip : List Nat) (s : State) (v : Stream) (t : TileSt),
    stGet s.dev (ek 1 inst) = some v → v.tile = some t → t.rerun = false → mxeServes s.dev inst = false →
    let e := ek 1 inst
    let x := tileSeen s.dev v t wrong
    let d := unitOp (unitOp x.1 e (2 ^ 24) 1) (collKey (dieOf 1 inst)) (2 ^ 24) 1
    let bad := tileStrikes d t (tileBad t x.2 flip)
    ((tileAgain s.dev v t).after = t.after → x = (s.dev, accWrong t.after wrong)) ∧
    (bad = ([], []) →
      exec (.collatorTileCheck inst wrong flip) s = .next (settle (fun _ _ => tileAccept d e t x.2) s)) ∧
    (bad ≠ ([], []) →
      exec (.collatorTileCheck inst wrong flip) s = .next (settle (fun o _ =>
        stMod (pcAdd (pcAdd (bump d) (kEng e + 6) 1) kDisagree 1) e (fun u =>
          { u with tile := some { t with rerun := true, rows := bad.1, cols := bad.2, server := otherMxe o d inst } })) s))

/-- R420, R421, Table 15-3: after a disagreement, case 1 accepts the rerun R2 and counts one event against the MXE; case 2
accepts the third computation R3, counts two and captures the specimen; case 3, R2 and R3 equal bit for bit, accepts R2 after
the Collator's own test where one can be made, counts one against the Collator, and captures the specimen when that test
passes; case 4 accepts nothing and faults the stream with ST_MX_UNRESOLVED. -/
def Obligations.RecomputationDecides : Prop :=
  ∀ (inst katFail : Nat) (w2 w3 : List (Nat × Nat)) (f2 f3 : List Nat) (s : State) (v : Stream) (t : TileSt),
    stGet s.dev (ek 1 inst) = some v → v.tile = some t → t.rerun = true →
    let e := ek 1 inst
    let die := dieOf 1 inst
    let u := (tileRerun s.dev v t w2).1
    let r2 := (tileRerun s.dev v t w2).2
    let r3 := (tileRerun s.dev v t w3).2
    let d := if u.after = t.after then s.dev else bump s.dev
    let ev := fun (o : Otp) u th n => if t.injected = true then d else unitEvent o d u th n
    (tileAgrees u r2 f2 = true →
      exec (.tileRecomputeComplete inst w2 w3 f2 f3 katFail) s =
        .next (settle (fun o _ => tileAccept (caseLog (ev o e 3 1) t 1 1 1 e stOk []) e t r2) s)) ∧
    (tileAgrees u r2 f2 = false → t.server.isSome = true → tileAgrees u r3 f3 = true →
      exec (.tileRecomputeComplete inst w2 w3 f2 f3 katFail) s =
        .next (settle (fun o _ => tileAccept (captureLog (ev o e 3 2) t 2 1 e (specHead t 2 ++ u.spec)) e t r3) s)) ∧
    (tileAgrees u r2 f2 = false → t.server.isSome = true → tileAgrees u r3 f3 = false → r2 = r3 →
      exec (.tileRecomputeComplete inst w2 w3 f2 f3 katFail) s =
        .next (settle (fun o _ =>
          let k := collKat o (ev o (collKey die) 2 1) die katFail
          tileAccept (if katOk o d = true ∧ katFail < 2 then captureLog k t 3 2 die (specHead t 3 ++ u.spec)
            else caseLog k t 3 1 2 die stOk []) e t r2) s)) ∧
    (tileAgrees u r2 f2 = false → (t.server = none ∨ tileAgrees u r3 f3 = false ∧ r2 ≠ r3) →
      exec (.tileRecomputeComplete inst w2 w3 f2 f3 katFail) s =
        .next (settle (fun _ _ => stFault (caseLog d t 4 3 1 e stMxUnresolved []) e stMxUnresolved) s))

/-! ### Embedding lookup (chapter 6) -/

/-- R168, R171, R173 to R179, R187: an E_LOOKUP at the front, with its bindings bound, its output through the write checks and
its offsets, indices and weights at hand; what the hub holds of its table is read. A failing check of Table 6-13 faults the stream with the first status; an index out
of range under FAULT faults it with ST_EMB_RANGE and its position goes to EBE_RANGE_POS; else every index is classified and
counted, the summary register is written, and each distinct row of each window is asked for once. -/
def Obligations.LookupIssues : Prop :=
  ∀ (inst : Nat) (s : State) (v : Stream) (sl : Slot) (rest : List Slot),
    Fronts s.otp s.dev (ek 3 inst) v sl rest → isEbe 0x20 sl = true →
    let e := ek 3 inst
    let w := sl.w
    let used := fun d : Dev => markChecked (elMarkBind (catUse d (elTable w)) e v w) e (elOut w)
    let d1 := used s.dev
    let st := firstBad ((!modeStoch (elMode w) || tdStochOk (elTd v (elOut w)), stTdShape) :: elChecks d1 v w)
    let ent := elEntry d1 v w
    let ps := elPositions d1 v w
    let cls := fun p : Nat × Nat => elClass ent (elIndex d1 v w p.2)
    (elBindings w).all (fun b => (stTd v b).isSome) = true → writeCheck (catUse s.dev (elTable w)) v (elOut w) = stOk →
    (st ≠ stOk → exec (.eLookup inst) s = .next (settle (fun _ d => stFault (used d) e st) s)) ∧
    (st = stOk → gaMissing d1 v.rbuf (elOfsRanges v w) = [] →
      gaMissing d1 v.rbuf (elRanges v (elIdx w) ps ++ (if elPool w = 4 then elRanges v (elWgt w) ps else [])) = [] →
      (∀ p, ps.find? (fun p => (cls p).1.isNone) = some p →
        exec (.eLookup inst) s = .next (settle (fun _ d =>
          stFault (pcAdd { used d with rangePos := smSet 0 (used d).rangePos (e % 32) p.2 } (kEng e + 3) ps.length) e stEmbRange) s)) ∧
      (let rows := ps.filterMap (fun p => match (cls p).1 with
          | some (c + 2) => some c
          | _ => none)
       (∀ p ∈ ps, (cls p).1.isSome) → elBar d1 ent rows = none →
        let zeros := (ps.filter (fun p => (cls p).1 == some 1)).length
        let pos := ps.map (fun p => (p.1, p.2, (cls p).1.getD 0))
        let any := (elBags v w).any (fun b => (elSpan d1 v w b).2.2) || ps.any (fun p => (cls p).2)
        exec (.eLookup inst) s = .next (settle (fun _ d =>
          let d := catMod (pcAdd (used d) (kEng e + 3) ps.length) (elTable w) (fun c =>
            { c with zeroHits := satAdd 32 c.zeroHits zeros, zeroSat := c.zeroSat || decide (2 ^ 32 ≤ c.zeroHits + zeros) })
          let d := pcAdd d (kEng e + 4) (elReads rows).length
          let d := elSummary d e w ⟨(pos.filter (fun p => decide (2 ≤ p.2.2))).length, elLongest d v w, any⟩
          let asked := elIssue d e v w ent (elReads rows)
          stMod asked.1 e (fun v => { v with look := some ⟨w, ent, pos, elReads rows, asked.2, [], []⟩ })) s)))

/-- R177, R178, R422, R424: with every row of an execution there, none of its output bytes in a write not yet acknowledged,
and no mismatch between the lanes but an injected one, its pooled values are written through the output tensor, and the slot ends when they are acknowledged; after one mismatch the recomputed values
are written, with one event against the engine; a second mismatch retires the engine and nothing is written. -/
def Obligations.LookupWritesItsOutputs : Prop :=
  ∀ (inst : Nat) (s : State) (v : Stream) (l : Look),
    stGet s.dev (ek 3 inst) = some v → v.look = some l → l.need = [] →
    ownPending v (tdSpan (elTd v (elOut l.word)) ((elOutputs s.dev v l).1.map (·.1))) = false →
    let e := ek 3 inst
    let write := fun d : Dev =>
      let d' := stMod (stFlags d e (elOutputs d v l).2) e (fun v => { v with look := none })
      slotWrote (tdWrite d' (elTd v (elOut l.word)) (elOutputs d v l).1 (.stream e)) e
    let count := fun d : Dev => laneOp d e none
    (exec (.eLookupRowsArrived inst 0) s = .next (settle (fun _ d => write (count d)) s)) ∧
    (exec (.eLookupRowsArrived inst 1) s =
      .next (settle (fun o d => write (unitEvent o (laneNote (count d) e none false) e 4 1)) s)) ∧
    (∀ n, exec (.eLookupRowsArrived inst (n + 2)) s = .next (settle (fun o d =>
      let d := laneNote (laneNote (count d) e none false) e none false
      stFault (if retired d e then d else retireUnit o d e) e stEngineRetired) s))

/-- R169, R180, R213, R214: the first local row read that has not been to the gates is refused with ST_EMB_GEN when no side
holds its generation, is held while its gates are closed, and else is served: the row comes from its hot slot or its home,
with its side entry, and goes to the lookup that asked while that still waits. A ROW_READ packet fares alike, and its answer
goes out as ROW_DATA. A held read is served when its gates open, and refused with ST_EMB_GATE when its wait expires. R180,
R365: the ROW_DATA packet that brings the last byte of a row read ends the read and hands the row to its lookup; one that
brings other bytes is kept with it. -/
def Obligations.RowReadsAreServed : Prop :=
  (∀ (s : State) (r : RowReq),
     (s.dev.rowReqs.find? (fun r => !r.held) = some r →
       let out := fun d : Dev => { d with rowReqs := d.rowReqs.erase r }
       (catByGen (catGet s.dev r.table) r.gen = none →
         exec (.rowRead true) s = .next (settle (fun _ d => rowRefuse (out d) r stEmbGen) s)) ∧
       ((catByGen (catGet s.dev r.table) r.gen).isSome → rowPasses s.otp s.dev r = false →
         exec (.rowRead true) s =
           .next (settle (fun _ d => { out d with rowReqs := (out d).rowReqs ++ [{ r with held := true }] }) s)) ∧
       (∀ sd en, catByGen (catGet s.dev r.table) r.gen = some sd → rowPasses s.otp s.dev r = true → r.engine = some en →
         s.dev.int.injects = [] →
         let ent := catSide (catGet s.dev r.table) sd
         let l := (cePlace ent r.row).2
         r.row < ceRows ent → mapped s.dev (rowHome ent l) (ceStride ent) = true →
         let got := rowBytes s.dev r.table sd r.row ent l
         let hit := fun d : Dev => if got.2 then pcAdd (out d) (kEng en + 5) 1 else out d
         (rowWanted s.dev en r = true → exec (.rowRead true) s =
           .next (settle (fun _ d => lookGot (hit d) en r.row (rowReply d ent got.1)) s)) ∧
         (rowWanted s.dev en r = false → exec (.rowRead true) s = .next (settle (fun _ d => hit d) s)))) ∧
     (∀ port p, inboxFind s.dev 0x10 = some (port, p) →
       let k := fld p.body 0 8
       exec (.rowRead false) s = .next (settle (fun o d => rowArrive o (takePkt d port p)
         ⟨none, (0, 0), p.src, p.tag, bits k 40 12, k % 2 ^ 40, fld p.body 8 2, fld p.payload 0 8, (fld p.body 10 1).testBit 0, false⟩) s)) ∧
     (s.dev.rowReqs.find? (fun r => r.held && rowPasses s.otp s.dev r) = some r →
       exec .rowGatePass s = .next (settle (fun o d => rowServe (bump (pcAdd { d with rowReqs := d.rowReqs.erase r }
         (kPair (rowPair o d r.table r.row) + 4) (Config.freeCount d.freeIdx).toNat)) r) s)) ∧
     (∀ n, (s.dev.rowReqs.filter (fun r => r.held && !rowPasses s.otp s.dev r))[n]? = some r →
       exec (.rowGateTimeout n) s = .next (settle (fun o d => rowRefuse (pcAdd { d with rowReqs := d.rowReqs.erase r }
         (kPair (rowPair o d r.table r.row) + 4) (2 ^ 26)) r stEmbGate) s))) ∧
  (∀ (s : State) (port : Nat) (p : Pkt) (x : Req) (e row : Nat) (v : Stream) (l : Look),
     inboxFind s.dev 0x11 = some (port, p) → reqGet s.dev p.tag = some x → x.issuer = .stream e → stGet s.dev e = some v →
     v.look = some l → l.tags.find? (fun t => t.1 == p.tag) = some (p.tag, row) →
     let ps := smGet [] l.parts p.tag ++ [(fld p.body 8 2, p.payload)]
     let bs := joinParts ps (ps.length + 1) []
     let keep := fun (d : Dev) parts => stMod d e (fun v => { v with look := some { l with parts := smSet [] l.parts p.tag parts } })
     (replyLen l.entry bs ≤ bs.length →
       exec .rowData s = .next (settle (fun _ d =>
         lookGot (reqSet (keep (takePkt d port p) []) p.tag none) e row (bs.take (replyLen l.entry bs))) s)) ∧
     (bs.length < replyLen l.entry bs →
       exec .rowData s = .next (settle (fun _ d => keep (takePkt d port p) ps) s)))

/-- R166, R167: DC_CAT_SWITCH and DC_EMB_BIND are performed as they are dispatched. DC_CAT_SWITCH arms a switch, disarms with
the step of all ones, or fails with the first status that applies. DC_EMB_BIND of the physical function takes every armed
switch that is due, records the active sides and advances CAT_LAST_STEP; a step below CAT_LAST_STEP gives ST_EMB_STEP; a
virtual function's bind only records. -/
def Obligations.SwitchesAndBinds : Prop :=
  ∀ (q : Nat) (s : State) (c : Cmd) (d' : Dev) (v : Queue) (r : Running),
    let b := r.cmd.body
    let sq := r.cmd.cseq.toNat
    let begun := runMod d' q sq (fun r => { r with started := true })
    let step := fld b 8 8
    (Dispatches s.dev q 0x22 c d' v r →
      let t := fld b 0 2 % 4096
      let d := catUse begun t
      let ok := switchTarget (catGet d t) (fld b 2 2)
      let arm := fun a => exec (.dcCatSwitch q) s =
        .next (settle (fun _ _ => cmdFinal (catMod d t (fun c => { c with armed := a })) q sq stOk 0) s)
      let fail := fun st => exec (.dcCatSwitch q) s = .next (settle (fun _ _ => cmdFinal d q sq st 0) s)
      (step = 2 ^ 64 - 1 → arm none) ∧
      (step ≠ 2 ^ 64 - 1 → ok ≠ stOk → fail ok) ∧
      (step ≠ 2 ^ 64 - 1 → ok = stOk → step ≤ d.catLastStep → fail stCatLate) ∧
      (step ≠ 2 ^ 64 - 1 → ok = stOk → d.catLastStep < step → arm (some (step, fld b 2 2)))) ∧
    (Dispatches s.dev q 0x20 c d' v r →
      let d := (begun.int.injects.map (·.index)).foldl catUse begun
      let key := v.owner * 16 + fld b 0 1 % 16
      let record := fun d : Dev => { d with binds := smSet bind0 d.binds key ⟨true, step, bindSides d⟩ }
      (v.owner ≠ 0 → exec (.dcEmbBind q) s = .next (settle (fun _ _ => cmdFinal (record d) q sq stOk 0) s)) ∧
      (v.owner = 0 → step < d.catLastStep →
        exec (.dcEmbBind q) s = .next (settle (fun _ _ => cmdFinal d q sq stEmbStep 0) s)) ∧
      (v.owner = 0 → d.catLastStep ≤ step →
        exec (.dcEmbBind q) s = .next (settle (fun _ _ =>
          cmdFinal (record { d with tables := d.tables.map (fun p => (p.1, takeSwitch step p.2)), catLastStep := step })
            q sq stOk 0) s)))

/-- R185, R186: DC_HRD_WRITE fails with ST_HRD_LIST or ST_ADDR_UNMAPPED, or removes in list order
and keeps its counts; the insert stage then inserts in list order and writes the result record. -/
def Obligations.HotRowsAreRewritten : Prop :=
  ∀ (q : Nat) (s : State) (v : Queue) (r : Running),
    let b := r.cmd.body
    let sq := r.cmd.cseq.toNat
    let begun := fun d : Dev => runMod d q sq (fun r => { r with started := true })
    let n := fld b 8 4
    let ops := (List.range n).map (hrdOp s.dev (fld b 0 8))
    let ok := isMul (fld b 0 8) 16 && isMul (fld b 16 8) 32 && isOwn s.dev (fld b 0 8) && isOwn s.dev (fld b 16 8) &&
      decide (1 ≤ n ∧ n ≤ 2 ^ 20)
    let there := mapped s.dev (localOf (fld b 0 8)) (16 * n) && mapped s.dev (localOf (fld b 16 8)) 32
    (fresh s.dev q (· == 0x21) = some (v, r) →
      (ok = false → exec (.dcHrdWrite q) s = .next (settle (fun _ d => cmdFinal (begun d) q sq stHrdList 0) s)) ∧
      (ok = true → there = false →
        exec (.dcHrdWrite q) s = .next (settle (fun _ d => cmdFinal (begun d) q sq stAddrUnmapped 0) s)) ∧
      (ok = true → there = true →
        exec (.dcHrdWrite q) s = .next (settle (fun _ d =>
          let x := (ops.filter (fun x => bits x 56 2 == 2)).foldl hrdRemoveOp (begun d, 0, 0)
          runMod x.1 q sq (fun r => { r with work := [x.2.1, x.2.2] })) s))) ∧
    (Awaits s.dev q v r (fun r => r.cmd.op == 0x21 && r.started) →
      let bad := (ops.filter (fun x => bits x 56 2 == 0 || bits x 56 2 == 3)).length
      exec (.hrdInsertStage q) s = .next (settle (fun _ d =>
        let x := (ops.filter (fun x => bits x 56 2 == 1)).foldl hrdInsertOp (d, 0, 0, 0, 0)
        cmdFinal (memWrite x.1 (localOf (fld b 16 8)) (sealRec (natLe 4 x.2.1 ++ natLe 4 (nth r.work 0) ++
          natLe 4 (nth r.work 1) ++ natLe 4 x.2.2.1 ++ natLe 4 x.2.2.2.1 ++ natLe 4 (x.2.2.2.2 + bad) ++ zeros 4))) q sq stOk 0) s))

/-! ### Sparse gradients and row updates (chapter 7) -/

/-- R192 to R199, R221: an E_ACCUM at the front. A stream of a virtual function faults with ST_RR_RESOURCE; a failing check
faults it with the first status, ST_COMB_STEP among them. With its indices, offsets, weights and
gradients at hand, it classifies its indices and folds the contributions into the combiner of its engine, which an EMPTY
directory opens with the step of the bind, and packs its records into the combiner and spill areas; the summary register gets the keys added, the keys held and the spilled flag. A
spill record that does not fit poisons the directory and faults the stream with ST_COMB_FULL. A frozen table folds nothing. -/
def Obligations.AccumulateFolds : Prop :=
  ∀ (inst : Nat) (s : State) (v : Stream) (sl : Slot) (rest : List Slot),
    Fronts s.otp s.dev (ek 3 inst) v sl rest → isEbe 0x30 sl = true →
    let e := ek 3 inst
    let w := sl.w
    let use := fun d : Dev => combUse d inst
    let c := combGet (use s.dev) inst
    let step := (smGet bind0 (use s.dev).binds (elBindKey v w)).step
    let d1 := elMarkBind (use s.dev) e v w
    let ent := elEntry d1 v w
    let ps := elPositions d1 v w
    let st := firstBad (elChecks d1 v w ++ [(c.state == 0 || c.step == step, stCombStep)])
    (v.fn ≠ 0 → exec (.eAccum inst 0) s = .next (settle (fun _ d => stFault (use d) e stRrResource) s)) ∧
    (v.fn = 0 → (elBindings w).all (fun b => (stTd v b).isSome) = true →
      (st ≠ stOk → exec (.eAccum inst 0) s = .next (settle (fun _ d => stFault (elMarkBind (use d) e v w) e st) s)) ∧
      (st = stOk → gaMissing d1 v.rbuf (elOfsRanges v w) = [] →
        gaMissing d1 v.rbuf (elRanges v (elIdx w) ps ++ (if elPool w = 4 then elRanges v (elWgt w) ps else []) ++
          eaRanges v w (ps.map (·.1)).eraseDups) = [] →
        exec (.eAccum inst 0) s = .next (settle (fun o d => elClassify (elMarkBind (use d) e v w) e v w ent (fun d pos _ =>
          laneRun o d e none 0 (fun d =>
            let frozen := cuRule ent == 0
            let c0 := if frozen || c.state != 0 then c else { c with state := 1, step := step }
            let f := eaFold d v w (ceGen ent) (ceDim ent) c0 (if frozen then [] else pos)
            let d := combPut (combSet d inst f.comb) c f.comb
            let d := pcAdd (pcAdd (stFlags d e f.fl) (kEng e + 7) f.contrib) (kEng e + 8) f.spilled
            if f.full then stFault d e stCombFull
            else slotDone (elSummary d e w ⟨f.added, f.comb.keys.length, f.comb.spilled⟩) e))) s)))

/-- R194, R198, R199: a contribution to a row that the directory holds adds no key and no spill record; the keys of the directory never exceed 1,048,576 when
they did not before, and the records held never exceed the combiner area and the spill area. -/
def Obligations.CombinerStaysInItsAreas : Prop :=
  ∀ (t gen row : Nat) (xs : List Nat) (f : Fold),
    f.comb.keys.length ≤ 1048576 → recsUsed f.comb.keys ≤ f.comb.areaSize → recsUsed f.comb.spills ≤ f.comb.spillSize →
    (∀ r ∈ f.comb.keys, r.table = t → r.row = row → r.cols.length = xs.length) →
    let g := (foldOne t gen f row xs).comb
    g.keys.length ≤ 1048576 ∧ recsUsed g.keys ≤ g.areaSize ∧ recsUsed g.spills ≤ g.spillSize ∧
      g.areaSize = f.comb.areaSize ∧ g.spillSize = f.comb.spillSize ∧
      (f.full = false → (∃ r ∈ f.comb.keys, r.table = t ∧ r.row = row) →
        g.keys.length = f.comb.keys.length ∧ g.spills = f.comb.spills)

/-- R202: DC_ROUTE_ROWS. A directory that is POISONED or open for another step gives ST_COMB_STATE, a bad result address
ST_COMB_RESULT, and nothing is sent; with RR_DISCARD it sends nothing, the directory becomes EMPTY and the result record is
written; else its records go to their owners, directory records first, and it is done at once when no owner is another
module. -/
def Obligations.RouteSendsRecords : Prop :=
  ∀ (q : Nat) (mms : List Nat) (s : State) (v : Queue) (r : Running),
    fresh s.dev q (· == 0x28) = some (v, r) →
    let b := r.cmd.body
    let sq := r.cmd.cseq.toNat
    let begun := fun d : Dev => combUse (runMod d q sq (fun r => { r with started := true })) (fld b 0 1 % 32)
    let d0 := begun s.dev
    let c := combGet d0 (fld b 0 1 % 32)
    let res := fld b 16 8
    let discard := (fld b 1 1).testBit 0
    let okState := discard || !(c.state == 2 || (c.state == 1 && c.step != fld b 8 8))
    let okRes := isMul res 32 && isOwn d0 res
    let okWin := windowOk d0 v.owner res 32 true
    let okMap := mapped d0 (localOf res) 32
    let fail := fun st => exec (.dcRouteRows ⟨q, mms⟩) s = .next (settle (fun _ d => cmdFinal (begun d) q sq st 0) s)
    let recs := c.keys ++ c.spills
    (okState = false → fail stCombState) ∧
    (okState = true → okRes = false → fail stCombResult) ∧
    (okState = true → okRes = true → okWin = false → fail stRrWindow) ∧
    (okState = true → okRes = true → okWin = true → okMap = false → fail stAddrUnmapped) ∧
    (okState = true → okRes = true → okWin = true → okMap = true →
      (discard = true ∨ ∀ x ∈ recs, let e := catEntry d0 x.table x.gen
        e = [] ∨ ceOwner d0 e x.row = ownCoord d0 ∨ remoteBar d0 (ceOwner d0 e x.row) = none) →
      exec (.dcRouteRows ⟨q, mms⟩) s = .next (settle (fun o d =>
        let d := runMod (begun d) q sq (fun v => { v with work := [0, 0, 0, 0, 0] })
        let d := if discard then d else ((List.range recs.length).zip recs).foldl (routeOne o q sq mms) d
        match (qGet d q).bind (fun v => runGet v sq) with
        | some r => if r.remote = [] then routeFinish d q r else d
        | none => d) s))

/-- R205, R206, R404, R405: a fragment that arrives is merged or dropped by its owner and acknowledged with its tag to the
module that it names; an acknowledgement at a relay goes on to both senders, unless the relay's entry is
lost, and one of a route is taken off the command. -/
def Obligations.FragmentsAreAcknowledged : Prop :=
  ∀ (s : State) (port : Nat) (p : Pkt),
    (inboxFind s.dev 0x30 = some (port, p) →
      exec .mrow s = .next (settle (fun o d =>
        let x := pubAccept o (bump (takePkt d port p)) p.src (fld p.body 0 2) (Config.freeMismatches (takePkt d port p).freeIdx) (recParse p.payload (fld p.body 2 1))
        sendNew x.1 0x31 (fld p.body 4 4 % 2 ^ 20) p.tag [if x.2 then 2 else 1] []) s)) ∧
    (inboxFind s.dev 0x31 = some (port, p) →
      (∀ r, smGet none s.dev.fab.relay p.tag = some r →
        let look := fun d : Dev =>
          let d := takePkt d port p
          ctlUse { d with fab := { d.fab with relay := smSet none d.fab.relay p.tag none } } 8 (16 + p.tag)
        ((look s.dev).2 = false → exec .mrowAck s = .next (settle (fun _ d =>
          sendNew (sendNew (look d).1 0x31 r.to1 r.tag1 p.body []) 0x31 r.to2 r.tag2 p.body []) s)) ∧
        ((look s.dev).2 = true → exec .mrowAck s = .next (settle (fun _ d => (look d).1) s))) ∧
      (∀ x q sq, smGet none s.dev.fab.relay p.tag = none → reqGet s.dev p.tag = some x → x.issuer = .cmd q sq →
        exec .mrowAck s =
          .next (settle (fun _ d => routeAck (reqSet (takePkt d port p) p.tag none) q sq p.tag (fld p.body 0 1 == 2)) s)))

/-- R210, R215, R217, R218: while a pair applies a step and its journal holds an entry, an entry of that step is applied to its
row: its pre-image goes to the journal, the record's merged values change the master, state, side entry, row and hot slot; the
entry is freed, and with the last one PUB_APPLIED becomes the step. A second fault leaves the pair's rows of the step
undefined and the step uncommitted (R219). -/
def Obligations.EntriesAreApplied : Prop :=
  ∀ (n i recov : Nat) (bad : Bool) (s : State) (a : Act) (e : PubEntry),
    s.dev.act = some a → (pubOf (pairGet s.dev n) a.step)[i]? = some e → (pairGet s.dev n).applying = true → a.kind ≠ 2 →
    0 < pairCap (pairGet s.dev n) → allReserved s.dev = true →
    let p := pairGet s.dev n
    let count := fun d : Dev => pcAdd d (kPair n + 3) recov
    let r := (pubRecord e).1
    let units := pairServe s.otp s.dev n
    let undo := spansRead s.dev (recPlaces s.dev r)
    let left := p.entries.erase e
    let fin := fun p : Pair =>
      if left.any (fun x => (pubKey x).2.2.2 == a.step) then { p with entries := left, rowsDone := p.rowsDone ++ undo }
      else { p with entries := left, rowsDone := [], applied := a.step, applying := false }
    (s.dev.int.injects = [] →
     let x := rowApply (journalPut (raiseFlags (count s.dev) (ek 3 units.1) (pubRecord e).2) p.jBase p.je (pairCap p)
       (rowImage (count s.dev) r)) r a.step a.clip
     let ent := catEntry s.dev r.table r.gen
     let audit := cuHasMaster ent && (cePlace ent r.row).2 % 64 == a.step % 64
     exec (.pubEntryApply n i recov bad false) s = .next (settle (fun o _ =>
       let d := raiseFlags x.1 (ek 4 units.2) x.2
       let d := if audit then unitOp d (ek 4 units.2) (2 ^ 24) 1 else d
       let d := if audit && bad then auditFault o d units.2 else d
       pcAdd (pairMod d n fin) (kPair n + 1) 1) s)) ∧
    (exec (.pubEntryApply n i recov bad true) s = .next (settle (fun _ d => pairLost (count d) n a.step a.clip) s))

/-! ### Dense updates and versions (chapter 10) -/

/-- R281: the reservation of a parameter at the committed version V. The slot that V does not resolve to is the target, with
bounds V + 1, when it is EMPTY or no reader holds it; else, on the first attempt, the slot that V resolves to is written in
place when late readers are allowed, the rule is not FACTORED, no exact acquire holds it and it stays within VER_STALE_MAX;
else the reservation waits. RESERVATION_GRANT grants the first that waits once step 1 applies, and those behind it. -/
def Obligations.ReservationsFollowTheSlots : Prop :=
  (∀ (d : Dev) (p : Param) (c : Nat) (x : VSlot) (waited : Bool),
    let v := d.verCommitted.toNat
    peResolve p v = some c → c ≤ 1 → peSlotSt p c = some x →
    let free := slotFree (peSlotSt p (1 - c)) = true
    (free → peReserve d p waited = some ({ peSlotSet p (1 - c) (some ⟨v + 1, v + 1, 0, 0⟩) with
      target := some (1 - c), src := c, inPlace := false, stats := false, tiles := 0, undo := [] }, false)) ∧
    (¬free → waited = false → d.staleMax ≠ 0 → peRule p ≠ 3 → x.exact = 0 → x.top + 1 - x.low ≤ d.staleMax →
      peReserve d p waited = some ({ peSlotSet p c (some { x with top := v + 1 }) with
        target := some c, src := c, inPlace := true, stats := false, tiles := 0, undo := [] }, true)) ∧
    (¬free → (waited = true ∨ d.staleMax = 0 ∨ peRule p = 3 ∨ x.exact ≠ 0 ∨ d.staleMax < x.top + 1 - x.low) →
      peReserve d p waited = none)) ∧
  (∀ (s : State) (a : Act) (n : Nat) (rest : List Nat) (p : Param),
    s.dev.act = some a → a.kind ≠ 2 → unreserved s.dev = n :: rest → paramGet s.dev n = some p →
    (peReserve s.dev p true).isSome →
    exec .reservationGrant s = .next (settle (fun _ d =>
      bump (pcAdd (reserveAll d true) kVerStall (Config.freeCount d.freeIdx).toNat)) s))

/-- R283 to R287, R292: once every reservation of the step is held, the next tile of a reserved parameter whose UPE has a journal
is applied: its pre-image goes to the journal, then come the statistics pass of FACTORED, and master, state and working copy of
the tile, with an audit when the parameter has a master and the tile an element that the step audits; its tile count advances.
A fault that defeats the restore leaves what the parameter's apply writes undefined and the step uncommitted. -/
def Obligations.TilesAreApplied : Prop :=
  ∀ (n recov : Nat) (bad : Bool) (s : State) (a : Act) (p : Param),
    s.dev.act = some a → paramGet s.dev n = some p → a.kind ≠ 2 → allReserved s.dev = true →
    p.target.isSome = true → p.tiles < peTiles p → s.dev.int.injects = [] →
    let j := smGet (0, 0, 0) s.dev.djAreas (peUpe p)
    j.2.1 ≠ 0 →
    let upe := ek 4 (peServe s.otp s.dev p)
    let count := fun d : Dev => pcAdd d (kEng upe + 4) recov
    (exec (.denseTileApply n recov bad false) s = .next (settle (fun o d =>
      let d := journalPut (count d) j.1 j.2.2 j.2.1 ((spansRead d (peImageSpans p)).flatMap (·.2))
      let st := if peRule p = 3 ∧ p.stats = false then peStats d p a.clip else (d, 0)
      let x := peTile st.1 p a.step a.clip
      let undo := spansRead d ((if peRule p = 3 ∧ p.stats = false then [peStatSpan p] else []) ++ peSpans p)
      let audit := peMaster p ≠ 0 ∧ a.step % 64 < min 1024 (peN p - 1024 * p.tiles)
      let d := raiseFlags x.1 upe (st.2 ||| x.2)
      let d := if audit then unitOp d upe (2 ^ 24) 1 else d
      let d := if audit ∧ bad = true then auditFault o d (upe % 32) else d
      pcAdd (paramSet d n (some { p with stats := true, tiles := p.tiles + 1, undo := p.undo ++ undo })) (kEng upe + 3) 1) s)) ∧
    (exec (.denseTileApply n recov bad true) s = .next (settle (fun _ d => peLost (count d) n p a) s))

/-- R278, R291: VC_COMMIT checks its form, its step and the module's leave to commit at dispatch, and then waits. When the
verdict of its step has been carried out on every pair and parameter, one write makes the step the last step and, on apply or
clip, adds one to VER_COMMITTED; a wait that expires before gives ST_VER_WAIT and changes nothing of the versions. -/
def Obligations.CommitPublishesAVersion : Prop :=
  ∀ (q : Nat) (s : State) (v : Queue) (r : Running), s.dev.int.injects = [] →
    let sq := r.cmd.cseq.toNat
    let begun := fun d : Dev => runMod d q sq (fun r => { r with started := true })
    (fresh s.dev q (· == 0x32) = some (v, r) → vcOp r = 1 →
      let next := vcArg r = s.dev.verLastStep.toNat + 1
      let fail := fun st => exec (.vcCommit q) s = .next (settle (fun _ d => cmdFinal (begun d) q sq st 0) s)
      (vcForm s.dev r = false → fail stVerParam) ∧
      (vcForm s.dev r = true → ¬next → fail stVerStep) ∧
      (vcForm s.dev r = true → next → s.dev.int.noCommit = true → fail stVerAbandon) ∧
      (vcForm s.dev r = true → next → s.dev.int.noCommit = false →
        exec (.vcCommit q) s = .next (settle (fun _ d => begun d) s))) ∧
    (Awaits s.dev q v r (vcWaits 1) →
      (∀ a, s.dev.act = some a → vcArg r = s.dev.verLastStep.toNat + 1 → s.dev.int.noCommit = false → a.step = vcArg r →
        a.lost = false → actDone s.otp s.dev a = true → (a.kind = 2 ∨ s.dev.verCommitted.toNat ≠ 2 ^ 64 - 1) →
        ∃ t, exec (.vcCommitAct q) s = .next t ∧ t.dev.act = none ∧ t.dev.verLastStep = BitVec.ofNat 64 a.step ∧
          t.dev.verCommitted = (if a.kind = 2 then s.dev.verCommitted else s.dev.verCommitted + 1) ∧
          t.dev.verLastKind = (if a.kind = 2 then 2 else 1) ∧ t.dev.mem = s.dev.mem ∧ t.dev.tallies = s.dev.tallies ∧
          t.dev.queues = (cmdFinal s.dev q sq stOk (if a.kind = 2 then 2 else 1)).queues) ∧
      (∀ st, vcOutcome s.otp s.dev r = some st → st ≠ stOk →
        exec (.vcCommitAct q) s = .next (settle (fun _ d => cmdFinal d q sq st 0) s)) ∧
      (vcOutcome s.otp s.dev r = none →
        exec (.vcCommitWaitExpiry q) s = .next (settle (fun _ d => cmdFinal d q sq stVerWait 0) s)))

/-- R279: VC_ACQUIRE of a version not above VER_COMMITTED acts at once, of a later one it waits, until that version is
committed or its wait expires with ST_VER_WAIT. The act gives ST_VER_GONE or ST_VER_READERS and changes no count, or adds one
to the counts of every slot that the version resolves to and writes the result array. VC_RELEASE takes one from the same
counts, or fails with ST_VER_RELEASE and changes none. -/
def Obligations.AcquiresAndReleases : Prop :=
  ∀ (q : Nat) (s : State) (v : Queue) (r : Running), s.dev.int.injects = [] →
    let sq := r.cmd.cseq.toNat
    let begun := fun d : Dev => runMod d q sq (fun r => { r with started := true })
    let res := fld r.cmd.body 16 8
    let n := fld r.cmd.body 6 2
    let there := vcForm s.dev r && (res == 0 || windowOk s.dev v.owner res (16 * n) true) &&
      (res == 0 || mapped s.dev (localOf res) (16 * n))
    let due := vcVersion s.dev r ≤ s.dev.verCommitted.toNat
    let ps := vcRange s.dev r
    (fresh s.dev q (· == 0x32) = some (v, r) → vcOp r = 2 → there = true →
      (due → exec (.vcAcquire q) s = .next (settle (fun _ d => acquireAct (begun d) q r) s)) ∧
      (¬due → exec (.vcAcquire q) s = .next (settle (fun _ d => begun d) s))) ∧
    (Awaits s.dev q v r (vcWaits 2) →
      (due → exec (.vcAcquireResolve q) s = .next (settle (fun _ d => acquireAct d q r) s)) ∧
      (¬due → exec (.vcAcquireWaitExpiry q) s = .next (settle (fun _ d => cmdFinal d q sq stVerWait 0) s))) ∧
    (let ver := vcVersion s.dev r
     ((∃ x ∈ ps, acqHas (vcExact r) ver (peFound x.2 ver) = false) → acquireAct s.dev q r = cmdFinal s.dev q sq stVerGone 0) ∧
     ((∀ x ∈ ps, acqHas (vcExact r) ver (peFound x.2 ver) = true) → (∃ x ∈ ps, acqRoom (vcExact r) (peFound x.2 ver) = false) →
        acquireAct s.dev q r = cmdFinal s.dev q sq stVerReaders 0) ∧
     ((∀ x ∈ ps, acqHas (vcExact r) ver (peFound x.2 ver) = true ∧ acqRoom (vcExact r) (peFound x.2 ver) = true) →
        let out := fun d : Dev => (List.range n).flatMap (fun i => match paramGet d (fld r.cmd.body 4 2 + i) with
          | some p => natLe 8 (peSlot p ((peResolve p ver).getD 0)) ++ natLe 8 ver
          | none => zeros 16)
        let d := ps.foldl (fun d x => paramSet d x.1 (some (peCount x.2 ver (fun y =>
          { y with readers := y.readers + 1, exact := y.exact + (vcExact r).toNat })))) s.dev
        acquireAct s.dev q r = cmdFinal (if res = 0 then d else memWrite d (localOf res) (out d)) q sq stOk 0)) ∧
    (fresh s.dev q (· == 0x32) = some (v, r) → vcOp r = 3 → vcForm s.dev r = true →
      let ver := vcArg r
      let held := fun x : Nat × Param => ver ≤ s.dev.verCommitted.toNat ∧ relHeld (vcExact r) (peFound x.2 ver) = true
      ((∃ x ∈ ps, ¬held x) →
        exec (.vcRelease q) s = .next (settle (fun _ d => cmdFinal (begun d) q sq stVerRelease 0) s)) ∧
      ((∀ x ∈ ps, held x) →
        exec (.vcRelease q) s = .next (settle (fun _ d => cmdFinal (ps.foldl (fun d y => paramSet d y.1
          (some (peCount y.2 ver (fun y => { y with readers := y.readers - 1, exact := y.exact - (vcExact r).toNat }))))
          (begun d)) q sq stOk 0) s)))

/-! ### Step control and the guard (chapter 11) -/

/-- R301, R302: the verdict of a total Q with NF and the vote. It is SKIP for the reasons of R301, in VD_REASON; else CLIP
with GD_CLIP_NORM / n when that norm is set and n exceeds it, else APPLY with 1.0; the record carries the step, n, NF and Q of
the total and its own CRC. -/
def Obligations.VerdictOfATotal : Prop :=
  ∀ (c : GuardCfg) (t : List Byte),
    let q := fld t 0 4
    let nf := fld t 4 4
    let n := sqrtF q
    let why := fld t 8 1 % 2 + (if nf = 0 then 0 else 2) + (if finF q then 0 else 4)
    let v := verdictOf c t
    sealOk 32 v = true ∧ v.length = 32 ∧ vdStep v = fld t 16 8 ∧ fld v 16 4 = n % 2 ^ 32 ∧ fld v 20 4 = nf ∧ fld v 24 4 = q ∧
      (why ≠ 0 → vdKind v = 2 ∧ fld v 9 1 = why ∧ fld v 12 4 = 0) ∧
      (why = 0 → ltF 0 c.skip = true → ltF c.skip n = true → vdKind v = 2 ∧ fld v 9 1 = 8 ∧ fld v 12 4 = 0) ∧
      (why = 0 → ¬(ltF 0 c.skip = true ∧ ltF c.skip n = true) →
        (ltF 0 c.clip = true → ltF c.clip n = true → vdKind v = 1 ∧ fld v 9 1 = 0 ∧ fld v 12 4 = divF c.clip n % 2 ^ 32) ∧
        (¬(ltF 0 c.clip = true ∧ ltF c.clip n = true) → vdKind v = 0 ∧ fld v 9 1 = 0 ∧ fld v 12 4 = oneF % 2 ^ 32))

/-- R296 to R300, R403: DC_NORM_SUBMIT fails with the first status of R296 that applies, or marks its step as submitted. The
partial norm of a submitted step then reads every item and raises its flags, marks the PUB entries that it read, writes its
record, ends the command and enters the reduction; a record of a child that carries its CRC and the guard's group enters it
too, and any other is dropped. -/
def Obligations.NormsAreReduced : Prop :=
  ∀ (q : Nat) (s : State) (v : Queue) (r : Running),
    let b := r.cmd.body
    let sq := r.cmd.cseq.toNat
    let begun := fun d : Dev => runMod d q sq (fun r => { r with started := true })
    let step := fld b 0 8
    let res := fld b 16 8
    let last := s.dev.verLastStep.toNat
    let st := firstBad [(s.dev.guard.cfg.isSome, stGuardConfig),
      (decide (fld b 8 1 < 2) && zeroAt b 9 7 && zeroAt b 24 24 && (res == 0 || (isMul res 32 && isOwn s.dev res)), stGuardParam),
      (step == last + 1, stGuardStep), (s.dev.guard.submitted != step, stGuardDup),
      (res == 0 || windowOk s.dev v.owner res 32 true, stRrWindow), (res == 0 || mapped s.dev (localOf res) 32, stAddrUnmapped)]
    (fresh s.dev q (· == 0x30) = some (v, r) →
      (st ≠ stOk → exec (.dcNormSubmit q) s = .next (settle (fun _ d => cmdFinal (begun d) q sq st 0) s)) ∧
      (st = stOk → exec (.dcNormSubmit q) s =
        .next (settle (fun _ d => guardMod (begun d) (fun g => { g with submitted := step })) s))) ∧
    (Awaits s.dev q v r (fun r => r.cmd.op == 0x30 && r.started) →
      let own := normOwn s.dev step (fld b 8 1)
      let seen := fun (d : Dev) (p : Pair) =>
        { p with entries := p.entries.map (fun e => { e with read := e.read || pubCounts d step e }) }
      exec (.partialNormComplete q) s = .next (settle (fun o d =>
        let d := (normFlags o d step).foldl (fun d x => raiseFlags d x.1 x.2) d
        let d := { d with pairs := d.pairs.map (fun x => (x.1, seen d x.2)) }
        let d := if res = 0 then d else memWrite d (localOf res) own
        let d := guardMod d (fun g => { g with normRead := max g.normRead step, drops := smSet 0 g.drops step 0 })
        normTake o (cmdFinal d q sq stOk 0) (ownCoord d) own) s)) ∧
    (∀ port p, inboxFind s.dev 0x38 = some (port, p) →
      (guardPacket s.dev p = true →
        exec .normUp s = .next (settle (fun o d => normTake o (takePkt d port p) p.src (p.payload.take 32)) s)) ∧
      (guardPacket s.dev p = false → exec .normUp s = .next (settle (fun _ d => takePkt d port p) s)))

/-- R303, R305, R210, R281, R307: a verdict that arrives for a step whose verdict the module does not hold and that was not
abandoned goes to every child of the tree, is kept among the last 16, counted by its kind, given to the commands that wait
for it, and acted on when it is the next step's and no hold is set. A second equal copy is dropped, one that differs is
logged as a control fault, and the verdict of an abandoned step is dropped, and logged if it is no SKIP; a packet that is not
the guard's is dropped. R304, R306: a module that has submitted a step and lacks its verdict asks up the tree, of which the
root has none, and at the limit logs ST_GUARD_LATE once, sends the vector when one is set and goes on waiting. A request is
answered with the kept verdict, or passed on up, and ends at the root. DC_VERDICT_WAIT gives the first status of R306 that
applies, completes at once with the kept verdict's record and kind, or waits; its expiry gives ST_GUARD_WAIT. -/
def Obligations.VerdictsAreDelivered : Prop :=
  (∀ (s : State) (port : Nat) (p : Pkt),
     inboxFind s.dev 0x39 = some (port, p) →
     let v := p.payload.take 32
     let aside := s.dev.guard.abandoned.contains (vdStep v)
     (guardPacket s.dev p = false → exec .verdict s = .next (settle (fun _ d => takePkt d port p) s)) ∧
     (guardPacket s.dev p = true →
       (∀ c, s.dev.guard.cfg = some c → aside = false → verdictFor s.dev (vdStep v) = none →
         exec .verdict s = .next (settle (fun o d =>
           keepVerdict o ((guardChildren d c).foldl (fun d x => sendNew d 0x39 x 0 (natLe 2 c.group) v) (takePkt d port p)) v) s)) ∧
       (aside = false → verdictFor s.dev (vdStep v) = some v →
         exec .verdict s = .next (settle (fun _ d => takePkt d port p) s)) ∧
       (∀ w, aside = false → verdictFor s.dev (vdStep v) = some w → w ≠ v → exec .verdict s =
         .next (settle (fun _ d => logRec (takePkt d port p) 3 3 11 0 0 stCtlLost 0 false []) s)) ∧
       (aside = true → vdKind v = 2 → exec .verdict s = .next (settle (fun _ d => takePkt d port p) s)) ∧
       (aside = true → vdKind v ≠ 2 →
         exec .verdict s = .next (settle (fun _ d => log6 (takePkt d port p) stGuardDropped 0 0) s)))) ∧
  (∀ (q port : Nat) (s : State) (v : Queue) (r : Running) (c : GuardCfg) (p : Pkt),
     let sq := r.cmd.cseq.toNat
     let begun := fun d : Dev => runMod d q sq (fun r => { r with started := true })
     let step := fld r.cmd.body 0 8
     let res := fld r.cmd.body 16 8
     let last := s.dev.verLastStep.toNat
     let held := verdictFor s.dev step
     let ask := fun (d : Dev) x n => sendNew d 0x3A x 0 (natLe 2 c.group ++ zeros 2 ++ natLe 8 n) []
     (s.dev.guard.cfg = some c → verdictMissing s.dev = true →
       (∀ x, guardParent s.dev c = some x → exec .verdictRequestTimer s =
         .next (settle (fun _ d => ask (pcAdd d (kGuard + 4) 1) x d.guard.submitted) s)) ∧
       (guardParent s.dev c = none → exec .verdictRequestTimer s = .next (settle (fun _ d => d) s))) ∧
     (s.dev.guard.late = true → exec .verdictLimitExpiry s = .next (settle (fun _ d => d) s)) ∧
     (verdictMissing s.dev = true → s.dev.guard.late = false →
       let logged := fun d : Dev => log6 (guardMod d (fun g => { g with late := true })) stGuardLate 0 0
       (s.dev.int.vector = 0xFFFF → exec .verdictLimitExpiry s = .next (settle (fun _ d => logged d) s)) ∧
       (s.dev.int.vector ≠ 0xFFFF →
         exec .verdictLimitExpiry s = .next (settle (fun _ d => msixSend (logged d) 0 d.int.vector.toNat) s))) ∧
     (inboxFind s.dev 0x3A = some (port, p) → s.dev.guard.cfg = some c →
       let asked := fld p.body 4 8
       let kept := (s.dev.guard.verdicts ++ s.dev.guard.computed).find? (fun r => vdStep r == asked)
       (∀ w, kept = some w → exec .verdictReq s =
         .next (settle (fun _ d => sendNew (takePkt d port p) 0x39 p.src 0 (natLe 2 c.group) w) s)) ∧
       (∀ x, kept = none → guardParent s.dev c = some x →
         exec .verdictReq s = .next (settle (fun _ d => ask (takePkt d port p) x asked) s)) ∧
       (kept = none → guardParent s.dev c = none →
         exec .verdictReq s = .next (settle (fun _ d => takePkt d port p) s))) ∧
     (fresh s.dev q (· == 0x31) = some (v, r) →
       let st := firstBad [(decide (step ≤ last + 1) && (decide (last < step) || held.isSome), stGuardStep),
         (res == 0 || windowOk s.dev v.owner res 32 true, stRrWindow), (res == 0 || mapped s.dev (localOf res) 32, stAddrUnmapped)]
       (st ≠ stOk → exec (.dcVerdictWait q) s = .next (settle (fun _ d => cmdFinal (begun d) q sq st 0) s)) ∧
       (st = stOk →
         (∀ x, held = some x → exec (.dcVerdictWait q) s = .next (settle (fun _ d =>
           cmdFinal (if res = 0 then begun d else memWrite (begun d) (localOf res) x) q sq stOk (vdKind x)) s)) ∧
         (held = none → exec (.dcVerdictWait q) s = .next (settle (fun _ d => begun d) s)))) ∧
     (Awaits s.dev q v r verdictWaits →
       exec (.verdictWaitExpiry q) s = .next (settle (fun _ d => cmdFinal d q sq stGuardWait 0) s)))

/-! ### Collectives (chapter 14) -/

/-- R390 to R392, R400 to R402: a DC_COLL whose form, group or area names a status fails with it; one whose descriptors are at
hand fails with ST_TD_CRC when a check code stays wrong, and with the first status of the later checks; none of these opens
anything. One that passes opens its channel: RSCAT for the drains and chunks to come; AGATHER with reads of at most 1,024
bytes of every other member's share and the own share locally; ALLTOALL, unless a send count is too large, with the blocks of
its send counts, its own block stored; BARRIER with the own token. -/
def Obligations.CollectivesOpen : Prop :=
  ∀ (q rr : Nat) (s : State) (v : Queue) (r : Running) (g : Group),
    let b := r.cmd.body
    let sq := r.cmd.cseq.toNat
    let n := clChan b
    let grp := smGet none s.dev.groups (fld b 4 2)
    let form := firstBad [(collForm s.dev b grp == stOk, collForm s.dev b grp),
      (recStatus s.dev v.owner (clRecs b) == stOk, recStatus s.dev v.owner (clRecs b))]
    let mine := cmdOwn s.dev r (clRecs b)
    let read := fun o d => collRead o (cmdHold d q r (clRecs b)) mine rr
    let begun := fun o d => runMod (read o d).1 q sq (fun x => { x with started := true, work := [2] })
    let now := begun s.otp s.dev
    let st := collStatus now v.owner mine g
    let c := chan0 q sq v.owner g b (clDst now mine) (clSrc now mine)
    let judged := form = stOk ∧ grp = some g ∧ gaMissing (cmdHold s.dev q r (clRecs b)) mine.rbuf (clRecs b) = []
    let fails := fun (i : Instr) =>
      (form ≠ stOk → exec i s = .next (settle (fun _ d => cmdFinal d q sq form 0) s)) ∧
      (judged → (read s.otp s.dev).2 = false →
        exec i s = .next (settle (fun o d => cmdFinal (read o d).1 q sq stTdCrc 0) s)) ∧
      (judged → (read s.otp s.dev).2 = true → st ≠ stOk →
        exec i s = .next (settle (fun o d => cmdFinal (begun o d) q sq st 0) s))
    let passes := judged ∧ (read s.otp s.dev).2 = true ∧ st = stOk
    let comes := fun (ops : Nat → Bool) =>
      Awaits s.dev q v r (fun r => r.cmd.op == 0x38 && ops (clOp r.cmd.body) && !collAtWork r)
    (comes (fun op => op != 2 && op != 3 && op != 4) →
      fails (.rscat ⟨q, rr⟩) ∧
      (passes → exec (.rscat ⟨q, rr⟩) s = .next (settle (fun o d => collStart (begun o d) n c) s))) ∧
    (comes (· == 2) →
      fails (.agather ⟨q, rr⟩) ∧
      (passes → collBar now c = none →
        exec (.agather ⟨q, rr⟩) s = .next (settle (fun o d =>
          let d := verUse (begun o d)
          let ver := gatherVer d b
          let me := chMe d c
          let own := sliceLen b me * gatherWidth c
          let others := (List.range (chP c)).filter (· != me)
          let d := collStart d n { c with left := pieces own, own := own }
          agSettle (gatherOwn n c ver (others.foldl (gatherAsk n c ver) d)) n) s))) ∧
    (comes (· == 3) →
      let counts := a2aCounts b (chP c)
      let keeps := cmdOwn now mine counts
      let held := fun o d => cmdHold (begun o d) q mine counts
      let cnt := a2aCount (held s.otp s.dev) keeps.rbuf b
      let bad := ∃ i < chP c, clN b < cnt i
      fails (.alltoall ⟨q, rr⟩) ∧
      (passes → gaMissing (held s.otp s.dev) keeps.rbuf counts = [] →
        (bad → exec (.alltoall ⟨q, rr⟩) s = .next (settle (fun o d => cmdFinal (held o d) q sq stCollShape 0) s)) ∧
        (¬bad → collBar (held s.otp s.dev) c = none → gaMissing (held s.otp s.dev) keeps.rbuf (a2aNeeds c cnt) = [] →
          exec (.alltoall ⟨q, rr⟩) s = .next (settle (fun o d =>
            let d := held o d
            let others := (List.range (chP c)).filter (· != chMe d c)
            a2aSettle (a2aOwn n keeps.rbuf cnt (others.foldl (a2aSend n c keeps.rbuf cnt) (collStart d n c)) c) n) s)))) ∧
    (rr = 0 → comes (· == 4) →
      fails (.barrier q) ∧
      (passes → collBar now c = none →
        exec (.barrier q) s = .next (settle (fun o d =>
          barToken (collStart (begun o d) n c) n (chMe (begun o d) c)) s)))

/-- R394, R396 to R399: an RS_CHUNK of the operation that its channel runs enters each of its chunks that is not a duplicate and
is acknowledged, or refused with ST_COLL_FULL when a chunk finds no table entry; one for a channel that is CLOSED or runs an
earlier operation is refused, one of a past operation is a stray. A packet without RS_ACK, or refused, is sent again; RS_ACK
takes it from the channel, which closes when nothing is left; the limit closes it with ST_COLL_WAIT. -/
def Obligations.ChunksAreReduced : Prop :=
  (∀ (s : State) (port : Nat) (p : Pkt),
    inboxFind s.dev 0x20 = some (port, p) →
    let d0 := fun d : Dev => takePkt d port p
    let n := fld p.body 6 1 % 16
    let m := chMatch s.dev n 1 (fld p.body 4 2)
    (∀ c i, chGet s.dev n = some c → m = 0 → boxIndex s.dev c.group.base c.group.ext p.src = some i →
      let took := fun d : Dev => (rsChunks c p).foldl (rsTake n i) (d0 d, 0, false)
      let counted := fun d : Dev => chMod (took d).1 n (fun c => { c with dup := c.dup + (took d).2.1 })
      ((chGet (counted s.dev) n).isSome = true → (took s.dev).2.2 = false → exec .rsChunk s = .next (settle (fun _ d =>
        rsSettle (sendNew (counted d) 0x21 p.src p.tag
          (p.body.take 8 ++ natLe 1 (if (took d).2.1 = 0 then 0 else 1)) []) n) s)) ∧
      ((chGet (counted s.dev) n).isSome = true → (took s.dev).2.2 = true → exec .rsChunk s = .next (settle (fun _ d =>
        rsSettle (sendRefuse (tableFull (counted d)) p stCollFull) n) s))) ∧
    (m = 1 → exec .rsChunk s = .next (settle (fun _ d => sendRefuse (d0 d) p stCollClosed) s)) ∧
    (m = 2 → exec .rsChunk s = .next (settle (fun _ d => pcAdd (d0 d) (kColl + 3) 1) s))) ∧
  (∀ (s : State) (port : Nat) (p : Pkt) (n : Nat) (r : Req),
    inboxFind s.dev 0x21 = some (port, p) → reqChan s.dev p.tag = some (n, r) → r.pkt.kind = 0x20 → r.pkt.dst = p.src →
    exec .rsAck s = .next (settle (fun _ d => rsSettle (chAnswered (takePkt d port p) n p.tag) n) s)) ∧
  (∀ (s : State) (t n : Nat) (r : Req),
    reqChan s.dev t = some (n, r) →
    let again := fun d : Dev => sendPkt (chMod (reqSet (pcAdd d (kColl + 2) 1) t (some { r with waiting := false })) n
      (fun c => { c with resent := c.resent + 1 })) r.pkt
    (r.waiting = false → r.pkt.kind = 0x20 → exec (.rsChunkAckTimeout t) s = .next (settle (fun _ d => again d) s)) ∧
    (r.waiting = true → exec (.collRefuseResend t) s = .next (settle (fun _ d => again d) s))) ∧
  (∀ (s : State) (n : Nat), exec (.collProgressLimit n) s = .next (settle (fun _ d => chEnd d n stCollWait) s))

/-- R277, R400 to R402: a versioned read is served when its version is committed, else held until it is (SHARD_READ_RESOLVE)
or its wait expires with ST_VER_WAIT; SHARD_DATA is stored at the offset asked for and ends the gather when it is the last. A
block of an all-to-all that names rows of the destination is stored from its row on and acknowledged, any other is rejected. A
token of a barrier is noted, and BAR_DOWN ends it here and goes to the children. -/
def Obligations.CollectivePacketsAct : Prop :=
  (∀ (s : State) (port : Nat) (p : Pkt),
    inboxFind s.dev 0x12 = some (port, p) →
    let r : ShardReq := ⟨none, p.src, p.tag, fld p.body 0 2, fld p.payload 0 8, fld p.body 4 8, fld p.body 2 2,
      (fld p.payload 8 1).testBit 0⟩
    (r.version ≤ s.dev.verCommitted.toNat →
      exec .shardRead s = .next (settle (fun _ d => shardServe (takePkt d port p) r) s)) ∧
    (s.dev.verCommitted.toNat < r.version → exec .shardRead s = .next (settle (fun _ d =>
      let d := takePkt d port p
      { d with shardReqs := d.shardReqs ++ [r] }) s))) ∧
  (∀ (s : State) (r : ShardReq),
    (s.dev.shardReqs.find? (fun r => decide (r.version ≤ s.dev.verCommitted.toNat)) = some r →
      exec .shardReadResolve s = .next (settle (fun _ d => shardServe { d with shardReqs := d.shardReqs.erase r } r) s)) ∧
    (∀ n, (s.dev.shardReqs.filter (fun r => decide (s.dev.verCommitted.toNat < r.version)))[n]? = some r →
      exec (.shardReadWaitExpiry n) s =
        .next (settle (fun _ d => shardRefuse { d with shardReqs := d.shardReqs.erase r } r stVerWait) s))) ∧
  (∀ (s : State) (port : Nat) (p : Pkt) (n : Nat) (r : Req),
    reqChan s.dev p.tag = some (n, r) →
    (inboxFind s.dev 0x13 = some (port, p) → exec .shardData s = .next (settle (fun _ d =>
      agSettle (agStore (chAnswered (takePkt d port p) n p.tag) n r.off (p.payload.take (fld p.body 2 2))) n) s)) ∧
    (inboxFind s.dev 0x29 = some (port, p) → r.pkt.kind = 0x28 → r.pkt.dst = p.src →
      exec .a2aAck s = .next (settle (fun _ d => a2aSettle (chAnswered (takePkt d port p) n p.tag) n) s))) ∧
  (∀ (s : State) (port : Nat) (p : Pkt) (c : Chan) (i : Nat),
    boxIndex s.dev c.group.base c.group.ext p.src = some i →
    (let n := fld p.body 6 1 % 16
     inboxFind s.dev 0x28 = some (port, p) → chGet s.dev n = some c → chMatch s.dev n 3 (fld p.body 4 2) = 0 →
      let first := fld p.body 0 4
      let all := fld p.body 8 4
      let k := fld p.body 6 2 / 16
      let rows := min (a2aRows (chDst c)) (all - first)
      (a2aForm c p = true → exec .a2aBlock s = .next (settle (fun _ d =>
        let d := chMod (a2aStore (takePkt d port p) n c i first k rows p.payload) n
          (fun c => a2aNote c i rows all (if k + 1 = a2aPieces (chDst c) then rows else 0))
        a2aSettle (sendNew d 0x29 p.src p.tag p.body []) n) s)) ∧
      (a2aForm c p = false → exec .a2aBlock s = .next (settle (fun _ d => pktBad (takePkt d port p) port) s))) ∧
    (let n := fld p.body 4 1 % 16
     chGet s.dev n = some c → chMatch s.dev n 4 (fld p.body 2 2) = 0 →
      (inboxFind s.dev 0x40 = some (port, p) →
        exec .barUp s = .next (settle (fun _ d => barToken (takePkt d port p) n i) s)) ∧
      (inboxFind s.dev 0x41 = some (port, p) →
        exec .barDown s = .next (settle (fun _ d =>
          (chChildren d c c.group.root).foldl
            (fun d i => (sendReq d 0x41 (chCoord d c i) (barBody c n) [] (.chan n) 0).1) (chEnd (takePkt d port p) n stOk)) s))))

/-! ### Command queues (chapter 5) -/

/-- R143 to R145, R147, R153: a doorbell of its owner is held when it reaches further than the one held and not beyond the
ring, which halts a RUNNING queue with ST_DB_RANGE; a completion doorbell of 1 to the records outstanding frees their entries;
what either makes ready is read from the ring. Units that pass the four checks are parsed, reserve a completion entry and advance the parse point; others start a back-off,
which ends in a re-fetch, and after the eighth re-fetch halt the queue with ST_STALE_RING. -/
def Obligations.RingsAreFetched : Prop :=
  ∀ (q : Nat) (s : State) (v : Queue),
    qGet s.dev q = some v →
    (∀ (fn : Nat) (val : W64), claimed s.dev fn = true → bits val.toNat 56 8 = q → v.owner = fn →
      let prod := BitVec.ofNat 24 (bits val.toNat 32 24)
      let n := bellDist v prod
      let further := 0 < n ∧ (∀ b sq, v.bell = some (b, sq) → bellDist v b < n)
      (further → n ≤ 2 ^ v.k → exec (.hubDqDoorbell fn val) s =
        .next (settle (fun _ d =>
          let w := { v with bell := some (prod, BitVec.ofNat 32 val.toNat) }
          fetchMore (qSet d q w) v w) s)) ∧
      (further → 2 ^ v.k < n → v.run = 1 → exec (.hubDqDoorbell fn val) s =
        .next (settle (fun _ d => qHaltNoCmd d q v stDbRange 0) s)) ∧
      (let cons := BitVec.ofNat 24 val.toNat
       let n := subMod (2 ^ 24) cons.toNat v.cqCons.toNat
       1 ≤ n → n ≤ subMod (2 ^ 24) v.cqIdx.toNat v.cqCons.toNat → exec (.hubDqCqDoorbell fn val) s =
        .next (settle (fun _ d =>
          let w := { v with cqCons := cons, cqFull := v.cqFull && cqFree { v with cqCons := cons } == 0 }
          if cqFree v = 0 then fetchFrom (qSet d q w) w else qSet d q w) s))) ∧
    (∀ (data : List Byte), s.dev.pow.phase = .hostReady → fetchable v = true → cqFree v ≠ 0 →
      let c := parseCmd s.otp s.dev q v data
      let v' := { v with refetch := 0, parsed := v.parsed ++ [c], count := v.count + 1, reserved := v.reserved + 1,
                         parsePt := v.parsePt + BitVec.ofNat 24 (bits c.ctl 0 2 + 1), parseSeq := v.parseSeq + 1 }
      (fetchOk v data = true → exec (.commandFetch q data) s = .next (settle (fun _ d =>
        let d := (breakHits d v q v.count c.tag c.cseq).foldl breakFire (pcAdd d kHostRx data.length)
        settleHead (qSet d q { v' with cqFull := cqFree v' == 0 }) q) s)) ∧
      (fetchOk v data = false → v.refetch < 8 → exec (.commandFetch q data) s = .next (settle (fun _ d =>
        qSet (pcAdd d kHostRx data.length) q { v with refetch := v.refetch + 1, backoff := true }) s)) ∧
      (fetchOk v data = false → 8 ≤ v.refetch → exec (.commandFetch q data) s = .next (settle (fun _ d =>
        qHaltNoCmd (pcAdd d kHostRx data.length) q v stStaleRing 9) s))) ∧
    (v.run = 1 → v.backoff = true → exec (.refetchBackoffExpiry q) s =
      .next (settle (fun _ d =>
        ringFetch (pcAdd (qSet d q { v with backoff := false }) (kQueue q) 1) v v.parsePt.toNat (min 4 (unitsLeft v))) s))

/-- R133, R137, R141, R149 to R152: the front end serves the queue that R151 names and dispatches its next command, or holds it
and halts the queue with ST_TALLY_SAT; a DC_EMB_BIND or DC_CAT_SWITCH waits there to be dispatched and performed in one act. A wait that is not met by its limit holds it with ST_WAIT_LIMIT. DC_NOP ends with ST_OK;
DC_INLINE writes its bytes, or fails on its window or address. A command whose status is final writes its record when that is
due, and a command that is done is ended. -/
def Obligations.CommandsRunAndEnd : Prop :=
  (∀ (q : Nat) (s : State) (v : Queue) (c : Cmd) (rest : List Cmd),
    qGet s.dev q = some v → v.parsed = c :: rest →
    (nextQueue s.dev = some q → cmdWait s.dev v c ≠ 2 → c.op ≠ 0x20 → c.op ≠ 0x22 →
      exec .commandDispatch s = .next (settle (fun _ d => dispatchHead d q v c rest) s)) ∧
    (nextQueue s.dev = some q → cmdWait s.dev v c ≠ 2 → (c.op = 0x20 ∨ c.op = 0x22) →
      exec .commandDispatch s = .next (settle (fun _ d => d) s)) ∧
    (nextQueue s.dev = some q → cmdWait s.dev v c = 2 →
      exec .commandDispatch s = .next (settle (fun _ d => holdFail d q v c stTallySat) s)) ∧
    (v.run = 1 → (cmdWait s.dev v c = 0 ∨ cmdWait s.dev v c = 1 ∧ bindReady s.dev v c = false) →
      exec (.dqWaitLimitExpiry q) s = .next (settle (fun _ d => holdFail d q v c stWaitLimit) s))) ∧
  (∀ (q : Nat) (s : State) (v : Queue) (r : Running),
    let sq := r.cmd.cseq.toNat
    let begun := fun d : Dev => runMod d q sq (fun r => { r with started := true })
    (fresh s.dev q (· == 0x00) = some (v, r) →
      exec (.dcNop q) s = .next (settle (fun _ d => cmdFinal (begun d) q sq stOk 0) s)) ∧
    (fresh s.dev q (· == 0x03) = some (v, r) →
      let dst := fld r.cmd.body 0 8
      let n := fld r.cmd.body 8 2
      (windowOk s.dev v.owner dst n true = false →
        exec (.dcInline q) s = .next (settle (fun _ d => cmdFinal (begun d) q sq stRrWindow 0) s)) ∧
      (windowOk s.dev v.owner dst n true = true → ownMapped s.dev dst n = false →
        exec (.dcInline q) s = .next (settle (fun _ d => cmdFinal (begun d) q sq stAddrUnmapped 0) s)) ∧
      (windowOk s.dev v.owner dst n true = true → ownMapped s.dev dst n = true →
        exec (.dcInline q) s = .next (settle (fun _ d =>
          cmdFinal (memWrite (begun d) (localOf dst) ((r.cmd.body.drop 16).take n)) q sq stOk 0) s)))) ∧
  (∀ (q : Nat) (sq : W32) (s : State) (v : Queue) (r : Running),
    qGet s.dev q = some v → runGet v sq.toNat = some r → r.final ≠ none →
    (runDone r = true → exec (.commandDone q sq) s = .next (settle (fun _ d => releaseDead (runEnd d q v r)) s)) ∧
    (runDone r = false → r.recorded = false → (r.final ≠ some stOk ∨ bits r.cmd.ctl 2 2 = 0) →
      exec (.commandDone q sq) s = .next (settle (fun _ d => releaseDead (runRecord d q r)) s)))

/-! ### Layout commands and DC_COPY (chapters 3 and 5) -/

/-- R77, R90, R93 to R97, R99, R139: a layout command or DC_COPY first reads its records, each once: it fails when one of them
is barred by its window or lies outside memory, with ST_TD_CRC when a CRC stays wrong, with the first status of Table 3-9
that applies, or, when the bytes it needs are at hand, runs: what its operation writes is written, its flags are raised, and
its status is ST_OK. -/
def Obligations.LayoutCommandsRun : Prop :=
  (∀ (op q rr : Nat) (i : Instr) (s : State) (v : Queue) (r : Running),
    (i, op) ∈ [(Instr.lyCopy q rr, 1), (.lyGather q rr, 2), (.lyScatter q rr, 3), (.lyList q rr, 4), (.lyFill q rr, 5)] →
    Awaits s.dev q v r (lyIs op) →
    let sq := r.cmd.cseq.toNat
    let read := fun (x : Dev × Running) recs => (cmdHold x.1 q x.2 recs, cmdOwn x.1 x.2 recs)
    let here := fun (x : Dev × Running) recs => gaMissing x.1 x.2.rbuf recs = []
    let ends := fun (d : Dev) st => exec i s = .next (settle (fun _ _ => cmdFinal d q sq st 0) s)
    let st0 := recStatus s.dev v.owner (lyRecs r op)
    let x1 := read (s.dev, r) (lyRecs r op)
    let bld := lyBldRec x1.1 x1.2 op
    let st1 := recStatus x1.1 v.owner bld
    let x2 := read x1 bld
    let rd := lyRead s.otp x2.1 x2.2 op rr
    let d3 := cmdJudged rd.1 q x2.2
    let blk := lyBlk d3 x2.2 op
    let a := lyArgs d3 x2.2 op
    let st2 := lyChecks d3 v.owner x2.2 a blk
    let x4 := read (d3, x2.2) (lyCnt a op blk)
    let st3 := lyListChecks x4.1 v.owner x4.2 a op blk
    let list := lyListReads x4.1 x4.2 a op blk
    let x5 := read x4 list
    let w := lyRun x5.1 x5.2 a op (.cmd q sq)
    (st0 ≠ stOk → ends s.dev st0) ∧
    (st0 = stOk → here x1 (lyRecs r op) →
      (st1 ≠ stOk → ends x1.1 st1) ∧
      (st1 = stOk → here x2 bld →
        (rd.2 = false → ends rd.1 stTdCrc) ∧
        (rd.2 = true →
          (st2 ≠ stOk → ends d3 st2) ∧
          (st2 = stOk → here x4 (lyCnt a op blk) →
            (st3 ≠ stOk → ends x4.1 st3) ∧
            (st3 = stOk → here x5 list → here x5 (lyReads x5.1 x5.2 a op) →
              exec i s = .next (settle (fun _ _ => cmdWritten w.1 q x5.2 w.2) s))))))) ∧
  (∀ (q rr : Nat) (s : State) (v : Queue) (r : Running),
    Awaits s.dev q v r (fun r => r.cmd.op == 0x02) →
    let sq := r.cmd.cseq.toNat
    let srcA := fld r.cmd.body 8 8
    let dstA := fld r.cmd.body 16 8
    let recs := [(srcA, 128), (dstA, 128)]
    let ends := fun (d : Dev) st => exec (.dcCopy q rr) s = .next (settle (fun _ _ => cmdFinal d q sq st 0) s)
    let st0 := recStatus s.dev v.owner recs
    let d1 := cmdHold s.dev q r recs
    let r1 := cmdOwn s.dev r recs
    let rd := if r1.work = [1] then (d1, true) else recsRead s.otp d1 r1 recs 0 rr
    let d2 := cmdJudged rd.1 q r1
    let src := tdParse (recAt d2 r1 srcA 128)
    let dst := tdParse (recAt d2 r1 dstA 128)
    let st := copyChecks d2 v.owner r1 src dst
    let items := (tdAll dst).map (fun i => (i, tdRead d2 r1.rbuf src i))
    (st0 ≠ stOk → ends s.dev st0) ∧
    (st0 = stOk → gaMissing d1 r1.rbuf recs = [] →
      (rd.2 = false → ends rd.1 stTdCrc) ∧
      (rd.2 = true →
        (st ≠ stOk → ends d2 st) ∧
        (st = stOk → gaMissing d2 r1.rbuf (tdRanges src (tdAll src)) = [] →
          exec (.dcCopy q rr) s = .next (settle (fun _ _ =>
            pcAdd (cmdWritten (tdWrite d2 dst items (.cmd q sq)) q r1 0) (kEng r1.engine + 3) (itemBytes dst items)) s)))))

/-! ### The passage plan (chapter 12) -/

/-- R343, R352: a DC_PLAN that its queue has not yet started begins its plan on its XFE when its body, its list, its
expectations and its result record pass the checks, with the expectations read once; else its status is the first of
ST_PLAN_PARAM, ST_RR_WINDOW and ST_ADDR_UNMAPPED that applies, no entry is run, and a result record that can be written says
so. -/
def Obligations.PlanStarts : Prop :=
  ∀ (q : Nat) (s : State) (v : Queue) (r : Running),
    fresh s.dev q (· == 0x05) = some (v, r) →
    let b := r.cmd.body
    let sq := r.cmd.cseq.toNat
    let begun := fun d : Dev => runMod d q sq (fun r => { r with started := true })
    let ok := planParam (begun s.dev) b
    let inside := windowOk (begun s.dev) v.owner (fld b 8 8) (32 * fld b 4 4) false &&
      (fld b 32 8 == 0 || windowOk (begun s.dev) v.owner (fld b 32 8) 32 false) &&
      (fld b 40 8 == 0 || windowOk (begun s.dev) v.owner (fld b 40 8) 32 true)
    let there := ownMapped (begun s.dev) (fld b 8 8) (32 * fld b 4 4) &&
      (fld b 32 8 == 0 || ownMapped (begun s.dev) (fld b 32 8) 32) &&
      (fld b 40 8 == 0 || ownMapped (begun s.dev) (fld b 40 8) 32)
    let exps := (List.range 8).map (fun i => if fld b 32 8 = 0 then 0
      else memNat (begun s.dev) (localOf (fld b 32 8) + 4 * i) 4)
    let tallies := (List.range 8).map (fun i => fld b (16 + 2 * i) 2)
    let res := fld b 40 8
    let told := res ≠ 0 ∧ isMul res 32 = true ∧ windowOk (begun s.dev) v.owner res 32 true = true ∧
      ownMapped (begun s.dev) res 32 = true
    let fails := fun st =>
      (told → exec (.dcPlan q) s = .next (settle (fun _ d =>
        cmdFinal (memWrite (begun d) (localOf res) (planRecord 0 0xFFFFFFFF 0 0)) q sq st 0) s)) ∧
      (¬told → exec (.dcPlan q) s = .next (settle (fun _ d => cmdFinal (begun d) q sq st 0) s))
    (ok = true → inside = true → there = true →
      exec (.dcPlan q) s = .next (settle (fun _ d => planSet (begun d) (r.engine % 32)
        ⟨q, sq, fld b 8 8, fld b 4 4, tallies, exps, res, 0, 0, 0, 0, [], [], [], 0, [], 0, [], [], []⟩) s)) ∧
    (ok = false → fails stPlanParam) ∧
    (ok = true → inside = false → fails stRrWindow) ∧
    (ok = true → inside = true → there = false → fails stAddrUnmapped)

/-- R345, Table 12-10: an entry that passes its checks and whose homes can be reached acts on its slots. A FILL from memory
of the module writes back what each slot holds of another page and copies its page in; EVICT writes back and empties, CLEAN
writes back, and DROP empties and discards; a COPY moves the source bytes of the module's own memory to the destination
there. The entry is then done. R341, R345 to R347: an entry whose home lies with a peer or in host memory waits for its
accesses. A FILL takes one slot after the other: it writes the slot back, then fetches the page, then puts it into the slot,
and is done with the last; an EVICT, once its write-backs are complete, empties its slots; a CLEAN is done. -/
def Obligations.PlanEntriesRun : Prop :=
  (∀ (x : Nat) (s : State) (p : Plan) (e : List Byte) (ob : MemObj),
     AtEntry s.dev x p e → entryBar s.dev e = none → objGet s.dev (fld e 2 2) = some ob → homeOwn s.dev ob = true →
     let n := fld e 2 2
     let slots := (List.range (fld e 12 4)).map (fun i => fld e 8 4 + i)
     let p' := { p with entry := e, phase := 1 }
     let begun := fun (o : Otp) (d : Dev) => planTouch (planSides o (planSet d x p') e) x e
     (fld e 0 1 = 1 → exec (.ppFill x 0) s = .next (settle (fun o d =>
       planDone ((fillNeeds ob e).foldl (fun d y =>
         match objGet d n with
         | some ob =>
           let d := planBack d x n ob y.1
           fillSlot d x n ob y.1 y.2 (gaRead d [] (homeAddr d ob (y.2 * 4096)) 4096)
         | none => d) (begun o d)) x) s)) ∧
     (fld e 0 1 = 2 → exec (.ppClean x 0) s = .next (settle (fun o d =>
       planGo (slots.foldl (fun d k => planBack d x n ob k) (begun o d)) x) s)) ∧
     (fld e 0 1 = 3 → exec (.ppEvict x 0) s = .next (settle (fun o d =>
       planGo (slots.foldl (fun d k => planBack d x n ob k) (begun o d)) x) s)) ∧
     (fld e 0 1 = 4 → exec (.ppDrop x 0) s = .next (settle (fun o d =>
       planDone (slots.foldl (fun d k => dirSet (cleanSlot d n k (dirtyLines d ob k)) n k 0) (begun o d)) x) s)) ∧
     (fld e 0 1 = 5 → ∀ ob', objGet s.dev (fld e 24 2) = some ob' → homeOwn s.dev ob' = true → p.remote = [] →
       p.hostWait = [] → p.flush = 0 →
       let src := homeAddr s.dev ob (fld e 8 8)
       let dst := homeAddr s.dev ob' (fld e 16 8)
       isOwn s.dev src = true → isOwn s.dev dst = true →
       exec (.ppCopy x 0) s = .next (settle (fun o d =>
         let d := begun o d
         let d := memWrite d (localOf dst) (gaRead d p.rbuf src (fld e 4 4))
         planDone (planSet (pcAdd d (kEng (ek 6 x) + 3) (fld e 4 4)) x { p' with phase := 2 }) x) s))) ∧
  (∀ (x : Nat) (s : State) (p : Plan) (e : List Byte) (ob : MemObj),
     objGet s.dev (fld e 2 2) = some ob →
     let n := fld e 2 2
     let slots := (List.range (fld e 12 4)).map (fun i => fld e 8 4 + i)
     let p' := { p with entry := e, phase := 1 }
     (AtEntry s.dev x p e → entryBar s.dev e = none → homeOwn s.dev ob = false → fld e 0 1 = 1 →
       exec (.ppFill x 0) s = .next (settle (fun o d =>
         fillNext (planTouch (planSides o (planSet d x p') e) x e) x n ob (fillNeeds ob e)) s)) ∧
     (planIdle p = true → p.entry = e → fld e 0 1 = 1 → planGet s.dev x = some p →
       (∀ slot page rest, p.phase = 1 → p.todo = (slot, page) :: rest →
         exec (.ppFill x 0) s = .next (settle (fun _ d => planFetch
           (planMod (planCleaned d x) x (fun p => { p with phase := 2, rbuf := [] })) x ob [(page * 4096, 4096)]) s)) ∧
       (∀ slot page rest ob', p.phase = 2 → p.todo = (slot, page) :: rest →
         let put := fun d : Dev => fillSlot d x n ob slot page (planBytes d p ob (page * 4096) 4096)
         objGet (put s.dev) n = some ob' →
         exec (.ppFill x 0) s = .next (settle (fun _ d => fillNext (put d) x n ob' rest) s)) ∧
       (p.phase = 1 → p.todo = [] → exec (.ppFill x 0) s = .next (settle (fun _ d => planDone d x) s))) ∧
     (planGet s.dev x = some p' → planIdle p' = true →
       (fld e 0 1 = 2 → exec (.ppClean x 0) s = .next (settle (fun _ d => planDone (planCleaned d x) x) s)) ∧
       (fld e 0 1 = 3 → exec (.ppEvict x 0) s =
         .next (settle (fun _ d => planDone (slots.foldl (fun d k => dirSet d n k 0) (planCleaned d x)) x) s))))

/-- R345, R346: a WAIT entry whose tally has reached its target is done, and AT_LEAST_ADV advances the expectation; one that
has not holds the plan, until a later count meets it or its limit ends the plan with ST_WAIT_LIMIT; a saturated tally ends
the plan with ST_TALLY_SAT. A SIGNAL entry is done at once: it adds its increment to its tally, and the last entry ends the plan. -/
def Obligations.PlanWaitsAndSignals : Prop :=
  ∀ (x : Nat) (s : State) (p : Plan) (e : List Byte),
    (AtEntry s.dev x p e →
      let p' := { p with entry := e, phase := 1 }
      let now := fun d : Dev => tallyLook (planSet d x p') (nth p.tallies (bits (fld e 4 4) 27 3))
      let t := planTest (now s.dev) { p with waitRes := 0 } e
      (fld e 0 1 = 6 → t = 1 → exec (.ppWait x 0) s = .next (settle (fun _ d => planMet (now d) x e) s)) ∧
      (fld e 0 1 = 6 → t = 2 → exec (.ppWait x 0) s = .next (settle (fun _ d => planFail (now d) x stTallySat) s)) ∧
      (fld e 0 1 = 6 → t = 0 → exec (.ppWait x 0) s =
        .next (settle (fun _ d => planMod (now d) x (fun p => { p with phase := 3, waitRes := 0 })) s)) ∧
      (fld e 0 1 = 7 →
        let added := fun d : Dev => tallyAdd (planSet d x p') (nth p.tallies (fld e 1 1 % 8)) (fld e 4 4)
        let later := { p with next := p.next + 1, phase := 0, entry := [], rbuf := [], waitRes := 0 }
        (p.next + 1 ≠ p.count → exec (.ppSignal x 0) s = .next (settle (fun _ d => planSet (added d) x later) s)) ∧
        (p.next + 1 = p.count → exec (.ppSignal x 0) s = .next (settle (fun _ d => planEnd (added d) x later stOk) s)))) ∧
    (planGet s.dev x = some p → p.phase = 3 →
      let t := planTest s.dev p p.entry
      let stall := fun d : Dev => bump (pcAdd d (kEng (ek 6 x) + 6) (Config.freeCount d.freeIdx).toNat)
      (t = 1 → exec (.planWaitMet x) s = .next (settle (fun _ d => planMet (stall d) x p.entry) s)) ∧
      (t = 2 → exec (.planWaitMet x) s = .next (settle (fun _ d => planFail (stall d) x stTallySat) s)) ∧
      (t = 0 → exec (.planWaitLimitExpiry x) s = .next (settle (fun _ d => planFail (stall d) x stWaitLimit) s)))

/-! ### Integrity, the Logbook and the Ledger's timer (chapters 15 and 19) -/

/-- R413, R428 to R430: DC_KAT runs the tests that it names, applies what they found to its unit, writes its record and ends
with ST_OK or ST_KAT_FAIL, or fails with the first status that keeps it from running; a due unit at rest runs its class's tests
in the same way. After a run the unit is no longer due, and a confirmed failure leaves it RETIRED. A scrub adds one to
INT_PC_CTLFIX for each one-bit error and treats each worse one as lost. -/
def Obligations.KnownAnswersAndScrub : Prop :=
  (∀ (q : Nat) (bad : List (Nat × Nat)) (s : State) (v : Queue) (r : Running),
    fresh s.dev q (· == 0x40) = some (v, r) →
    let sq := r.cmd.cseq.toNat
    let begun := fun d : Dev => runMod d q sq (fun r => { r with started := true })
    exec (.dcKat q bad) s = .next (settle (fun o d =>
      let st := katStatus o d r
      let k := katFind (katTests d r) bad
      let res := fld r.cmd.body 8 8
      let d' := katApply o (bump (begun d)) (katUnit r) k
      let written := katRecord d' k (Config.freeCount d.freeIdx).toNat
      if st ≠ stOk then cmdFinal (begun d) q sq st 0
      else cmdFinal (if res = 0 then d' else memWrite d' (localOf res) written) q sq
        (if k.confirmed then stKatFail else stOk) 0) s)) ∧
  (∀ (u : Nat) (bad : List (Nat × Nat)) (s : State),
    (unitGet s.dev u).due = true → engineBusy s.dev u = false →
    exec (.katDueRun u bad) s = .next (settle (fun o d =>
      if katOk o d = true then katApply o d u (katFind (List.range (katCount d u)) bad)
      else unitSet d u { unitGet d u with due := false }) s)) ∧
  (∀ (o : Otp) (d : Dev) (u : Nat) (k : KatRun),
    (unitGet (katApply o d u k) u).due = false ∧ (unitGet (katApply o d u k) u).lastKat = d.verLastStep ∧
    (k.confirmed = true → retired (katApply o d u k) u = true)) ∧
  (∀ (faults : List (Nat × Nat × Nat)) (s : State),
    let flips := s.dev.int.injects.filter (fun i => i.kind == 1 || i.kind == 2)
    exec (.scrubPass faults) s = .next (settle (fun _ d =>
      let d := { d with int := { d.int with injects := d.int.injects.filter (fun i => !(i.kind == 1 || i.kind == 2)) } }
      faults.foldl (fun d f => scrubOne d f.1 f.2.1 f.2.2 false)
        (flips.foldl (fun d i => scrubOne d i.unit i.index i.kind true) d)) s))

/-- R432, R433, R435, R436, R516: while the firmware runs, the oldest record waiting enters the ring, sends its vector when its
type has one, and goes out on the port; one of severity permanent or lost is due once more, with the repeat flag. A link that
comes up sends the records held. The module answers echo requests and solicitations for its own addresses. The next fragment of
the specimen held goes out when no record waits, and the last one releases it. The commit timer commits the Ledger. -/
def Obligations.RecordsAreSent : Prop :=
  ∀ (s : State), fwRuns s.dev = true →
    (∀ r t, s.dev.log.queued = r :: t →
      let vec := fun d : Dev => if 1 ≤ r.ltype ∧ r.ltype ≤ 3 ∧ d.int.vector ≠ 0xFFFF then msixSend d 0 d.int.vector.toNat else d
      let sent := fun (o : Otp) (d : Dev) => logSend o (vec (ringPut { d with log := { d.log with queued := t } } r)) r
      (r.flags % 4 < 2 → exec .logbookSend s = .next (settle (fun o d => sent o d) s)) ∧
      (2 ≤ r.flags % 4 → exec .logbookSend s = .next (settle (fun o d =>
        let d := sent o d
        { d with log := { d.log with repeats := d.log.repeats ++ [{ r with flags := r.flags ||| 8 }] } }) s))) ∧
    (∀ r t, s.dev.log.repeats = r :: t →
      exec .logbookRepeat s = .next (settle (fun o d => logSend o { d with log := { d.log with repeats := t } } r) s)) ∧
    (exec .managementLinkUp s = .next (settle (fun o d =>
      d.log.held.foldl (logSend o) { d with log := { d.log with linkUp := true, held := [] } }) s)) ∧
    (∀ src dst ident sqn data, s.dev.log.linkUp = true → (dst = logSource s.otp s.dev ∨ dst = linkLocal s.otp.mac) →
      exec (.icmpv6EchoRequest src dst ident sqn data) s =
        .next (settle (fun _ d => mgmtPut d (.echoReply src dst ident sqn data)) s) ∧
      exec (.neighborDiscovery src dst) s = .next (settle (fun o d => mgmtPut d (.advert src dst o.mac)) s)) ∧
    (∀ sp, s.dev.int.specimen = some sp → s.dev.log.queued = [] →
      let body := natLe 8 sp.number ++ natLe 4 sp.next ++ natLe 4 (specFrags sp) ++ natLe 8 (sp.next * 1000) ++
        (sp.bytes.drop (sp.next * 1000)).take 1000
      let rest := if sp.next + 1 < specFrags sp then some { sp with next := sp.next + 1 } else none
      exec .specimenFragmentSend s = .next (settle (fun o d =>
        let r : LogRec := ⟨4, 0, 9, 2, 0, 0, d.log.nextSeq, d.lg.stamp, Config.freeTime d.freeIdx, 0, body⟩
        let d := logSend o (bump { d with log := { d.log with nextSeq := d.log.nextSeq + 1 } }) r
        { d with int := { d.int with specimen := rest } }) s)) ∧
    (exec .ledgerCommitTimer s = .next (settle (fun o d => lgCommit o d) s))

/-! ### Rhumb (chapter 13) -/

/-- R360 to R362, R364 to R366, R375: on a port whose link is up, while it discards, only the tag that begins a replay is taken;
else a tag that passes its check is taken, any other asks for a replay. A packet in order is accepted and an idle tag
acknowledges it, unless its header is bad, or it is a discovery record that fails its own check, which ask for a replay; one out
of order is dropped. A replay request sends every unacknowledged packet again and retires the port at the eighth replay of
one. Corrected symbols and uncorrectable codewords retire a lane at their thresholds, loss of lock at once; loss of every lane
retrains. -/
def Obligations.LinksCarryPackets : Prop :=
  ∀ (p : Nat) (s : State), linkUp s.dev p = true →
    (∀ (t : W64) (rp : Bool),
      (linkDiscards s.dev p rp = true → exec (.linkTagReceive p ⟨t, rp⟩) s = .next (settle (fun _ d => d) s) ∧
        ∀ h payload, exec (.packetArrival p ⟨t, rp⟩ h payload) s = .next (settle (fun _ d => d) s)) ∧
      (linkDiscards s.dev p rp = false → tagOk t.toNat = true →
        exec (.linkTagReceive p ⟨t, rp⟩) s = .next (settle (fun _ d => takeTag (linkTakes d p) p t.toNat) s)) ∧
      (linkDiscards s.dev p rp = false → tagOk t.toNat = false →
        exec (.linkTagReceive p ⟨t, rp⟩) s = .next (settle (fun _ d => linkBad d p) s)) ∧
      (tagOk t.toNat = true → bits t.toNat 30 2 = 2 →
        let again := fun d : Dev => pcAdd (portMod (takeTag d p t.toNat) p replayAll) (kPort p + 4) 1
        let worn := (portGet (again s.dev) p).replay.any (fun x => decide (8 ≤ x.replays))
        (worn = false → exec (.replayRequest p t) s = .next (settle (fun _ d => again d) s)) ∧
        (worn = true → exec (.replayRequest p t) s = .next (settle (fun o d => portRetire o (again d) p) s)))) ∧
    (∀ (t : W64) (rp : Bool) (h payload : List Byte),
      linkDiscards s.dev p rp = false → tagOk t.toNat = true → bits t.toNat 30 2 = 0 →
      let d0 := fun d : Dev => takeTag (linkTakes d p) p t.toNat
      let next := bits t.toNat 48 16 = ((portGet (d0 s.dev) p).rxSeq + 1) % 65536
      let good := sealOk 32 h = true ∧ h.length = 32 ∧ payload.length = 64 * (fld h 1 1 % 32)
      let q := pktOf h payload
      let sound := kindLocal q.kind = true → recordOk q = true
      (¬next → exec (.packetArrival p ⟨t, rp⟩ h payload) s = .next (settle (fun _ d => d0 d) s)) ∧
      (next → ¬good → exec (.packetArrival p ⟨t, rp⟩ h payload) s =
        .next (settle (fun _ d => linkBad (pcAdd (d0 d) (kPort p + 5) 1) p) s)) ∧
      (next → good → ¬sound → exec (.packetArrival p ⟨t, rp⟩ h payload) s = .next (settle (fun _ d => linkBad (d0 d) p) s)) ∧
      (next → good → sound → exec (.packetArrival p ⟨t, rp⟩ h payload) s = .next (settle (fun _ d =>
        let d := portMod (d0 d) p (fun v => { v with rxSeq := (v.rxSeq + 1) % 65536 })
        sendTag (acceptPkt (pcAdd d (kPort p + 1) 1) p (hdrForm h) q) p 1) s))) ∧
    (∀ (n : Nat) (syms : List Nat), exec (.codewordCorrected p n syms) s = .next (settle (fun o d =>
      let d := portMod d p (fun v =>
        let v := cwAdvance v (n + 1)
        let hit := (List.range 4).filter (fun l => v.lanes.testBit l && nth syms l != 0)
        { v with fixAt := v.fixAt ++ hit.map (fun l => (v.cw, l, nth syms l)) })
      (List.range 4).foldl (fun d l => if 2 ^ 20 ≤ laneSymbols (portGet d p) l then laneRetire o d p l else d)
        (pcAdd d (kPort p + 2) 1)) s)) ∧
    (∀ n : Nat,
      (exec (.codewordUncorrectable p n false) s =
        .next (settle (fun _ d => linkBad (portMod d p (fun v => cwAdvance v n)) p) s)) ∧
      (let bad := fun d : Dev => pcAdd (portMod (portMod d p (fun v => cwAdvance v n)) p (fun v =>
          let v := cwAdvance v 1
          { v with badAt := v.badAt ++ [v.cw] })) (kPort p + 3) 1
       let v := portGet (bad s.dev) p
       (v.badAt.length < 32 → exec (.codewordUncorrectable p n true) s = .next (settle (fun _ d => linkBad (bad d) p) s)) ∧
       (32 ≤ v.badAt.length → exec (.codewordUncorrectable p n true) s = .next (settle (fun o d =>
         laneRetire o (portSet (bad d) p { v with badAt := [] }) p (worstLane v)) s)))) ∧
    (∀ lane, (portGet s.dev p).lanes.testBit lane = true →
      exec (.laneLossOfLock p lane) s = .next (settle (fun o d => laneRetire o d p lane) s)) ∧
    (exec (.portLinkLoss p) s = .next (settle (fun o d => portRetrain o d p) s))

/-- R374 to R380: a port in Sighting notes its partner's signal, and a SILENT one goes back to Sighting; trained lanes give the
length fix and send SIGHT; without signal the port falls SILENT, without training it retrains; an EXCLUDED port tries again. SIGHT
is kept as a fix, judged and answered with HAIL, an accepting HAIL with FIX, a good FIX with CHART; an excluding verdict or reason excludes
the leg; the CHART of a leg in CHARTING brings it into service, and what is newer in it goes into the view and on. -/
def Obligations.LegsAreDiscovered : Prop :=
  (∀ (p : Nat) (s : State),
    let v := portGet s.dev p
    (portPresent s.otp p = true →
      (v.state = 2 → exec (.partnerSignalDetect p) s = .next (settle (fun _ d => portSet d p { v with signal := true }) s)) ∧
      (v.state = 7 → exec (.partnerSignalDetect p) s = .next (settle (fun o d =>
        portMod (startSighting o d p) p (fun v => { v with signal := true })) s))) ∧
    (∀ lanes rtt, v.state = 2 → v.signal = true → v.trained = false →
      let mask := (((onesBelow 4 lanes).filter (fun l => !v.retiredLanes.testBit l)).map (2 ^ ·)).foldl (· + ·) 0
      let media := (smGet cage0 s.dev.sx.cages (p / 2)).media
      let len := legLength media rtt
      exec (.laneTrainingComplete p lanes rtt) s = .next (settle (fun o d =>
        let d := portSet d p { v with trained := true, lanes := mask, lenCm := len, media := media }
        let d := putFix d 6 p 0 (natLe 2 len ++ natLe 1 media ++ natLe 1 mask ++ natLe 4 rtt)
        sendLocal d p 0x60 (sightBytes o d p)) s)) ∧
    (v.state = 2 → v.signal = false →
      exec (.silentTimeout p) s = .next (settle (fun o d => portLeave o d p 7 0) s)) ∧
    (v.state = 2 → v.signal = true → v.trained = false →
      exec (.trainingTimeout p) s = .next (settle (fun o d => portRetrain o d p) s)) ∧
    (v.state = 8 → v.reason ≠ 0 →
      exec (.excludedRetry p) s = .next (settle (fun o d => startSighting o d p) s))) ∧
  (∀ (s : State) (p : Nat) (q : Pkt),
    let d0 := fun d : Dev => takePkt d p q
    let v := portGet (d0 s.dev) p
    let hail := fun (d : Dev) (r : Nat) (sight : List Byte) =>
      sendLocal d p 0x61 ([if r = 0 then 1 else 2, BitVec.ofNat 8 r, BitVec.ofNat 8 p, 0] ++ natLe 4 (fld sight 1 1) ++
        (sight.drop 8).take 8)
    (inboxFind s.dev 0x60 = some (p, q) → v.state = 2 → v.trained = true →
      let r := hailReason (d0 s.dev) p q.payload
      let answered := fun d : Dev => hail (putFix
        (portSet (d0 d) p { v with state := 3, partner := q.payload.take 60, reason := 0 }) 8 p 0 (q.payload.take 36)) r q.payload
      (r = 0 → exec .sight s = .next (settle (fun _ d => answered d) s)) ∧
      (r ≠ 0 → exec .sight s = .next (settle (fun o d => portLeave o (answered d) p 8 r) s))) ∧
    (inboxFind s.dev 0x61 = some (p, q) → 3 ≤ v.state → v.state ≤ 6 →
      (fld q.payload 0 1 = 2 → exec .hail s = .next (settle (fun o d => portLeave o (d0 d) p 8 (fld q.payload 1 1)) s)) ∧
      (fld q.payload 0 1 ≠ 2 → v.state = 3 → exec .hail s = .next (settle (fun _ d =>
        let d := d0 d
        sendLocal (portSet d p { v with state := 4 }) p 0x62
          (zeros 4 ++ natLe 4 (ownCoord d) ++ natLe 8 (bits d.pow.siteCode.toNat 20 20))) s))) ∧
    (inboxFind s.dev 0x62 = some (p, q) → v.state = 4 →
      let r := fixReason (d0 s.dev) p q.payload
      (r = 0 → exec .fix s = .next (settle (fun _ d =>
        sendLocal (portSet (d0 d) p { v with state := 5 }) p 0x63 (chartBytes (d0 d) (p / 4))) s)) ∧
      (r ≠ 0 → exec .fix s = .next (settle (fun o d => portLeave o (hail (d0 d) r v.partner) p 8 r) s))) ∧
    (inboxFind s.dev 0x63 = some (p, q) → (v.state = 5 ∨ v.state = 6) →
      let k := p / 4
      let old := (d0 s.dev).fab.rings.getD k ring0
      let new := chartMerge old q.payload
      let changed := fld q.payload 0 1 = k ∧ new ≠ old
      let seen := fun d : Dev => if changed then { d with fab := { d.fab with rings := setAt d.fab.rings k new } } else d
      exec .chart s = .next (settle (fun o d =>
        let d := seen (d0 d)
        let d := if v.state = 5 then
            settleReady o (pump (legReport (portMod d p (fun v => { v with state := 6 })) p true) p) else d
        if changed then chartAll d k p else d) s)))

/-- R367, R368, R371, R394, R398: a WRITE inside memory is performed and acknowledged, a READ answered, any other access refused
with ST_ADDR_UNMAPPED. An answer from the module asked leaves its issuer's list, with the bytes read. A refusal fails the
request, but a collective's packet refused for its channel or table is sent again; a returned request is sent again up to four times, or fails; one that stays
without an answer fails with ST_RH_TIMEOUT. -/
def Obligations.RemoteAccessesEnd : Prop :=
  (∀ (s : State) (port : Nat) (p : Pkt),
    let a := fld p.body 0 8
    let n := fld p.body 8 2
    let d0 := fun d : Dev => takePkt d port p
    let ok := rwForm p && mapped s.dev a n
    (inboxFind s.dev 0x01 = some (port, p) →
      (ok = true → exec .write s = .next (settle (fun _ d =>
        sendNew (memWrite (d0 d) a (p.payload.take n)) 0x02 p.src p.tag [] []) s)) ∧
      (ok = false → exec .write s = .next (settle (fun _ d => sendRefuse (d0 d) p stAddrUnmapped) s))) ∧
    (inboxFind s.dev 0x03 = some (port, p) →
      (ok = true → exec .read s = .next (settle (fun _ d => sendNew (d0 d) 0x04 p.src p.tag [] (memRead d a n)) s)) ∧
      (ok = false → exec .read s = .next (settle (fun _ d => sendRefuse (d0 d) p stAddrUnmapped) s))) ∧
    (∀ r, reqGet s.dev p.tag = some r → r.pkt.dst = p.src →
      (inboxFind s.dev 0x02 = some (port, p) → r.pkt.kind = 0x01 →
        exec .writeAck s = .next (settle (fun _ d => reqAnswered (d0 d) p.tag r []) s)) ∧
      (inboxFind s.dev 0x04 = some (port, p) → r.pkt.kind = 0x03 →
        exec .readData s = .next (settle (fun _ d => reqAnswered (d0 d) p.tag r (p.payload.take (fld r.pkt.body 8 2))) s)) ∧
      (inboxFind s.dev 0x05 = some (port, p) →
        let st := fld p.body 0 2
        let later := st = stCollClosed ∨ st = stCollFull
        (later → collKind r.pkt.kind = true →
          exec .refuse s = .next (settle (fun _ d => reqSet (d0 d) p.tag (some { r with waiting := true })) s)) ∧
        (later → collKind r.pkt.kind = false → exec .refuse s = .next (settle (fun _ d => d0 d) s)) ∧
        (¬later → exec .refuse s = .next (settle (fun _ d => reqFail (d0 d) p.tag r st) s)))) ∧
    (∀ r, inboxFind s.dev 0x06 = some (port, p) → reqGet s.dev p.tag = some r → r.pkt.kind = fld p.body 0 1 →
      let reason := fld p.body 1 1
      let again := r.pkt.kind = 0x20 ∨ (p.maybe = false ∧ (reason = 1 ∨ reason = 4) ∧ r.resends < 4)
      (again → exec .undeliverable s = .next (settle (fun _ d => reqSet (d0 d) p.tag (some { r with waiting := true })) s)) ∧
      (¬again → exec .undeliverable s = .next (settle (fun _ d =>
        reqFail (d0 d) p.tag r (if p.maybe = true then stRhLinkLost else stRhUnreach)) s)))) ∧
  (∀ (s : State) (t : Nat) (r : Req), reqGet s.dev t = some r →
    (r.waiting = true → (∀ n, r.issuer ≠ .chan n) → exec (.nopathResend t) s = .next (settle (fun _ d =>
      sendPkt (reqSet d t (some { r with waiting := false, resends := r.resends + 1 })) r.pkt) s)) ∧
    (r.waiting = true → ∀ n, r.issuer = .chan n → exec (.nopathResend t) s = .next (settle (fun _ d =>
      chResend d n t { r with resends := r.resends + 1 }) s)) ∧
    (r.pkt.kind ≠ 0x20 → r.pkt.kind ≠ 0x40 → r.pkt.kind ≠ 0x41 →
      exec (.rhRequestTimeout t) s = .next (settle (fun _ d => reqFail d t r stRhTimeout) s)))

/-! ### Host interface (chapter 16) -/

/-- R456 to R458, R558: a reset of a function removes its queues and ends their streams, empties its mailboxes and disables
its apertures; the queues of the others and the Reading Rooms are kept. A host-side reset does so for every function, clears VF
Enable and returns Reading Rooms, apertures and MSI-X to their reset values. Beside these, both change at most what the ended work
reaches: memory and its side-bands, objects, code objects' pins and cached blocks, packets, channels, plans and counters. A reset of the physical function, a hot reset, the loss of the link and the return from D3hot are host-side resets, a reset of an
enabled virtual function is one of it alone. PERST_N asserted takes the link down, deasserted it lets training begin; a link
that comes up stops the count of R458 and takes the PCIE fix. (No control-array error is injected, R436.) -/
def Obligations.HostSideResets : Prop :=
  (∀ d : Dev, d.int.injects = [] →
    let t := hostSideReset d
    HostKept d t ∧ (∀ q v, qGet d q = some v → v.owner < 8 → qGet t q = none) ∧
      (∀ e v, stGet t e = some v → ∀ w, qGet d v.queue = some w → 8 ≤ w.owner) ∧
      (∀ ch < 16, smGet mailbox0 t.mbox ch = mbxReturn (smGet mailbox0 d.mbox ch)) ∧
      t.rrAssign = [] ∧ t.rrWindows = [] ∧ t.rrTables = [] ∧ t.rrTallies = [] ∧ t.host.vfEnable = false ∧ t.host.numVfs = 0 ∧
      t.host.apertures = [] ∧ t.host.msix = [] ∧ t.host.msixEnable = [] ∧ t.host.msixFnMask = [] ∧ t.host.mse = [] ∧
      t.host.d3hot = [] ∧ t.host.dlUp = d.host.dlUp) ∧
  (∀ (d : Dev) (fn : Nat), d.int.injects = [] →
    let t := functionReset d fn
    HostKept d t ∧ (∀ q v, qGet d q = some v → v.owner = fn → qGet t q = none) ∧
      (∀ q v, qGet d q = some v → v.owner ≠ fn → qGet t q = some v) ∧
      (∀ e v, stGet t e = some v → stGet d e = some v ∧ ∀ w, qGet d v.queue = some w → w.owner ≠ fn) ∧
      (∀ ch, smGet mailbox0 t.mbox ch =
        if ch ∈ fnChannels fn then mbxReturn (smGet mailbox0 d.mbox ch) else smGet mailbox0 d.mbox ch) ∧
      t.rrAssign = d.rrAssign ∧ t.rrWindows = d.rrWindows ∧ t.rrTables = d.rrTables ∧ t.rrTallies = d.rrTallies ∧
      t.host = { d.host with apertures := d.host.apertures.filter (fun a => a.1 / 16 != fn),
                             d3hot := d.host.d3hot.filter (· != fn) }) ∧
  (∀ s : State,
    (s.dev.pow.phase = .hostReady → s.dev.host.dlUp = true →
      exec (.functionLevelReset 0) s = .next (settle (fun _ d => hostSideReset d) s)) ∧
    (∀ fn, fn ≠ 0 → s.dev.pow.phase = .hostReady → s.dev.host.dlUp = true → s.dev.host.vfEnable = true →
      fn ≤ s.dev.host.numVfs → exec (.functionLevelReset fn) s = .next (settle (fun _ d => functionReset d fn) s)) ∧
    (s.dev.host.dlUp = true → exec .hotReset s = .next (settle (fun _ d => hostSideReset d) s)) ∧
    (s.dev.host.d3hot.contains 0 = true → exec .d3hotToD0 s = .next (settle (fun _ d => hostSideReset d) s)) ∧
    (let down := fun d : Dev =>
       let d := hostSideReset (pcAdd d kHostDown 1)
       { d with host := { d.host with dlUp := false, counting := true, training := !d.pow.perst } }
     s.dev.host.dlUp = true →
       exec .linkDlDown s = .next (settle (fun _ d => down d) s) ∧
       exec .perstNAssert s = .next (settle (fun _ d =>
         let d := down { d with pow := { d.pow with perst := true } }
         { d with host := { d.host with training := false } }) s)) ∧
    (s.dev.host.dlUp = false → exec .perstNAssert s = .next (settle (fun _ d =>
      { d with pow := { d.pow with perst := true }, host := { d.host with training := false } }) s)) ∧
    (exec .perstNDeassert s = .next (settle (fun _ d =>
      { d with pow := { d.pow with perst := false }, host := { d.host with training := pcieRuns d && !d.host.dlUp } }) s)) ∧
    (∀ rate width flit rootRate rootWidth rootFlit, pcieRuns s.dev = true → s.dev.pow.perst = false → s.dev.host.dlUp = false →
      exec (.linkDlUp rate width flit rootRate rootWidth rootFlit) s = .next (settle (fun _ d =>
        putFix { d with host := { d.host with dlUp := true, everUp := true, counting := false, training := false, rate := rate,
                                              width := width, flit := flit } } 7 0 0
          (natLe 1 rootRate ++ natLe 1 rootWidth ++ natLe 1 rootFlit.toNat ++ natLe 1 rate ++ natLe 1 width)) s)))

/-- R456 to R458: the host's events complete. PERST_N asserted leaves the link down and no training, deasserted it lets a link that
is down train. The loss of the link, a hot reset, a reset of the physical function and the return from D3hot leave VF Enable clear
and no aperture, MSI-X entry, D3hot function or Reading Room window; the loss of the link starts the count of R458. A reset of an
enabled virtual function leaves it no aperture and out of D3hot. A link that comes up is up with its rate and width, and the count
stops. -/
def Obligations.HostEventsComplete : Prop :=
  ∀ s : State,
    let returned := fun t : State => t.dev.host.vfEnable = false ∧ t.dev.host.numVfs = 0 ∧ t.dev.host.apertures = [] ∧
      t.dev.host.msix = [] ∧ t.dev.host.mse = [] ∧ t.dev.host.d3hot = [] ∧ t.dev.rrWindows = []
    (∃ t, exec .perstNAssert s = .next t ∧ t.dev.host.dlUp = false ∧ t.dev.host.training = false ∧
      (s.dev.int.injects = [] → t.dev.pow.perst = true)) ∧
    (∃ t, exec .perstNDeassert s = .next t ∧ t.dev.pow.perst = false ∧
      t.dev.host.training = (pcieRuns s.dev && !s.dev.host.dlUp)) ∧
    (s.dev.host.d3hot.contains 0 = true → ∃ t, exec .d3hotToD0 s = .next t ∧ returned t) ∧
    (s.dev.host.dlUp = true →
      (∃ t, exec .hotReset s = .next t ∧ returned t) ∧
      (∃ t, exec .linkDlDown s = .next t ∧ returned t ∧ t.dev.host.dlUp = false ∧ t.dev.host.counting = true) ∧
      (s.dev.pow.phase = .hostReady →
        (∃ t, exec (.functionLevelReset 0) s = .next t ∧ returned t) ∧
        (∀ fn, fn ≠ 0 → s.dev.host.vfEnable = true → fn ≤ s.dev.host.numVfs → ∃ t, exec (.functionLevelReset fn) s = .next t ∧
          (∀ a ∈ t.dev.host.apertures, a.1 / 16 ≠ fn) ∧ t.dev.host.d3hot.contains fn = false))) ∧
    (∀ rate width flit rootRate rootWidth rootFlit, pcieRuns s.dev = true → s.dev.pow.perst = false → s.dev.host.dlUp = false →
      ∃ t, exec (.linkDlUp rate width flit rootRate rootWidth rootFlit) s = .next t ∧ t.dev.host.dlUp = true ∧
        t.dev.host.counting = false ∧ t.dev.host.rate = rate ∧ t.dev.host.width = width ∧ t.dev.host.flit = flit)

/-- R446 to R448, R450, R451, R458, R560: before host-ready a configuration request is retried; a function that is absent or has
no Memory Space Enable answers Unsupported Request; a BAR2 access that R448 allows reads or writes through its apertures, any
other reads 0xFF or is dropped, and is counted. DC_STAGE fails with the first status of R451, asks for its list, or moves. The
bytes of a read of host memory go to the ring fetch, stage or plan that asked, and a stage, a plan and an object take the answers of
their flushing reads; an aborted read and one that times out fail it, and halt the queue of a ring fetch. -/
def Obligations.HostRequests : Prop :=
  (∀ (s : State) (fn : Nat),
    (∀ op, s.dev.host.dlUp = true →
      (s.dev.pow.phase ≠ .hostReady →
        exec (.configurationRequest fn op) s = .next (settle (fun _ d => hostPut d (.cfgRetry fn)) s)) ∧
      (s.dev.pow.phase = .hostReady → fn ≠ 0 → ¬(s.dev.host.vfEnable = true ∧ fn ≤ s.dev.host.numVfs) →
        exec (.configurationRequest fn op) s = .next (settle (fun _ d => hostPut d (.unsupported fn)) s)) ∧
      (s.dev.pow.phase = .hostReady → (fn = 0 ∨ s.dev.host.vfEnable = true ∧ fn ≤ s.dev.host.numVfs) →
        (∀ reg, op = .read reg →
          exec (.configurationRequest fn op) s =
            .next (settle (fun o d => hostPut d (.cfgDone fn (cfgRead o d fn reg))) s)) ∧
        ((∀ reg, op ≠ .read reg) → exec (.configurationRequest fn op) s =
          .next (settle (fun _ d => hostPut (msixRelease (cfgWrite d fn op) fn) (.cfgDone fn 0)) s)))) ∧
    (s.dev.host.dlUp = true → claimed s.dev fn = false →
      exec (.unclaimedMemoryRequest fn) s = .next (settle (fun _ d => hostPut d (.unsupported fn)) s)) ∧
    (claimed s.dev fn = true → ∀ (off : Nat),
      (∀ len, (bar2Ok s.dev fn off len false = true → exec (.bar2Read fn off len) s = .next (settle (fun _ d =>
          pcAdd (hostPut d (.readDone fn ((bar2Parts off len).flatMap (fun p => memRead d (bar2Addr d fn p) p.2.2))))
            kHostTx len) s)) ∧
        (bar2Ok s.dev fn off len false = false → exec (.bar2Read fn off len) s = .next (settle (fun _ d =>
          pcAdd (hostPut (bar2Refuse d fn) (.readDone fn (List.replicate len 0xFF))) kHostTx len) s))) ∧
      (∀ data : List Byte,
        (bar2Ok s.dev fn off data.length true = true → exec (.bar2Write fn off data) s = .next (settle (fun _ d =>
          bar2Put (pcAdd d kHostRx data.length) fn (bar2Parts off data.length) data) s)) ∧
        (bar2Ok s.dev fn off data.length true = false → exec (.bar2Write fn off data) s = .next (settle (fun _ d =>
          bar2Refuse (pcAdd d kHostRx data.length) fn) s))))) ∧
  (∀ (s : State) (q : Nat) (v : Queue) (r : Running), fresh s.dev q (· == 0x04) = some (v, r) →
    let b := r.cmd.body
    let sq := r.cmd.cseq.toNat
    let begun := fun d : Dev => runMod d q sq (fun r => { r with started := true })
    let dev := fld b 16 8
    let n := fld b 4 4
    let toHost := (fld b 1 1).testBit 0
    let list := (fld b 1 1).testBit 1
    (stageParam s.dev b = false →
      exec (.dcStage q) s = .next (settle (fun _ d => cmdFinal (begun d) q sq stStageParam 0) s)) ∧
    (stageParam s.dev b = true → list = true → exec (.dcStage q) s = .next (settle (fun _ d =>
      stageAsk (runMod (begun d) q sq (fun r => { r with work := [0, 0] })) q sq v.owner
        (stageReads (fld b 8 8) 0 (16 * fld b 24 4))) s)) ∧
    (stageParam s.dev b = true → list = false →
      (windowOk s.dev v.owner dev n (!toHost) = false →
        exec (.dcStage q) s = .next (settle (fun _ d => cmdFinal (begun d) q sq stRrWindow 0) s)) ∧
      (windowOk s.dev v.owner dev n (!toHost) = true → ownMapped s.dev dev n = false →
        exec (.dcStage q) s = .next (settle (fun _ d => cmdFinal (begun d) q sq stAddrUnmapped 0) s)) ∧
      (windowOk s.dev v.owner dev n (!toHost) = true → ownMapped s.dev dev n = true →
        (toHost = true → exec (.dcStage q) s = .next (settle (fun _ d =>
          let d := begun d
          let d := hostWrite d v.owner (fld b 8 8) (memRead d (localOf dev + 0) n)
          let d := hostPut (stageCount d r n) (.memRead v.owner (fld b 8 8) 0)
          cmdFinal (runMod d q sq (fun r => { r with hostWrote := true })) q sq stOk 0) s)) ∧
        (toHost = false → exec (.dcStage q) s = .next (settle (fun _ d =>
          stageAsk (runMod (begun d) q sq (fun r => { r with work := [1, 0], rbuf := [] })) q sq v.owner
            (stageReads (fld b 8 8) 0 n)) s))))) ∧
  (∀ (s : State) (q sq n : Nat) (v : Queue) (r : Running) (x : Remote), stageWaits s.dev q sq n = some (v, r, x) →
    (∀ data : List Byte, data.length = x.len →
      exec (.hostReadCompletion (.stage q sq) n true data) s =
        .next (settle (fun _ d => stageData (pcAdd d kHostRx data.length) q sq v.owner r x data) s)) ∧
    (let failed := settle (fun _ d => stageAbort d q sq r) s
     (∀ data, exec (.hostReadCompletion (.stage q sq) n false data) s = .next failed) ∧
       exec (.hostReadTimeout (.stage q sq) n) s = .next failed)) ∧
  (∀ (s : State) (q n : Nat) (data : List Byte),
    exec (.hostReadCompletion (.ring q) n true data) s = exec (.commandFetch q data) s ∧
    exec (.hostReadCompletion (.ring q) n false data) s = .next (settle (fun _ d => fetchAbort d q) s) ∧
    exec (.hostReadTimeout (.ring q) n) s = .next (settle (fun _ d => fetchAbort d q) s)) ∧
  (∀ (s : State) (x n : Nat) (p : Plan) (h : Remote), planGet s.dev x = some p → p.hostWait[n]? = some h →
    (∀ data : List Byte, data.length = h.len → exec (.hostReadCompletion (.plan x) n true data) s =
      .next (settle (fun _ d => planMod (pcAdd d kHostRx data.length) x (fun p =>
        { p with hostWait := p.hostWait.eraseIdx n, rbuf := smSetList 0 p.rbuf h.addr (data.map (fun b => b.toNat + 1)) })) s)) ∧
    (∀ data, exec (.hostReadCompletion (.plan x) n false data) s = .next (settle (fun _ d => planFail d x stHostAbort) s)) ∧
    exec (.hostReadTimeout (.plan x) n) s = .next (settle (fun _ d => planFail d x stHostAbort) s)) ∧
  (∀ (s : State) (x n : Nat) (p : Plan) (data : List Byte), planGet s.dev x = some p → p.flush ≠ 0 →
    exec (.hostReadCompletion (.planFlush x) n true data) s =
      .next (settle (fun _ d => planMod d x (fun p => { p with flush := p.flush - 1 })) s) ∧
    exec (.hostReadCompletion (.planFlush x) n false data) s = .next (settle (fun _ d => planFail d x stHostAbort) s) ∧
    exec (.hostReadTimeout (.planFlush x) n) s = .next (settle (fun _ d => planFail d x stHostAbort) s)) ∧
  (∀ (s : State) (q sq n : Nat) (data : List Byte),
    let answered := fun (ok : Bool) (d : Dev) => runMod d q sq (fun r =>
      if r.hostWrote && !r.flushed then
        { r with flushed := true, final := if ok || r.recorded then r.final else some stHostAbort } else r)
    (∀ ok, exec (.hostReadCompletion (.stageFlush q sq) n ok data) s = .next (settle (fun _ d => answered ok d) s)) ∧
    exec (.hostReadTimeout (.stageFlush q sq) n) s = .next (settle (fun _ d => answered false d) s)) ∧
  (∀ (s : State) (i n : Nat) (data : List Byte),
    let answered := fun (ok : Bool) (d : Dev) => flushSettle { d with objs := smMod none d.objs i (fun x => x.map (fun ob =>
      if ob.flushing ≠ 0 then { ob with flushing := ob.flushing - 1, flushSt := if ok then ob.flushSt else stHostAbort }
      else ob)) } i
    (∀ ok, exec (.hostReadCompletion (.objFlush i) n ok data) s = .next (settle (fun _ d => answered ok d) s)) ∧
    exec (.hostReadTimeout (.objFlush i) n) s = .next (settle (fun _ d => answered false d) s))

/-! ### Mailboxes (chapter 17) -/

/-- R462, R464, R465, R471, R473, R474: in IDLE or DONE, MBX_RESET empties the mailbox and MBX_GO serves the request in its buffer;
otherwise MBX_GO sets MBX_OVERRUN and MBX_RESET does nothing. A register write reaches the buffer, the doorbells or the MSI-X
table, or clears MBX_OVERRUN or the refused-access bit; the window of an engaged debug lock reads zero and drops writes. A deferred
reply is written at its event, or with ST_MBX_TIMEOUT. While the MCTP endpoint is served it answers the four control messages. -/
def Obligations.MailboxRegistersAct : Prop :=
  (∀ (s : State) (fn mb ch : Nat) (vector : H16), claimed s.dev fn = true → mbxChannel fn mb = some ch →
    let put := fun d : Dev => mbxMod d ch (fun m => { m with vector := vector })
    let takes := (mbxGet s.dev ch).phase = 0 ∨ (mbxGet s.dev ch).phase = 2
    (takes → ∀ rr, exec (.mbxGo fn mb vector ⟨false, rr⟩) s =
      .next (settle (withFails rr (fun o d => mbxServe o (put d) ch)) s)) ∧
    (takes → ∀ rr, exec (.mbxGo fn mb vector ⟨true, rr⟩) s =
      .next (settle (withFails rr (fun _ d => mbxMod (put d) ch mbxClear)) s)) ∧
    (takes → exec (.mbxReset fn mb vector) s = .next (settle (fun _ d => mbxMod (put d) ch mbxClear) s)) ∧
    (¬takes → ∀ reset rr, exec (.mbxGo fn mb vector ⟨reset, rr⟩) s =
      .next (settle (withFails rr (fun _ d => mbxMod (put d) ch (fun m => { m with overrun := true }))) s)) ∧
    (¬takes → exec (.mbxReset fn mb vector) s = .next (settle (fun _ d => put d) s)) ∧
    (∀ val, mb < 16 → exec (.registerWrite fn (0x10000 + 4096 * mb + 8) 8 val) s = .next (settle (fun _ d =>
      mbxMod d ch (fun m => { m with overrun := m.overrun && !val.testBit 3 })) s)) ∧
    (∀ (x : Nat) (val : Nat), mb < 16 → 0x40 ≤ x → x < 4096 → x % 8 = 0 →
      exec (.registerWrite fn (0x10000 + 4096 * mb + x) 8 val) s =
        .next (settle (fun _ d => mbxBufWrite d ch (x - 0x40) (natLe 8 val)) s))) ∧
  (∀ (s : State) (fn : Nat) (val : Nat), claimed s.dev fn = true → val < 2 ^ 64 →
    exec (.registerWrite fn 0x20000 8 val) s = exec (.hubDqDoorbell fn (BitVec.ofNat 64 val)) s ∧
    exec (.registerWrite fn 0x20008 8 val) s = exec (.hubDqCqDoorbell fn (BitVec.ofNat 64 val)) s ∧
    (val.testBit 15 = true → exec (.registerWrite fn 0x50000 8 val) s = .next (settle (fun _ d =>
      { d with host := { d.host with refused := d.host.refused.filter (· != fn) } }) s)) ∧
    (∀ x, x < 16 * vectorCount fn → x % 8 = 0 → exec (.registerWrite fn (0x100000 + x) 8 val) s =
      .next (settle (fun _ d => msixWrite d fn x (natLe 8 val)) s))) ∧
  (∀ (s : State) (off width : Nat), claimed s.dev 0 = true → s.dev.sec.locked = true → inDebugWindow 0 off = true →
    exec (.debugWindowAccess 0 off width none) s =
      .next (settle (fun _ d => hostPut d (.readDone 0 (zeros width))) s) ∧
    (∀ v, exec (.debugWindowAccess 0 off width (some v)) s = .next (settle (fun _ d => d) s))) ∧
  (∀ (s : State) (ch : Nat) (b : Busy), (mbxGet s.dev ch).busy = some b →
    (∀ st p, deferDone s.otp s.dev b.wait = some (st, p) →
      exec (.mailboxDeferredReply ch) s = .next (settle (fun o d => mbxFinish o d ch b st p) s)) ∧
    exec (.mbxTimeout ch) s = .next (settle (fun o d => mbxFinish o d ch b stMbxTimeout []) s)) ∧
  (∀ (s : State) (iid : Nat), mctpServed s.dev = true →
    (∀ eid : Byte, eid ≠ 0 → eid ≠ 0xFF → exec (.mctpSetEndpointId iid eid) s =
      .next (settle (fun _ d => mctpAnswer { d with eid := eid } iid 1 [0, 0, eid, 0]) s)) ∧
    (∀ eid : Byte, (eid = 0 ∨ eid = 0xFF) → exec (.mctpSetEndpointId iid eid) s =
      .next (settle (fun _ d => mctpAnswer d iid 1 [2]) s)) ∧
    exec (.mctpGetEndpointId iid) s = .next (settle (fun _ d => mctpAnswer d iid 2 [0, d.eid, 0, 0]) s) ∧
    exec (.mctpGetMessageTypeSupport iid) s = .next (settle (fun _ d => mctpAnswer d iid 5 [0, 1, 0x7E]) s) ∧
    (∀ typ : Byte, exec (.mctpGetVersionSupport iid typ) s = .next (settle (fun _ d => mctpAnswer d iid 4
      (if typ = 0xFF ∨ typ = 0 ∨ typ = 0x7E
        then [0] ++ natLe 1 ((Config.mctpVersions typ.toNat).length / 4) ++ Config.mctpVersions typ.toNat else [0x80])) s)))

/-- R467 to R471, R561: a request that a sender forms, with the opcode and request length of Table 17-11, on a channel that takes
it and with the next sequence number, passes checks 1 to 6 of Table 17-5 as it was written; its own chapter's meaning runs, and
the reply of its status is written at once, or waits for the meaning's event. A length other than the message's is answered with
ST_MBX_LEN. -/
def Obligations.RequestsAreServed : Prop :=
  ∀ (i : Instr) (r : Request) (s : State), sentRequest i = some r →
    ∃ w : DzRow, dzFind r.op = some w ∧
      (r.accepted s.dev → dzOpen s.dev r.ch r.op r.payload = true →
        (r.payload.length ≠ w.len r.payload → exec i s = .next (settle (withFails (sentFails i) (fun o d =>
          mbxFinish o (r.taken d) r.ch r.busy stMbxLen [])) s)) ∧
        (r.payload.length = w.len r.payload → exec i s = .next (settle (withFails (sentFails i) (fun o d =>
          let x := w.run r.ch r.payload o (r.taken d)
          match x.wait with
          | none => recoveryAct o (mbxFinish o x.dev r.ch r.busy x.status x.payload) r.op x.status
          | some y => mbxMod x.dev r.ch (fun m => { m with busy := some { r.busy with wait := y, payload := [] } }))) s)))

/-! ### Sextant (chapter 18) -/

/-- R490 to R494, R510: a rail fix and a fix of every site are recorded and judged, and a voltage or current outside the fault
window in two consecutive fixes shuts the module down. A cage above its limit twice, or above 8 A once, is switched off and held
off. A plug that appears gives its cage the limit of its class plus 10 % at 3.3 V, and power unless it is held off; one that goes
takes the power away. A powered plug below 10 mA is open; one that draws more changes nothing. -/
def Obligations.FixesAreJudged : Prop :=
  ∀ s : State, s.dev.pow.phase ≠ .off →
    (∀ r uV mA, railOn s.otp r = true →
      let flags := fun d : Dev => (outside (railWarn d r) uV || decide (railLimit r < mA)).toNat +
        2 * (outside (railFault d r) uV || decide (railLimit r * 12 < mA * 10)).toNat
      let before := smGet rail0 s.dev.sx.rails r
      let fault := (outside (railFault s.dev r) uV = true ∧ before.lastFaultV = true) ∨
        (railLimit r * 12 < mA * 10 ∧ before.lastFaultI = true)
      let t := settle (fun o d => judgeRail o (putFix d 1 r (flags d) (railBody d r uV mA)) r uV mA) s
      exec (.railFix r uV mA) s = .next t ∧ (fault → t.dev.pow.shutdownPending = true) ∧ (¬fault → t.dev.pow = s.dev.pow)) ∧
    (∀ temps : List Int, temps.length = 200 → exec (.tempFix temps) s = .next (settle (fun o d =>
      accountStress o ((List.range 200).foldl (fun d i => judgeSite o d i (temps.getD i 0)) d) temps) s)) ∧
    (∀ c mA, cagePresent s.otp c = true →
      let v := smGet cage0 s.dev.sx.cages c
      let on := v.state = 1 ∨ v.state = 3
      let above := on ∧ v.limitMa < mA
      let trip := (above ∧ v.lastOver = true) ∨ (on ∧ 8000 < mA)
      let noted := fun (d : Dev) (b : Bool) => { d with sx := { d.sx with cages := smSet cage0 d.sx.cages c { v with lastOver := b } } }
      let fixed := fun (d : Dev) (flags : Nat) => putFix d 3 c flags (cageBody (smGet cage0 d.sx.cages c) mA)
      (trip → above → exec (.cageFix c mA) s =
        .next (settle (fun o d => fixed (cageDown o (log6 (noted d true) stSxCage 7 c) c 2 true) 3) s)) ∧
      (trip → ¬above → exec (.cageFix c mA) s =
        .next (settle (fun o d => fixed (cageDown o (log6 (noted d false) stSxCage 7 c) c 2 true) 2) s)) ∧
      (¬trip → above → exec (.cageFix c mA) s = .next (settle (fun _ d => fixed (noted d true) 1) s)) ∧
      (¬trip → ¬above → exec (.cageFix c mA) s = .next (settle (fun _ d => fixed (noted d false) 0) s)) ∧
      (∀ classMw media,
        let put := fun (d : Dev) (w : CageSt) => { d with sx := { d.sx with cages := smSet cage0 d.sx.cages c w } }
        let here := { v with plug := true, media := media, limitMa := classMw * 110 / 330, lastOver := false }
        let gone := { v with plug := false, media := 255 }
        (v.heldOff = false →
          exec (.plugPresentChange c true classMw media) s = .next (settle (fun o d =>
            plugReturn o (plugReturn o (put d { here with state := 1 }) (2 * c)) (2 * c + 1)) s) ∧
          exec (.plugPresentChange c false classMw media) s = .next (settle (fun o d => cageDown o (put d gone) c 0 false) s)) ∧
        (v.heldOff = true →
          exec (.plugPresentChange c true classMw media) s = .next (settle (fun _ d => put d here) s) ∧
          exec (.plugPresentChange c false classMw media) s =
            .next (settle (fun o d => cageDown o (put d gone) c v.state false) s))) ∧
      (v.state = 1 →
        (mA < 10 → exec (.plugReadyCheck c mA) s =
          .next (settle (fun o d => cageDown o (log6 d stSxCage 7 c) c 3 false) s)) ∧
        (10 ≤ mA → exec (.plugReadyCheck c mA) s = .next (settle (fun _ d => d) s))))

/-- R490, R499, R500: at the end of a control period every island group takes its next targets, its clock moves by at most one
operating point toward the lowest of them, and a period with an island below its maximum is counted. Before RHUMB_READY the hub
core runs at 1,800 MHz. -/
def Obligations.ClocksFollowTheirTargets : Prop :=
  (∀ s : State, (s.dev.pow.phase = .firmware ∨ s.dev.pow.phase = .hostReady) →
    let gs := (List.range 7).map (nextGroup s.dev)
    let counted := (List.range 7).any (fun g => decide ((gs.getD g ⟨0, 0, 0, 0, 0⟩).clock < (groupRange g).2.1))
    ∃ t, exec .controlLoopPeriod s = .next t ∧ t.dev.sx.groups = gs ∧
      t.dev.pcs = (if counted = true then (pcAdd s.dev kSxLimited 1).pcs else s.dev.pcs)) ∧
  (∀ (d : Dev) (g : Nat),
    let v := groupAt d g
    let w := nextGroup d g
    let low := min (min w.hostCap w.thermal) (min w.current w.power)
    w.hostCap = v.hostCap ∧ w.thermal = nextThermal d g ∧ w.current = nextCurrent d g ∧ w.power = nextPower d g ∧
      (g = 6 → d.fab.ready = false → w.clock = 1800) ∧
      (¬(g = 6 ∧ d.fab.ready = false) →
        (low < v.clock → w.clock = pointDown g v.clock) ∧ (v.clock < low → w.clock = pointUp g v.clock) ∧
        (low = v.clock → w.clock = v.clock)))

/-! ### Start-up and resets (chapter 21) -/

/-- R488, R491, R554: with the input and the phase off, the regulators start and the module waits in reset with PWR_GOOD, or a
rail that fails its step shuts it down without; the loss of the input, and the end of a shutdown, leave the flash alone of the
module, and a shutdown leaves the regulators latched. -/
def Obligations.PowerComesAndGoes : Prop :=
  (∀ s : State, s.dev.pow.vin = false → s.dev.pow.phase = .off →
    let up := fun (o : Otp) (d : Dev) =>
      let d := powerGone d true false
      { d with pow := { d.pow with phase := .inReset, modRst := true }, sx := { d.sx with capW := gradePower o } }
    let good := fun d : Dev => { d with pow := { d.pow with pwrGood := true } }
    exec (.powerOn none) s = .next (settle (fun o d => good (up o d)) s) ∧
    (∀ r, railOn s.otp r = false → exec (.powerOn (some r)) s = .next (settle (fun o d => good (up o d)) s)) ∧
    (∀ r, railOn s.otp r = true → ∃ t, exec (.powerOn (some r)) s = .next t ∧
      t.dev.pow.shutdownPending = true ∧ t.dev.pow.pwrGood = false ∧ t.dev.pow.phase = .inReset)) ∧
  (∀ s : State,
    exec .inputPowerLoss s = .next (settle (fun _ d => powerGone d false false) s) ∧
    (s.dev.pow.shutdownPending = true → exec .shutdownRailsOff s = .next (settle (fun _ d => powerGone d true true) s))) ∧
  (∀ (d : Dev) (vin latched : Bool),
    let t := powerGone d vin latched
    t.flash = d.flash ∧ t.mem = [] ∧ t.side = [] ∧ t.queues = [] ∧ t.streams = [] ∧ t.plans = [] ∧ t.objs = [] ∧ t.mbox = [] ∧
      t.pcs = [] ∧ t.tables = [] ∧ t.params = [] ∧ t.log = Dev.reset.log ∧ t.lg = Dev.reset.lg ∧ t.pow.phase = .off ∧
      t.pow.pwrGood = false ∧ t.pow.vin = vin ∧ t.pow.latched = latched)

/-- R458, R482, R486, R555 to R557: MOD_RST_N, a link that has stayed down and a firmware activation reset the module, which ends
all compute state and keeps memory, the flash, the Logbook and Sextant's fixes; the self-reset and the firmware activation commit the Ledger first. At the release of the input the straps are sampled and the
boot ROM runs; a failed self-test stops it, a slot that boots starts the firmware, which becomes host-ready with the mailboxes
IDLE if the flash meets its requirements, and, unless the site code is invalid, fixes the cages and starts Sighting on every
present port. -/
def Obligations.ModuleResetsAndStarts : Prop :=
  (∀ s : State,
    (s.dev.pow.phase ≠ .off → exec .moduleReset s = .next (settle (fun o d =>
      let d := moduleReset o d
      { d with pow := { d.pow with modRst := true } }) s)) ∧
    (s.dev.host.counting = true → s.dev.host.dlUp = false → pcieRuns s.dev = true →
      exec .dlDownSelfReset s = .next (settle (fun o d =>
        moduleReset o (lgCommit o (lgAdd o (log6 d stHostLost 7 0) 8 1))) s)) ∧
    (s.dev.pow.fwResetPending = true → exec .fwActivateReset s =
      .next (settle (fun o d => moduleReset o (lgCommit o d)) s)) ∧
    (∀ straps, s.dev.pow.pwrGood = true → s.dev.pow.phase = .inReset → s.dev.pow.shutdownPending = false →
      let out := fun d : Dev =>
        { d with pow := { d.pow with modRst := false, strap1 := straps, siteCode := straps.truncate 40 },
                 host := { d.host with training := !d.pow.perst } }
      (exec (.moduleResetRelease straps false) s =
        .next (settle (fun _ d => { out d with pow := { (out d).pow with phase := .bootFailed } }) s)) ∧
      exec (.moduleResetRelease straps true) s = .next (settle (fun o d =>
        let d := bootRom o (out d)
        if d.pow.phase = .firmware then firmwareStart o d else d) s)) ∧
    (∀ hbmStacks pkgs, s.dev.pow.phase = .firmware → s.dev.pow.shutdownPending = false →
      s.dev.flash.fits = true → ∃ t, exec (.hostReady hbmStacks pkgs) s = .next t ∧ t.dev.pow.phase = .hostReady ∧
        ∀ ch, ch < 16 → (mbxGet t.dev ch).phase = 0 ∧ (mbxGet t.dev ch).seqFree = true) ∧
    (∀ straps mAs, fwRuns s.dev = true → s.dev.pow.sighted = false →
      let begun := fun d : Dev => { d with pow := { d.pow with sighted := true, siteInvalid := siteBad d straps } }
      (siteBad s.dev straps = true → exec (.sightingStart ⟨straps, mAs⟩) s =
        .next (settle (fun _ d => log6 (begun d) stRhSite 7 0) s)) ∧
      (siteBad s.dev straps = false → exec (.sightingStart ⟨straps, mAs⟩) s = .next (settle (fun o d =>
        let d := (List.range 10).foldl (fun d c => cageFixDev c (nth mAs c) o d) (begun d)
        settleReady o ((List.range 20).foldl (fun d p =>
          if portPresent o p = false then legReport d p false
          else if (smGet cage0 d.sx.cages (p / 2)).state = 1 then startSighting o d p else plugLost o d p) d)) s)))) ∧
  (∀ (o : Otp) (d : Dev), d.act = none →
    let t := moduleReset o d
    t.mem = d.mem ∧ t.side = d.side ∧ t.flash = d.flash ∧ t.log = d.log ∧ t.sx.fixes = d.sx.fixes ∧ t.queues = [] ∧
      t.streams = [] ∧ t.plans = [] ∧ t.objs = [] ∧ t.mbox = [] ∧ t.tables = [] ∧ t.params = [] ∧ t.pow.phase = .inReset)

/-! ### Every step -/

/-- A step of a state whose queue has a command in front carries that command out on the rest of the queue; with an empty
queue it leaves the state as it is (log entry 1). No row of the table gives its command any bits, so no word puts a command
into the queue (log entry 5). -/
def Obligations.StepRunsTheFront : Prop :=
  (∀ (i : Instr) (s : State), step { s with pending := i :: s.pending } = exec i s) ∧
  (∀ s : State, s.pending = [] → step s = .next s) ∧
  (∀ (s : State) (nbits w : Nat), decodeTableWord nbits w = none ∧ s.withFetchWord nbits w = s)

/-- No command changes what waits behind it in the queue. -/
def Obligations.NoCommandTouchesTheQueue : Prop :=
  ∀ (i : Instr) (s t : State), exec i s = .next t → t.pending = s.pending

/-- Every command but an access of the debug window and a register write answers a next state in every state; those two answer
a next state or refuse, the refusal being that of the control range, whose registers the manual does not give, and never with
the lock engaged (R534). No command faults. -/
def Obligations.OnlyTheControlRangeStops : Prop :=
  (∀ (i : Instr) (s : State), GoesOn i → ∃ t, exec i s = .next t) ∧
  (∀ (i : Instr) (s : State), (∃ t, exec i s = .next t) ∨ exec i s = .refused .controlRange ∧ s.dev.sec.locked = false)

/-- Fuses go one way (R523, R533). Every step keeps a blown kill fuse, keeps the words programmed into the anti-rollback arrays
in their order, changes no other cell, and leaves the arrays within their sizes. -/
def Obligations.FusesGoOneWay : Prop :=
  ∀ s t : State, Steps s t → s.otp.Fits → s.otp.Extends t.otp ∧ t.otp.Fits

/-- The state after reset: the module is in reset, no command waits, nothing is listed in memory, which has its canonical form,
the fuse arrays fit, the debug lock is engaged (R534), no key is held (R537), the measurement registers are zero (R529), and no
queue, stream, code object or mailbox holds anything. -/
def Obligations.ResetMeetsTheInvariants : Prop :=
  State.reset.memOk ∧ State.reset.otp.Fits ∧ State.reset.pending = [] ∧ State.reset.dev.mem = [] ∧
    State.reset.dev.pow.phase = .inReset ∧ State.reset.dev.sec.locked = true ∧
    State.reset.dev.sec.udsCopy = none ∧ State.reset.dev.sec.identKey = none ∧ State.reset.dev.sec.aliasKey = none ∧
    State.reset.dev.sec.meas = List.replicate 8 0 ∧ State.reset.dev.queues = [] ∧ State.reset.dev.streams = [] ∧
    State.reset.dev.handles = [] ∧ State.reset.dev.mbox = []

/-- Device memory: after a write the bytes written read back, every byte outside reads as before, and the canonical form is
kept; a range made zero reads zero inside and as before outside; a byte left undefined holds that byte of what stood there or of
one of the values involved (R18), and every byte outside is as it was. -/
def Obligations.MemoryIsReadAsWritten : Prop :=
  ∀ (d : Dev) (a n : Nat) (bs : List Byte) (vs : List (List Byte)),
    memRead (memWrite d a bs) a bs.length = bs ∧
    (∀ x, (x < a ∨ a + bs.length ≤ x) → byteAt (memWrite d a bs) x = byteAt d x) ∧
    (∀ x, byteAt (memZero d a n) x = if a ≤ x ∧ x < a + n then 0 else byteAt d x) ∧
    (∀ i, i < n → ∃ v ∈ memRead d a n :: vs, byteAt (memMix d a n vs) (a + i) = v.getD i 0) ∧
    (∀ x, (x < a ∨ a + n ≤ x) → byteAt (memMix d a n vs) x = byteAt d x ∧ byteAt (memLoose d a n) x = byteAt d x) ∧
    (Memory.wf d.mem = true → Memory.wf (memWrite d a bs).mem = true ∧ Memory.wf (memZero d a n).mem = true ∧
      Memory.wf (memMix d a n vs).mem = true ∧ Memory.wf (memLoose d a n).mem = true)

end
end

