-- ==== Sys2Proof/Laws/Bits.lean ====
section
/-! SUPPORT. Bytes and fields: the length and the value of what is written, fields of joined records, and the seal that a
record carries. -/
namespace Sys2Proof

@[simp] theorem natLe_length (n x : Nat) : (natLe n x).length = n := by
  induction n generalizing x with
  | zero => rfl
  | succ n ih => simp [natLe, ih]

@[simp] theorem zeros_length (n : Nat) : (zeros n).length = n := by simp [zeros]

/-- The bytes of a number give it back, modulo their range. -/
@[simp] theorem leNat_natLe (n x : Nat) : leNat (natLe n x) = x % 256 ^ n := by
  induction n generalizing x with
  | zero => simp [natLe, leNat, Nat.mod_one]
  | succ n ih =>
    have h : x % 256 ^ (n + 1) = x % 256 + 256 * (x / 256 % 256 ^ n) := by
      rw [show 256 ^ (n + 1) = 256 * 256 ^ n from by rw [Nat.pow_succ, Nat.mul_comm]]
      exact Nat.mod_mul
    simp [natLe, leNat, ih, h]

/-- A field inside the first part of a record. -/
theorem fld_append_left {a b : List Byte} {off n : Nat} (h : off + n ≤ a.length) : fld (a ++ b) off n = fld a off n := by
  unfold fld
  rw [List.drop_append_of_le_length (by omega), List.take_append_of_le_length (by simp; omega)]

/-- A field behind the first part of a record. -/
theorem fld_append_right {a b : List Byte} {off n : Nat} (h : a.length ≤ off) :
    fld (a ++ b) off n = fld b (off - a.length) n := by
  unfold fld
  rw [List.drop_append]
  simp [List.drop_eq_nil_of_le h]

/-- The first field of a record that begins with the bytes of a number. -/
theorem fld_natLe_append (n x : Nat) (b : List Byte) : fld (natLe n x ++ b) 0 n = x % 256 ^ n := by
  rw [fld_append_left (by simp)]
  unfold fld
  rw [List.drop_zero, List.take_of_length_le (by simp)]
  exact leNat_natLe n x

theorem fld_natLe (n x : Nat) : fld (natLe n x) 0 n = x % 256 ^ n := by
  have := fld_natLe_append n x []
  rwa [List.append_nil] at this

theorem leNat_lt (l : List Byte) : leNat l < 256 ^ l.length := by
  induction l with
  | nil => simp [leNat]
  | cons b t ih =>
    have hb := b.isLt
    simp only [leNat, List.length_cons, Nat.pow_succ]
    omega

/-- A field of `n` bytes lies below 256^n. -/
theorem fld_lt (r : List Byte) (off n : Nat) : fld r off n < 256 ^ n :=
  Nat.lt_of_lt_of_le (leNat_lt _) (Nat.pow_le_pow_right (by decide) (by simp <;> omega))

theorem crcStep_lt {c : Nat} (h : c < 2 ^ 32) : crcStep c < 2 ^ 32 := by
  unfold crcStep
  split
  · exact Nat.xor_lt_two_pow (by omega) (by decide)
  · omega

theorem crcByte_lt {c : Nat} (h : c < 2 ^ 32) (b : Byte) : crcByte c b < 2 ^ 32 := by
  unfold crcByte
  have hb : b.toNat < 2 ^ 32 := Nat.lt_of_lt_of_le b.isLt (by decide)
  exact crcStep_lt (crcStep_lt (crcStep_lt (crcStep_lt (crcStep_lt (crcStep_lt (crcStep_lt (crcStep_lt
    (Nat.xor_lt_two_pow h hb))))))))

/-- A CRC-32C has 32 bits. -/
theorem crc32c_lt (l : List Byte) : crc32c l < 2 ^ 32 := by
  have h : ∀ (l : List Byte) (c : Nat), c < 2 ^ 32 → l.foldl crcByte c < 2 ^ 32 := by
    intro l
    induction l with
    | nil => intro c h; exact h
    | cons b t ih => intro c h; exact ih _ (crcByte_lt h b)
  exact Nat.xor_lt_two_pow (h l _ (by decide)) (by decide)

/-- A sealed record passes its own check (R77). -/
theorem sealOk_sealRec (l : List Byte) : sealOk (l.length + 4) (sealRec l) = true := by
  unfold sealOk sealRec
  rw [Nat.add_sub_cancel, fld_append_right (Nat.le_refl _), Nat.sub_self, fld_natLe, List.take_left' rfl]
  have : crc32c l % 256 ^ 4 = crc32c l := Nat.mod_eq_of_lt (crc32c_lt l)
  simp [this] <;> exact crc32c_lt l

theorem sealOk_sealRec' {l : List Byte} {n : Nat} (h : n = l.length + 4) : sealOk n (sealRec l) = true := by
  subst h; exact sealOk_sealRec l

/-- A field of a record is a field of the record with its seal. -/
theorem fld_sealRec {l : List Byte} {off n : Nat} (h : off + n ≤ l.length) : fld (sealRec l) off n = fld l off n :=
  fld_append_left h

end Sys2Proof
end

