-- ==== Sys2Proof/Laws/Exec.lean ====
section
/-! SUPPORT. One equation for each command: the effect that its meaning carries out. -/
namespace Sys2Proof.Machine

@[simp] theorem exec_powerOn (failRail : Option Nat) (s : State) :
    exec (.powerOn failRail) s = runDev (powerOnDev failRail) s := rfl
@[simp] theorem exec_inputPowerLoss (s : State) :
    exec (.inputPowerLoss) s = runDev powerLossDev s := rfl
@[simp] theorem exec_moduleReset (s : State) :
    exec (.moduleReset) s = runDev moduleResetDev s := rfl
@[simp] theorem exec_moduleResetRelease (straps : BitVec 41) (romOk : Bool) (s : State) :
    exec (.moduleResetRelease straps romOk) s = runDev (resetReleaseDev straps romOk) s := rfl
@[simp] theorem exec_hostReady (hbmStacks : List (Bool × List Byte)) (pkgs : List Nat) (s : State) :
    exec (.hostReady hbmStacks pkgs) s = runDev (hostReadyDev hbmStacks pkgs) s := rfl
@[simp] theorem exec_sightingStart (x : SightingSample) (s : State) :
    exec (.sightingStart x) s = runDev (sightingStartDev x.straps x.mAs) s := rfl
@[simp] theorem exec_perstNAssert (s : State) :
    exec (.perstNAssert) s = runDev perstAssertDev s := rfl
@[simp] theorem exec_perstNDeassert (s : State) :
    exec (.perstNDeassert) s = runDev perstDeassertDev s := rfl
@[simp] theorem exec_linkDlDown (s : State) :
    exec (.linkDlDown) s = runDev dlDownDev s := rfl
@[simp] theorem exec_dlDownSelfReset (s : State) :
    exec (.dlDownSelfReset) s = runDev selfResetDev s := rfl
@[simp] theorem exec_hotReset (s : State) :
    exec (.hotReset) s = runDev hotResetDev s := rfl
@[simp] theorem exec_functionLevelReset (fn : Nat) (s : State) :
    exec (.functionLevelReset fn) s = runDev (flrDev fn) s := rfl
@[simp] theorem exec_d3hotToD0 (s : State) :
    exec (.d3hotToD0) s = runDev d3hotDev s := rfl
@[simp] theorem exec_configurationRequest (fn : Nat) (op : CfgOp) (s : State) :
    exec (.configurationRequest fn op) s = runDev (cfgDev fn op) s := rfl
@[simp] theorem exec_unclaimedMemoryRequest (fn : Nat) (s : State) :
    exec (.unclaimedMemoryRequest fn) s = runDev (unclaimedDev fn) s := rfl
@[simp] theorem exec_registerWrite (fn : Nat) (off : Nat) (width : Nat) (val : Nat) (s : State) :
    exec (.registerWrite fn off width val) s = Sys2Proof.Machine.execRegisterWrite fn off width val s := rfl
@[simp] theorem exec_hubDqDoorbell (fn : Nat) (val : W64) (s : State) :
    exec (.hubDqDoorbell fn val) s = runDev (doorbellDev fn val) s := rfl
@[simp] theorem exec_hubDqCqDoorbell (fn : Nat) (val : W64) (s : State) :
    exec (.hubDqCqDoorbell fn val) s = runDev (cqDoorbellDev fn val) s := rfl
@[simp] theorem exec_mbxGo (fn : Nat) (mb : Nat) (vector : H16) (go : GoWrite) (s : State) :
    exec (.mbxGo fn mb vector go) s = runDev (withFails go.fails (mbxCtlDev fn mb vector go.reset true)) s := rfl
@[simp] theorem exec_mbxReset (fn : Nat) (mb : Nat) (vector : H16) (s : State) :
    exec (.mbxReset fn mb vector) s = runDev (mbxCtlDev fn mb vector true false) s := rfl
@[simp] theorem exec_bar2Read (fn : Nat) (off : Nat) (len : Nat) (s : State) :
    exec (.bar2Read fn off len) s = runDev (bar2ReadDev fn off len) s := rfl
@[simp] theorem exec_bar2Write (fn : Nat) (off : Nat) (data : List Byte) (s : State) :
    exec (.bar2Write fn off data) s = runDev (bar2WriteDev fn off data) s := rfl
@[simp] theorem exec_debugWindowAccess (fn : Nat) (off : Nat) (width : Nat) (wr : Option W64) (s : State) :
    exec (.debugWindowAccess fn off width wr) s = Sys2Proof.Machine.execDebugWindowAccess fn off width wr s := rfl
@[simp] theorem exec_hostReadCompletion (t : HostReadTarget) (n : Nat) (ok : Bool) (data : List Byte) (s : State) :
    exec (.hostReadCompletion t n ok data) s = runDev (hostReadDev t n ok data) s := rfl
@[simp] theorem exec_hostReadTimeout (t : HostReadTarget) (n : Nat) (s : State) :
    exec (.hostReadTimeout t n) s = runDev (hostTimeoutDev t n) s := rfl
@[simp] theorem exec_commandFetch (q : Nat) (data : List Byte) (s : State) :
    exec (.commandFetch q data) s = runDev (commandFetchDev q data) s := rfl
@[simp] theorem exec_refetchBackoffExpiry (q : Nat) (s : State) :
    exec (.refetchBackoffExpiry q) s = runDev (backoffExpiryDev q) s := rfl
@[simp] theorem exec_commandDispatch (s : State) :
    exec (.commandDispatch) s = runDev commandDispatchDev s := rfl
@[simp] theorem exec_dqWaitLimitExpiry (q : Nat) (s : State) :
    exec (.dqWaitLimitExpiry q) s = runDev (waitLimitDev q) s := rfl
@[simp] theorem exec_commandDone (q : Nat) (sq : W32) (s : State) :
    exec (.commandDone q sq) s = runDev (commandDoneDev q sq) s := rfl
@[simp] theorem exec_dcNop (q : Nat) (s : State) :
    exec (.dcNop q) s = runDev (dcNopDev q) s := rfl
@[simp] theorem exec_dcRun (q : Nat) (rr : Nat) (s : State) :
    exec (.dcRun q rr) s = runDev (dcRunDev q rr) s := rfl
@[simp] theorem exec_dcCopy (q : Nat) (rr : Nat) (s : State) :
    exec (.dcCopy q rr) s = runDev (dcCopyDev q rr) s := rfl
@[simp] theorem exec_dcInline (q : Nat) (s : State) :
    exec (.dcInline q) s = runDev (dcInlineDev q) s := rfl
@[simp] theorem exec_dcStage (q : Nat) (s : State) :
    exec (.dcStage q) s = runDev (dcStageDev q) s := rfl
@[simp] theorem exec_dcPlan (q : Nat) (s : State) :
    exec (.dcPlan q) s = runDev (dcPlanDev q) s := rfl
@[simp] theorem exec_lyCopy (q : Nat) (rr : Nat) (s : State) :
    exec (.lyCopy q rr) s = runDev (layoutDev 1 q rr) s := rfl
@[simp] theorem exec_lyGather (q : Nat) (rr : Nat) (s : State) :
    exec (.lyGather q rr) s = runDev (layoutDev 2 q rr) s := rfl
@[simp] theorem exec_lyScatter (q : Nat) (rr : Nat) (s : State) :
    exec (.lyScatter q rr) s = runDev (layoutDev 3 q rr) s := rfl
@[simp] theorem exec_lyList (q : Nat) (rr : Nat) (s : State) :
    exec (.lyList q rr) s = runDev (layoutDev 4 q rr) s := rfl
@[simp] theorem exec_lyFill (q : Nat) (rr : Nat) (s : State) :
    exec (.lyFill q rr) s = runDev (layoutDev 5 q rr) s := rfl
@[simp] theorem exec_dcEmbBind (q : Nat) (s : State) :
    exec (.dcEmbBind q) s = runDev (dcEmbBindDev q) s := rfl
@[simp] theorem exec_dcHrdWrite (q : Nat) (s : State) :
    exec (.dcHrdWrite q) s = runDev (dcHrdWriteDev q) s := rfl
@[simp] theorem exec_hrdInsertStage (q : Nat) (s : State) :
    exec (.hrdInsertStage q) s = runDev (hrdInsertStageDev q) s := rfl
@[simp] theorem exec_dcCatSwitch (q : Nat) (s : State) :
    exec (.dcCatSwitch q) s = runDev (dcCatSwitchDev q) s := rfl
@[simp] theorem exec_dcRouteRows (x : RouteRun) (s : State) :
    exec (.dcRouteRows x) s = runDev (dcRouteRowsDev x.queue x.mms) s := rfl
@[simp] theorem exec_dcNormSubmit (q : Nat) (s : State) :
    exec (.dcNormSubmit q) s = runDev (dcNormSubmitDev q) s := rfl
@[simp] theorem exec_partialNormComplete (q : Nat) (s : State) :
    exec (.partialNormComplete q) s = runDev (normCompleteDev q) s := rfl
@[simp] theorem exec_dcVerdictWait (q : Nat) (s : State) :
    exec (.dcVerdictWait q) s = runDev (dcVerdictWaitDev q) s := rfl
@[simp] theorem exec_verdictWaitExpiry (q : Nat) (s : State) :
    exec (.verdictWaitExpiry q) s = runDev (verdictExpiryDev q) s := rfl
@[simp] theorem exec_vcCommit (q : Nat) (s : State) :
    exec (.vcCommit q) s = runDev (vcCommitDev q) s := rfl
@[simp] theorem exec_vcCommitAct (q : Nat) (s : State) :
    exec (.vcCommitAct q) s = runDev (vcCommitActDev q) s := rfl
@[simp] theorem exec_vcCommitWaitExpiry (q : Nat) (s : State) :
    exec (.vcCommitWaitExpiry q) s = runDev (vcCommitExpiryDev q) s := rfl
@[simp] theorem exec_vcAcquire (q : Nat) (s : State) :
    exec (.vcAcquire q) s = runDev (vcAcquireDev q) s := rfl
@[simp] theorem exec_vcAcquireResolve (q : Nat) (s : State) :
    exec (.vcAcquireResolve q) s = runDev (vcAcquireResolveDev q) s := rfl
@[simp] theorem exec_vcAcquireWaitExpiry (q : Nat) (s : State) :
    exec (.vcAcquireWaitExpiry q) s = runDev (vcAcquireExpiryDev q) s := rfl
@[simp] theorem exec_vcRelease (q : Nat) (s : State) :
    exec (.vcRelease q) s = runDev (vcReleaseDev q) s := rfl
@[simp] theorem exec_rscat (x : CollRun) (s : State) :
    exec (.rscat x) s = runDev (rscatDev x.queue x.fails) s := rfl
@[simp] theorem exec_agather (x : CollRun) (s : State) :
    exec (.agather x) s = runDev (agatherDev x.queue x.fails) s := rfl
@[simp] theorem exec_alltoall (x : CollRun) (s : State) :
    exec (.alltoall x) s = runDev (alltoallDev x.queue x.fails) s := rfl
@[simp] theorem exec_barrier (q : Nat) (s : State) :
    exec (.barrier q) s = runDev (barrierDev q) s := rfl
@[simp] theorem exec_collProgressLimit (n : Nat) (s : State) :
    exec (.collProgressLimit n) s = runDev (collLimitDev n) s := rfl
@[simp] theorem exec_dcKat (q : Nat) (bad : List (Nat × Nat)) (s : State) :
    exec (.dcKat q bad) s = runDev (dcKatDev q bad) s := rfl
@[simp] theorem exec_katDueRun (u : Nat) (bad : List (Nat × Nat)) (s : State) :
    exec (.katDueRun u bad) s = runDev (katDueRunDev u bad) s := rfl
@[simp] theorem exec_icacheDemandFill (cls : Nat) (inst : Nat) (rr : Nat) (s : State) :
    exec (.icacheDemandFill cls inst rr) s = runDev (demandFillDev cls inst rr) s := rfl
@[simp] theorem exec_icachePrefetchFill (cls : Nat) (inst : Nat) (rr : Nat) (s : State) :
    exec (.icachePrefetchFill cls inst rr) s = runDev (prefetchFillDev cls inst rr) s := rfl
@[simp] theorem exec_bundleIssue (cls : Nat) (inst : Nat) (s : State) :
    exec (.bundleIssue cls inst) s = runDev (bundleIssueDev cls inst) s := rfl
@[simp] theorem exec_bundleWaitMet (cls : Nat) (inst : Nat) (s : State) :
    exec (.bundleWaitMet cls inst) s = runDev (bundleWaitMetDev cls inst) s := rfl
@[simp] theorem exec_spWaitLimitExpiry (cls : Nat) (inst : Nat) (s : State) :
    exec (.spWaitLimitExpiry cls inst) s = runDev (spWaitLimitDev cls inst) s := rfl
@[simp] theorem exec_signalFire (cls : Nat) (inst : Nat) (s : State) :
    exec (.signalFire cls inst) s = runDev (signalFireDev cls inst) s := rfl
@[simp] theorem exec_streamRetire (cls : Nat) (inst : Nat) (s : State) :
    exec (.streamRetire cls inst) s = runDev (streamRetireDev cls inst) s := rfl
@[simp] theorem exec_sLoop (cls : Nat) (inst : Nat) (s : State) :
    exec (.sLoop cls inst) s = runDev (sLoopDev cls inst) s := rfl
@[simp] theorem exec_sEnd (cls : Nat) (inst : Nat) (s : State) :
    exec (.sEnd cls inst) s = runDev (sEndDev cls inst) s := rfl
@[simp] theorem exec_sSumm (cls : Nat) (inst : Nat) (s : State) :
    exec (.sSumm cls inst) s = runDev (sSummDev cls inst) s := rfl
@[simp] theorem exec_sAdve (cls : Nat) (inst : Nat) (s : State) :
    exec (.sAdve cls inst) s = runDev (sAdveDev cls inst) s := rfl
@[simp] theorem exec_sChoose (cls : Nat) (inst : Nat) (s : State) :
    exec (.sChoose cls inst) s = runDev (sChooseDev cls inst) s := rfl
@[simp] theorem exec_syWait (cls : Nat) (inst : Nat) (s : State) :
    exec (.syWait cls inst) s = runDev (syWaitDev cls inst) s := rfl
@[simp] theorem exec_sySignal (cls : Nat) (inst : Nat) (s : State) :
    exec (.sySignal cls inst) s = runDev (sySignalDev cls inst) s := rfl
@[simp] theorem exec_mxeScaleLoad (inst : Nat) (s : State) :
    exec (.mxeScaleLoad inst) s = runDev (mxeScaleLoadDev inst) s := rfl
@[simp] theorem exec_mMma (inst : Nat) (s : State) :
    exec (.mMma inst) s = runDev (mMmaDev inst) s := rfl
@[simp] theorem exec_mDrain (inst : Nat) (s : State) :
    exec (.mDrain inst) s = runDev (mDrainDev inst) s := rfl
@[simp] theorem exec_mLimit (inst : Nat) (s : State) :
    exec (.mLimit inst) s = runDev (mLimitDev inst) s := rfl
@[simp] theorem exec_collatorTileCheck (inst : Nat) (wrong : List (Nat × Nat)) (flip : List Nat) (s : State) :
    exec (.collatorTileCheck inst wrong flip) s = runDev (collatorTileCheckDev inst wrong flip) s := rfl
@[simp] theorem exec_tileRecomputeComplete (inst : Nat) (wrong2 : List (Nat × Nat)) (wrong3 : List (Nat × Nat)) (flip2 : List Nat) (flip3 : List Nat) (katFail : Nat) (s : State) :
    exec (.tileRecomputeComplete inst wrong2 wrong3 flip2 flip3 katFail) s = runDev (tileRecomputeDev inst wrong2 wrong3 flip2 flip3 katFail) s := rfl
@[simp] theorem exec_vxeTileLoad (inst : Nat) (mm : Nat) (s : State) :
    exec (.vxeTileLoad inst mm) s = runDev (vxeTileLoadDev inst mm) s := rfl
@[simp] theorem exec_vxeFtabLoad (inst : Nat) (s : State) :
    exec (.vxeFtabLoad inst) s = runDev (vxeFtabLoadDev inst) s := rfl
@[simp] theorem exec_vxeTileStore (inst : Nat) (mm : Nat) (s : State) :
    exec (.vxeTileStore inst mm) s = runDev (vxeTileStoreDev inst mm) s := rfl
@[simp] theorem exec_vAdd (inst : Nat) (mm : Nat) (s : State) :
    exec (.vAdd inst mm) s = runDev (vAddDev inst mm) s := rfl
@[simp] theorem exec_vSub (inst : Nat) (mm : Nat) (s : State) :
    exec (.vSub inst mm) s = runDev (vSubDev inst mm) s := rfl
@[simp] theorem exec_vMul (inst : Nat) (mm : Nat) (s : State) :
    exec (.vMul inst mm) s = runDev (vMulDev inst mm) s := rfl
@[simp] theorem exec_vFma (inst : Nat) (mm : Nat) (s : State) :
    exec (.vFma inst mm) s = runDev (vFmaDev inst mm) s := rfl
@[simp] theorem exec_vDiv (inst : Nat) (mm : Nat) (s : State) :
    exec (.vDiv inst mm) s = runDev (vDivDev inst mm) s := rfl
@[simp] theorem exec_vMax (inst : Nat) (mm : Nat) (s : State) :
    exec (.vMax inst mm) s = runDev (vMaxDev inst mm) s := rfl
@[simp] theorem exec_vMin (inst : Nat) (mm : Nat) (s : State) :
    exec (.vMin inst mm) s = runDev (vMinDev inst mm) s := rfl
@[simp] theorem exec_vSqrt (inst : Nat) (mm : Nat) (s : State) :
    exec (.vSqrt inst mm) s = runDev (vSqrtDev inst mm) s := rfl
@[simp] theorem exec_vAbs (inst : Nat) (mm : Nat) (s : State) :
    exec (.vAbs inst mm) s = runDev (vAbsDev inst mm) s := rfl
@[simp] theorem exec_vNeg (inst : Nat) (mm : Nat) (s : State) :
    exec (.vNeg inst mm) s = runDev (vNegDev inst mm) s := rfl
@[simp] theorem exec_vCmp (inst : Nat) (mm : Nat) (s : State) :
    exec (.vCmp inst mm) s = runDev (vCmpDev inst mm) s := rfl
@[simp] theorem exec_vSel (inst : Nat) (mm : Nat) (s : State) :
    exec (.vSel inst mm) s = runDev (vSelDev inst mm) s := rfl
@[simp] theorem exec_vAnd (inst : Nat) (mm : Nat) (s : State) :
    exec (.vAnd inst mm) s = runDev (vAndDev inst mm) s := rfl
@[simp] theorem exec_vOr (inst : Nat) (mm : Nat) (s : State) :
    exec (.vOr inst mm) s = runDev (vOrDev inst mm) s := rfl
@[simp] theorem exec_vCvt (inst : Nat) (mm : Nat) (s : State) :
    exec (.vCvt inst mm) s = runDev (vCvtDev inst mm) s := rfl
@[simp] theorem exec_vRsum (inst : Nat) (mm : Nat) (s : State) :
    exec (.vRsum inst mm) s = runDev (vRsumDev inst mm) s := rfl
@[simp] theorem exec_vRmax (inst : Nat) (mm : Nat) (s : State) :
    exec (.vRmax inst mm) s = runDev (vRmaxDev inst mm) s := rfl
@[simp] theorem exec_vFn (inst : Nat) (mm : Nat) (s : State) :
    exec (.vFn inst mm) s = runDev (vFnDev inst mm) s := rfl
@[simp] theorem exec_vFnd (inst : Nat) (mm : Nat) (s : State) :
    exec (.vFnd inst mm) s = runDev (vFndDev inst mm) s := rfl
@[simp] theorem exec_vCompress (inst : Nat) (mm : Nat) (s : State) :
    exec (.vCompress inst mm) s = runDev (vCompressDev inst mm) s := rfl
@[simp] theorem exec_vExpand (inst : Nat) (mm : Nat) (s : State) :
    exec (.vExpand inst mm) s = runDev (vExpandDev inst mm) s := rfl
@[simp] theorem exec_vSumm (inst : Nat) (mm : Nat) (s : State) :
    exec (.vSumm inst mm) s = runDev (vSummDev inst mm) s := rfl
@[simp] theorem exec_vSmov (inst : Nat) (mm : Nat) (s : State) :
    exec (.vSmov inst mm) s = runDev (vSmovDev inst mm) s := rfl
@[simp] theorem exec_eLookup (inst : Nat) (s : State) :
    exec (.eLookup inst) s = runDev (eLookupDev inst) s := rfl
@[simp] theorem exec_eLookupRowsArrived (inst : Nat) (mm : Nat) (s : State) :
    exec (.eLookupRowsArrived inst mm) s = runDev (eRowsDev inst mm) s := rfl
@[simp] theorem exec_eAccum (inst : Nat) (mm : Nat) (s : State) :
    exec (.eAccum inst mm) s = runDev (eAccumDev inst mm) s := rfl
@[simp] theorem exec_rowRead (own : Bool) (s : State) :
    exec (.rowRead own) s = runDev (rowReadDev own) s := rfl
@[simp] theorem exec_rowGatePass (s : State) :
    exec (.rowGatePass) s = runDev rowGatePassDev s := rfl
@[simp] theorem exec_rowGateTimeout (n : Nat) (s : State) :
    exec (.rowGateTimeout n) s = runDev (rowGateTimeoutDev n) s := rfl
@[simp] theorem exec_rowData (s : State) :
    exec (.rowData) s = runDev rowDataDev s := rfl
@[simp] theorem exec_mrow (s : State) :
    exec (.mrow) s = runDev mrowDev s := rfl
@[simp] theorem exec_mrowAck (s : State) :
    exec (.mrowAck) s = runDev mrowAckDev s := rfl
@[simp] theorem exec_verdict (s : State) :
    exec (.verdict) s = runDev verdictDev s := rfl
@[simp] theorem exec_reservationGrant (s : State) :
    exec (.reservationGrant) s = runDev reservationGrantDev s := rfl
@[simp] theorem exec_pubEntryApply (n : Nat) (entry : Nat) (recov : Nat) (bad : Bool) (lost : Bool) (s : State) :
    exec (.pubEntryApply n entry recov bad lost) s = runDev (pubApplyDev n entry recov bad lost) s := rfl
@[simp] theorem exec_denseTileApply (n : Nat) (recov : Nat) (bad : Bool) (lost : Bool) (s : State) :
    exec (.denseTileApply n recov bad lost) s = runDev (denseTileDev n recov bad lost) s := rfl
@[simp] theorem exec_shardRead (s : State) :
    exec (.shardRead) s = runDev shardReadDev s := rfl
@[simp] theorem exec_shardReadResolve (s : State) :
    exec (.shardReadResolve) s = runDev shardResolveDev s := rfl
@[simp] theorem exec_shardReadWaitExpiry (n : Nat) (s : State) :
    exec (.shardReadWaitExpiry n) s = runDev (shardExpiryDev n) s := rfl
@[simp] theorem exec_shardData (s : State) :
    exec (.shardData) s = runDev shardDataDev s := rfl
@[simp] theorem exec_normUp (s : State) :
    exec (.normUp) s = runDev normUpDev s := rfl
@[simp] theorem exec_verdictReq (s : State) :
    exec (.verdictReq) s = runDev verdictReqDev s := rfl
@[simp] theorem exec_verdictRequestTimer (s : State) :
    exec (.verdictRequestTimer) s = runDev verdictTimerDev s := rfl
@[simp] theorem exec_verdictLimitExpiry (s : State) :
    exec (.verdictLimitExpiry) s = runDev verdictLimitDev s := rfl
@[simp] theorem exec_rsChunk (s : State) :
    exec (.rsChunk) s = runDev rsChunkDev s := rfl
@[simp] theorem exec_rsAck (s : State) :
    exec (.rsAck) s = runDev rsAckDev s := rfl
@[simp] theorem exec_rsChunkAckTimeout (t : Nat) (s : State) :
    exec (.rsChunkAckTimeout t) s = runDev (rsTimeoutDev t) s := rfl
@[simp] theorem exec_collRefuseResend (t : Nat) (s : State) :
    exec (.collRefuseResend t) s = runDev (collResendDev t) s := rfl
@[simp] theorem exec_a2aBlock (s : State) :
    exec (.a2aBlock) s = runDev a2aBlockDev s := rfl
@[simp] theorem exec_a2aAck (s : State) :
    exec (.a2aAck) s = runDev a2aAckDev s := rfl
@[simp] theorem exec_barUp (s : State) :
    exec (.barUp) s = runDev barUpDev s := rfl
@[simp] theorem exec_barDown (s : State) :
    exec (.barDown) s = runDev barDownDev s := rfl
@[simp] theorem exec_packetArrival (p : Nat) (t : LinkTag) (h : List Byte) (payload : List Byte) (s : State) :
    exec (.packetArrival p t h payload) s = runDev (packetArrivalDev p t.tag t.replays h payload) s := rfl
@[simp] theorem exec_write (s : State) :
    exec (.write) s = runDev writeDev s := rfl
@[simp] theorem exec_writeAck (s : State) :
    exec (.writeAck) s = runDev writeAckDev s := rfl
@[simp] theorem exec_read (s : State) :
    exec (.read) s = runDev readDev s := rfl
@[simp] theorem exec_readData (s : State) :
    exec (.readData) s = runDev readDataDev s := rfl
@[simp] theorem exec_refuse (s : State) :
    exec (.refuse) s = runDev refuseDev s := rfl
@[simp] theorem exec_undeliverable (s : State) :
    exec (.undeliverable) s = runDev undeliverableDev s := rfl
@[simp] theorem exec_nopathResend (t : Nat) (s : State) :
    exec (.nopathResend t) s = runDev (nopathResendDev t) s := rfl
@[simp] theorem exec_rhRequestTimeout (t : Nat) (s : State) :
    exec (.rhRequestTimeout t) s = runDev (requestTimeoutDev t) s := rfl
@[simp] theorem exec_linkTagReceive (p : Nat) (t : LinkTag) (s : State) :
    exec (.linkTagReceive p t) s = runDev (linkTagDev p t.tag t.replays) s := rfl
@[simp] theorem exec_codewordUncorrectable (p : Nat) (n : Nat) (cw : Bool) (s : State) :
    exec (.codewordUncorrectable p n cw) s = runDev (codewordBadDev p n cw) s := rfl
@[simp] theorem exec_replayRequest (p : Nat) (t : W64) (s : State) :
    exec (.replayRequest p t) s = runDev (replayRequestDev p t) s := rfl
@[simp] theorem exec_laneLossOfLock (p : Nat) (lane : Nat) (s : State) :
    exec (.laneLossOfLock p lane) s = runDev (laneLossDev p lane) s := rfl
@[simp] theorem exec_portLinkLoss (p : Nat) (s : State) :
    exec (.portLinkLoss p) s = runDev (portLossDev p) s := rfl
@[simp] theorem exec_partnerSignalDetect (p : Nat) (s : State) :
    exec (.partnerSignalDetect p) s = runDev (signalDev p) s := rfl
@[simp] theorem exec_laneTrainingComplete (p : Nat) (lanes : Nat) (rtt : Nat) (s : State) :
    exec (.laneTrainingComplete p lanes rtt) s = runDev (trainedDev p lanes rtt) s := rfl
@[simp] theorem exec_silentTimeout (p : Nat) (s : State) :
    exec (.silentTimeout p) s = runDev (silentDev p) s := rfl
@[simp] theorem exec_trainingTimeout (p : Nat) (s : State) :
    exec (.trainingTimeout p) s = runDev (trainingTimeoutDev p) s := rfl
@[simp] theorem exec_excludedRetry (p : Nat) (s : State) :
    exec (.excludedRetry p) s = runDev (excludedRetryDev p) s := rfl
@[simp] theorem exec_sight (s : State) :
    exec (.sight) s = runDev sightDev s := rfl
@[simp] theorem exec_hail (s : State) :
    exec (.hail) s = runDev hailDev s := rfl
@[simp] theorem exec_fix (s : State) :
    exec (.fix) s = runDev fixDev s := rfl
@[simp] theorem exec_chart (s : State) :
    exec (.chart) s = runDev chartDev s := rfl
@[simp] theorem exec_ppFill (xfe : Nat) (rr : Nat) (s : State) :
    exec (.ppFill xfe rr) s = runDev (planRow xfe rr 1) s := rfl
@[simp] theorem exec_ppClean (xfe : Nat) (rr : Nat) (s : State) :
    exec (.ppClean xfe rr) s = runDev (planRow xfe rr 2) s := rfl
@[simp] theorem exec_ppEvict (xfe : Nat) (rr : Nat) (s : State) :
    exec (.ppEvict xfe rr) s = runDev (planRow xfe rr 3) s := rfl
@[simp] theorem exec_ppDrop (xfe : Nat) (rr : Nat) (s : State) :
    exec (.ppDrop xfe rr) s = runDev (planRow xfe rr 4) s := rfl
@[simp] theorem exec_ppCopy (xfe : Nat) (rr : Nat) (s : State) :
    exec (.ppCopy xfe rr) s = runDev (planRow xfe rr 5) s := rfl
@[simp] theorem exec_ppWait (xfe : Nat) (rr : Nat) (s : State) :
    exec (.ppWait xfe rr) s = runDev (ppWaitDev xfe rr) s := rfl
@[simp] theorem exec_planWaitMet (xfe : Nat) (s : State) :
    exec (.planWaitMet xfe) s = runDev (planWaitMetDev xfe) s := rfl
@[simp] theorem exec_planWaitLimitExpiry (xfe : Nat) (s : State) :
    exec (.planWaitLimitExpiry xfe) s = runDev (planWaitLimitDev xfe) s := rfl
@[simp] theorem exec_ppSignal (xfe : Nat) (rr : Nat) (s : State) :
    exec (.ppSignal xfe rr) s = runDev (ppSignalDev xfe rr) s := rfl
@[simp] theorem exec_scrubPass (faults : List (Nat × Nat × Nat)) (s : State) :
    exec (.scrubPass faults) s = runDev (scrubPassDev faults) s := rfl
@[simp] theorem exec_logbookSend (s : State) :
    exec (.logbookSend) s = runDev logbookSendDev s := rfl
@[simp] theorem exec_logbookRepeat (s : State) :
    exec (.logbookRepeat) s = runDev logbookRepeatDev s := rfl
@[simp] theorem exec_specimenFragmentSend (s : State) :
    exec (.specimenFragmentSend) s = runDev specimenFragmentDev s := rfl
@[simp] theorem exec_icmpv6EchoRequest (src : List Byte) (dst : List Byte) (ident : Nat) (sqn : Nat) (data : List Byte) (s : State) :
    exec (.icmpv6EchoRequest src dst ident sqn data) s = runDev (echoDev src dst ident sqn data) s := rfl
@[simp] theorem exec_neighborDiscovery (src : List Byte) (target : List Byte) (s : State) :
    exec (.neighborDiscovery src target) s = runDev (neighborDev src target) s := rfl
@[simp] theorem exec_mctpSetEndpointId (iid : Nat) (eid : Byte) (s : State) :
    exec (.mctpSetEndpointId iid eid) s = runDev (mctpSetEidDev iid eid) s := rfl
@[simp] theorem exec_mctpGetEndpointId (iid : Nat) (s : State) :
    exec (.mctpGetEndpointId iid) s = runDev (mctpGetEidDev iid) s := rfl
@[simp] theorem exec_mctpGetVersionSupport (iid : Nat) (typ : Byte) (s : State) :
    exec (.mctpGetVersionSupport iid typ) s = runDev (mctpGetVersionDev iid typ) s := rfl
@[simp] theorem exec_mctpGetMessageTypeSupport (iid : Nat) (s : State) :
    exec (.mctpGetMessageTypeSupport iid) s = runDev (mctpGetTypesDev iid) s := rfl
@[simp] theorem exec_mailboxDeferredReply (ch : Nat) (s : State) :
    exec (.mailboxDeferredReply ch) s = runDev (deferredDev ch) s := rfl
@[simp] theorem exec_mbxTimeout (ch : Nat) (s : State) :
    exec (.mbxTimeout ch) s = runDev (mbxTimeoutDev ch) s := rfl
@[simp] theorem exec_dzCapRead (ch : Nat) (sq : W32) (ctx : W64) (p : List Byte) (s : State) :
    exec (.dzCapRead ch sq ctx p) s = runDev (dzSend 0x0100 ch sq ctx p) s := rfl
@[simp] theorem exec_dzMbxStatus (ch : Nat) (sq : W32) (ctx : W64) (p : List Byte) (s : State) :
    exec (.dzMbxStatus ch sq ctx p) s = runDev (dzSend 0x0101 ch sq ctx p) s := rfl
@[simp] theorem exec_dzCodeLoad (ch : Nat) (sq : W32) (ctx : W64) (x : RecordRequest) (s : State) :
    exec (.dzCodeLoad ch sq ctx x) s = runDev (withFails x.fails (dzSend 0x0240 ch sq ctx x.payload)) s := rfl
@[simp] theorem exec_dzCodeUnload (ch : Nat) (sq : W32) (ctx : W64) (p : List Byte) (s : State) :
    exec (.dzCodeUnload ch sq ctx p) s = runDev (dzSend 0x0241 ch sq ctx p) s := rfl
@[simp] theorem exec_dzCodeQuery (ch : Nat) (sq : W32) (ctx : W64) (p : List Byte) (s : State) :
    exec (.dzCodeQuery ch sq ctx p) s = runDev (dzSend 0x0242 ch sq ctx p) s := rfl
@[simp] theorem exec_dzTallyRead (ch : Nat) (sq : W32) (ctx : W64) (p : List Byte) (s : State) :
    exec (.dzTallyRead ch sq ctx p) s = runDev (dzSend 0x0243 ch sq ctx p) s := rfl
@[simp] theorem exec_dzTallySet (ch : Nat) (sq : W32) (ctx : W64) (p : List Byte) (s : State) :
    exec (.dzTallySet ch sq ctx p) s = runDev (dzSend 0x0244 ch sq ctx p) s := rfl
@[simp] theorem exec_dzBreakSet (ch : Nat) (sq : W32) (ctx : W64) (p : List Byte) (s : State) :
    exec (.dzBreakSet ch sq ctx p) s = runDev (dzSend 0x0245 ch sq ctx p) s := rfl
@[simp] theorem exec_dzBreakQuery (ch : Nat) (sq : W32) (ctx : W64) (p : List Byte) (s : State) :
    exec (.dzBreakQuery ch sq ctx p) s = runDev (dzSend 0x0246 ch sq ctx p) s := rfl
@[simp] theorem exec_dzQueueCreate (ch : Nat) (sq : W32) (ctx : W64) (p : List Byte) (s : State) :
    exec (.dzQueueCreate ch sq ctx p) s = runDev (dzSend 0x0200 ch sq ctx p) s := rfl
@[simp] theorem exec_dzQueueDestroy (ch : Nat) (sq : W32) (ctx : W64) (p : List Byte) (s : State) :
    exec (.dzQueueDestroy ch sq ctx p) s = runDev (dzSend 0x0201 ch sq ctx p) s := rfl
@[simp] theorem exec_dzQueueHalt (ch : Nat) (sq : W32) (ctx : W64) (p : List Byte) (s : State) :
    exec (.dzQueueHalt ch sq ctx p) s = runDev (dzSend 0x0202 ch sq ctx p) s := rfl
@[simp] theorem exec_dzQueueRestart (ch : Nat) (sq : W32) (ctx : W64) (p : List Byte) (s : State) :
    exec (.dzQueueRestart ch sq ctx p) s = runDev (dzSend 0x0203 ch sq ctx p) s := rfl
@[simp] theorem exec_dzQueueQuery (ch : Nat) (sq : W32) (ctx : W64) (p : List Byte) (s : State) :
    exec (.dzQueueQuery ch sq ctx p) s = runDev (dzSend 0x0204 ch sq ctx p) s := rfl
@[simp] theorem exec_dzQueueExpect (ch : Nat) (sq : W32) (ctx : W64) (p : List Byte) (s : State) :
    exec (.dzQueueExpect ch sq ctx p) s = runDev (dzSend 0x0205 ch sq ctx p) s := rfl
@[simp] theorem exec_dzCatWrite (ch : Nat) (sq : W32) (ctx : W64) (p : List Byte) (s : State) :
    exec (.dzCatWrite ch sq ctx p) s = runDev (dzSend 0x0400 ch sq ctx p) s := rfl
@[simp] theorem exec_dzCatRead (ch : Nat) (sq : W32) (ctx : W64) (p : List Byte) (s : State) :
    exec (.dzCatRead ch sq ctx p) s = runDev (dzSend 0x0401 ch sq ctx p) s := rfl
@[simp] theorem exec_dzCatClear (ch : Nat) (sq : W32) (ctx : W64) (p : List Byte) (s : State) :
    exec (.dzCatClear ch sq ctx p) s = runDev (dzSend 0x0402 ch sq ctx p) s := rfl
@[simp] theorem exec_dzCatQuery (ch : Nat) (sq : W32) (ctx : W64) (p : List Byte) (s : State) :
    exec (.dzCatQuery ch sq ctx p) s = runDev (dzSend 0x0403 ch sq ctx p) s := rfl
@[simp] theorem exec_dzCatZeroClear (ch : Nat) (sq : W32) (ctx : W64) (p : List Byte) (s : State) :
    exec (.dzCatZeroClear ch sq ctx p) s = runDev (dzSend 0x0404 ch sq ctx p) s := rfl
@[simp] theorem exec_dzHrdRegion (ch : Nat) (sq : W32) (ctx : W64) (p : List Byte) (s : State) :
    exec (.dzHrdRegion ch sq ctx p) s = runDev (dzSend 0x0405 ch sq ctx p) s := rfl
@[simp] theorem exec_dzHrdRead (ch : Nat) (sq : W32) (ctx : W64) (p : List Byte) (s : State) :
    exec (.dzHrdRead ch sq ctx p) s = runDev (dzSend 0x0406 ch sq ctx p) s := rfl
@[simp] theorem exec_dzHrdClear (ch : Nat) (sq : W32) (ctx : W64) (p : List Byte) (s : State) :
    exec (.dzHrdClear ch sq ctx p) s = runDev (dzSend 0x0407 ch sq ctx p) s := rfl
@[simp] theorem exec_dzEmbCounters (ch : Nat) (sq : W32) (ctx : W64) (p : List Byte) (s : State) :
    exec (.dzEmbCounters ch sq ctx p) s = runDev (dzSend 0x0408 ch sq ctx p) s := rfl
@[simp] theorem exec_dzCombArea (ch : Nat) (sq : W32) (ctx : W64) (p : List Byte) (s : State) :
    exec (.dzCombArea ch sq ctx p) s = runDev (dzSend 0x0250 ch sq ctx p) s := rfl
@[simp] theorem exec_dzCombQuery (ch : Nat) (sq : W32) (ctx : W64) (p : List Byte) (s : State) :
    exec (.dzCombQuery ch sq ctx p) s = runDev (dzSend 0x0251 ch sq ctx p) s := rfl
@[simp] theorem exec_dzPubArea (ch : Nat) (sq : W32) (ctx : W64) (p : List Byte) (s : State) :
    exec (.dzPubArea ch sq ctx p) s = runDev (dzSend 0x0520 ch sq ctx p) s := rfl
@[simp] theorem exec_dzPubMap (ch : Nat) (sq : W32) (ctx : W64) (p : List Byte) (s : State) :
    exec (.dzPubMap ch sq ctx p) s = runDev (dzSend 0x0521 ch sq ctx p) s := rfl
@[simp] theorem exec_dzPubQuery (ch : Nat) (sq : W32) (ctx : W64) (p : List Byte) (s : State) :
    exec (.dzPubQuery ch sq ctx p) s = runDev (dzSend 0x0522 ch sq ctx p) s := rfl
@[simp] theorem exec_dzMxeFreeze (ch : Nat) (sq : W32) (ctx : W64) (p : List Byte) (s : State) :
    exec (.dzMxeFreeze ch sq ctx p) s = runDev (dzSend 0x0260 ch sq ctx p) s := rfl
@[simp] theorem exec_dzMxeQuery (ch : Nat) (sq : W32) (ctx : W64) (p : List Byte) (s : State) :
    exec (.dzMxeQuery ch sq ctx p) s = runDev (dzSend 0x0261 ch sq ctx p) s := rfl
@[simp] theorem exec_dzVxeMode (ch : Nat) (sq : W32) (ctx : W64) (p : List Byte) (s : State) :
    exec (.dzVxeMode ch sq ctx p) s = runDev (dzSend 0x0270 ch sq ctx p) s := rfl
@[simp] theorem exec_dzVxeQuery (ch : Nat) (sq : W32) (ctx : W64) (p : List Byte) (s : State) :
    exec (.dzVxeQuery ch sq ctx p) s = runDev (dzSend 0x0271 ch sq ctx p) s := rfl
@[simp] theorem exec_dzParamWrite (ch : Nat) (sq : W32) (ctx : W64) (x : RecordRequest) (s : State) :
    exec (.dzParamWrite ch sq ctx x) s = runDev (withFails x.fails (dzSend 0x0500 ch sq ctx x.payload)) s := rfl
@[simp] theorem exec_dzParamRead (ch : Nat) (sq : W32) (ctx : W64) (p : List Byte) (s : State) :
    exec (.dzParamRead ch sq ctx p) s = runDev (dzSend 0x0501 ch sq ctx p) s := rfl
@[simp] theorem exec_dzParamClear (ch : Nat) (sq : W32) (ctx : W64) (p : List Byte) (s : State) :
    exec (.dzParamClear ch sq ctx p) s = runDev (dzSend 0x0502 ch sq ctx p) s := rfl
@[simp] theorem exec_dzSchedWrite (ch : Nat) (sq : W32) (ctx : W64) (p : List Byte) (s : State) :
    exec (.dzSchedWrite ch sq ctx p) s = runDev (dzSend 0x0503 ch sq ctx p) s := rfl
@[simp] theorem exec_dzSeedSet (ch : Nat) (sq : W32) (ctx : W64) (p : List Byte) (s : State) :
    exec (.dzSeedSet ch sq ctx p) s = runDev (dzSend 0x0504 ch sq ctx p) s := rfl
@[simp] theorem exec_dzVerInit (ch : Nat) (sq : W32) (ctx : W64) (p : List Byte) (s : State) :
    exec (.dzVerInit ch sq ctx p) s = runDev (dzSend 0x0505 ch sq ctx p) s := rfl
@[simp] theorem exec_dzVerConfig (ch : Nat) (sq : W32) (ctx : W64) (p : List Byte) (s : State) :
    exec (.dzVerConfig ch sq ctx p) s = runDev (dzSend 0x0506 ch sq ctx p) s := rfl
@[simp] theorem exec_dzVerQuery (ch : Nat) (sq : W32) (ctx : W64) (p : List Byte) (s : State) :
    exec (.dzVerQuery ch sq ctx p) s = runDev (dzSend 0x0507 ch sq ctx p) s := rfl
@[simp] theorem exec_dzDjArea (ch : Nat) (sq : W32) (ctx : W64) (p : List Byte) (s : State) :
    exec (.dzDjArea ch sq ctx p) s = runDev (dzSend 0x0508 ch sq ctx p) s := rfl
@[simp] theorem exec_dzGuardConfig (ch : Nat) (sq : W32) (ctx : W64) (p : List Byte) (s : State) :
    exec (.dzGuardConfig ch sq ctx p) s = runDev (dzSend 0x0530 ch sq ctx p) s := rfl
@[simp] theorem exec_dzGuardQuery (ch : Nat) (sq : W32) (ctx : W64) (p : List Byte) (s : State) :
    exec (.dzGuardQuery ch sq ctx p) s = runDev (dzSend 0x0531 ch sq ctx p) s := rfl
@[simp] theorem exec_dzGuardHold (ch : Nat) (sq : W32) (ctx : W64) (p : List Byte) (s : State) :
    exec (.dzGuardHold ch sq ctx p) s = runDev (dzSend 0x0532 ch sq ctx p) s := rfl
@[simp] theorem exec_dzGuardAbandon (ch : Nat) (sq : W32) (ctx : W64) (p : List Byte) (s : State) :
    exec (.dzGuardAbandon ch sq ctx p) s = runDev (dzSend 0x0533 ch sq ctx p) s := rfl
@[simp] theorem exec_dzExportDesc (ch : Nat) (sq : W32) (ctx : W64) (p : List Byte) (s : State) :
    exec (.dzExportDesc ch sq ctx p) s = runDev (dzSend 0x0534 ch sq ctx p) s := rfl
@[simp] theorem exec_dzRrAssign (ch : Nat) (sq : W32) (ctx : W64) (p : List Byte) (s : State) :
    exec (.dzRrAssign ch sq ctx p) s = runDev (dzSend 0x0540 ch sq ctx p) s := rfl
@[simp] theorem exec_dzRrWindow (ch : Nat) (sq : W32) (ctx : W64) (p : List Byte) (s : State) :
    exec (.dzRrWindow ch sq ctx p) s = runDev (dzSend 0x0541 ch sq ctx p) s := rfl
@[simp] theorem exec_dzRrTables (ch : Nat) (sq : W32) (ctx : W64) (p : List Byte) (s : State) :
    exec (.dzRrTables ch sq ctx p) s = runDev (dzSend 0x0542 ch sq ctx p) s := rfl
@[simp] theorem exec_dzRrTally (ch : Nat) (sq : W32) (ctx : W64) (p : List Byte) (s : State) :
    exec (.dzRrTally ch sq ctx p) s = runDev (dzSend 0x0543 ch sq ctx p) s := rfl
@[simp] theorem exec_dzRrQuery (ch : Nat) (sq : W32) (ctx : W64) (p : List Byte) (s : State) :
    exec (.dzRrQuery ch sq ctx p) s = runDev (dzSend 0x0544 ch sq ctx p) s := rfl
@[simp] theorem exec_dzMemAlloc (ch : Nat) (sq : W32) (ctx : W64) (p : List Byte) (s : State) :
    exec (.dzMemAlloc ch sq ctx p) s = runDev (dzSend 0x0300 ch sq ctx p) s := rfl
@[simp] theorem exec_dzMemFree (ch : Nat) (sq : W32) (ctx : W64) (p : List Byte) (s : State) :
    exec (.dzMemFree ch sq ctx p) s = runDev (dzSend 0x0301 ch sq ctx p) s := rfl
@[simp] theorem exec_dzMemQuery (ch : Nat) (sq : W32) (ctx : W64) (p : List Byte) (s : State) :
    exec (.dzMemQuery ch sq ctx p) s = runDev (dzSend 0x0302 ch sq ctx p) s := rfl
@[simp] theorem exec_dzMemSlots (ch : Nat) (sq : W32) (ctx : W64) (p : List Byte) (s : State) :
    exec (.dzMemSlots ch sq ctx p) s = runDev (dzSend 0x0303 ch sq ctx p) s := rfl
@[simp] theorem exec_dzMemFlush (ch : Nat) (sq : W32) (ctx : W64) (p : List Byte) (s : State) :
    exec (.dzMemFlush ch sq ctx p) s = runDev (dzSend 0x0304 ch sq ctx p) s := rfl
@[simp] theorem exec_dzMemStatus (ch : Nat) (sq : W32) (ctx : W64) (p : List Byte) (s : State) :
    exec (.dzMemStatus ch sq ctx p) s = runDev (dzSend 0x0305 ch sq ctx p) s := rfl
@[simp] theorem exec_dzMemResv (ch : Nat) (sq : W32) (ctx : W64) (p : List Byte) (s : State) :
    exec (.dzMemResv ch sq ctx p) s = runDev (dzSend 0x0306 ch sq ctx p) s := rfl
@[simp] theorem exec_dzMemLine (ch : Nat) (sq : W32) (ctx : W64) (p : List Byte) (s : State) :
    exec (.dzMemLine ch sq ctx p) s = runDev (dzSend 0x0307 ch sq ctx p) s := rfl
@[simp] theorem exec_dzXfeQuery (ch : Nat) (sq : W32) (ctx : W64) (p : List Byte) (s : State) :
    exec (.dzXfeQuery ch sq ctx p) s = runDev (dzSend 0x0308 ch sq ctx p) s := rfl
@[simp] theorem exec_dzRhStatus (ch : Nat) (sq : W32) (ctx : W64) (p : List Byte) (s : State) :
    exec (.dzRhStatus ch sq ctx p) s = runDev (dzSend 0x0600 ch sq ctx p) s := rfl
@[simp] theorem exec_dzRhPort (ch : Nat) (sq : W32) (ctx : W64) (p : List Byte) (s : State) :
    exec (.dzRhPort ch sq ctx p) s = runDev (dzSend 0x0601 ch sq ctx p) s := rfl
@[simp] theorem exec_dzRhRing (ch : Nat) (sq : W32) (ctx : W64) (p : List Byte) (s : State) :
    exec (.dzRhRing ch sq ctx p) s = runDev (dzSend 0x0602 ch sq ctx p) s := rfl
@[simp] theorem exec_dzRhPortCtl (ch : Nat) (sq : W32) (ctx : W64) (p : List Byte) (s : State) :
    exec (.dzRhPortCtl ch sq ctx p) s = runDev (dzSend 0x0603 ch sq ctx p) s := rfl
@[simp] theorem exec_dzCollGroup (ch : Nat) (sq : W32) (ctx : W64) (p : List Byte) (s : State) :
    exec (.dzCollGroup ch sq ctx p) s = runDev (dzSend 0x0610 ch sq ctx p) s := rfl
@[simp] theorem exec_dzCollArea (ch : Nat) (sq : W32) (ctx : W64) (p : List Byte) (s : State) :
    exec (.dzCollArea ch sq ctx p) s = runDev (dzSend 0x0611 ch sq ctx p) s := rfl
@[simp] theorem exec_dzCollMode (ch : Nat) (sq : W32) (ctx : W64) (p : List Byte) (s : State) :
    exec (.dzCollMode ch sq ctx p) s = runDev (dzSend 0x0612 ch sq ctx p) s := rfl
@[simp] theorem exec_dzCollQuery (ch : Nat) (sq : W32) (ctx : W64) (p : List Byte) (s : State) :
    exec (.dzCollQuery ch sq ctx p) s = runDev (dzSend 0x0613 ch sq ctx p) s := rfl
@[simp] theorem exec_dzIntStatus (ch : Nat) (sq : W32) (ctx : W64) (p : List Byte) (s : State) :
    exec (.dzIntStatus ch sq ctx p) s = runDev (dzSend 0x0700 ch sq ctx p) s := rfl
@[simp] theorem exec_dzIntConfig (ch : Nat) (sq : W32) (ctx : W64) (p : List Byte) (s : State) :
    exec (.dzIntConfig ch sq ctx p) s = runDev (dzSend 0x0701 ch sq ctx p) s := rfl
@[simp] theorem exec_dzIntUnit (ch : Nat) (sq : W32) (ctx : W64) (p : List Byte) (s : State) :
    exec (.dzIntUnit ch sq ctx p) s = runDev (dzSend 0x0702 ch sq ctx p) s := rfl
@[simp] theorem exec_dzLogDest (ch : Nat) (sq : W32) (ctx : W64) (p : List Byte) (s : State) :
    exec (.dzLogDest ch sq ctx p) s = runDev (dzSend 0x0703 ch sq ctx p) s := rfl
@[simp] theorem exec_dzLogRead (ch : Nat) (sq : W32) (ctx : W64) (p : List Byte) (s : State) :
    exec (.dzLogRead ch sq ctx p) s = runDev (dzSend 0x0704 ch sq ctx p) s := rfl
@[simp] theorem exec_dzKatLoad (ch : Nat) (sq : W32) (ctx : W64) (p : List Byte) (s : State) :
    exec (.dzKatLoad ch sq ctx p) s = runDev (dzSend 0x0705 ch sq ctx p) s := rfl
@[simp] theorem exec_dzSpecArea (ch : Nat) (sq : W32) (ctx : W64) (p : List Byte) (s : State) :
    exec (.dzSpecArea ch sq ctx p) s = runDev (dzSend 0x0706 ch sq ctx p) s := rfl
@[simp] theorem exec_dzIntInject (ch : Nat) (sq : W32) (ctx : W64) (p : List Byte) (s : State) :
    exec (.dzIntInject ch sq ctx p) s = runDev (dzSend 0x0707 ch sq ctx p) s := rfl
@[simp] theorem exec_dzHostAperture (ch : Nat) (sq : W32) (ctx : W64) (p : List Byte) (s : State) :
    exec (.dzHostAperture ch sq ctx p) s = runDev (dzSend 0x0310 ch sq ctx p) s := rfl
@[simp] theorem exec_dzHostStatus (ch : Nat) (sq : W32) (ctx : W64) (p : List Byte) (s : State) :
    exec (.dzHostStatus ch sq ctx p) s = runDev (dzSend 0x0311 ch sq ctx p) s := rfl
@[simp] theorem exec_dzFwStage (ch : Nat) (sq : W32) (ctx : W64) (p : List Byte) (s : State) :
    exec (.dzFwStage ch sq ctx p) s = runDev (dzSend 0x0B00 ch sq ctx p) s := rfl
@[simp] theorem exec_dzFwActivate (ch : Nat) (sq : W32) (ctx : W64) (p : List Byte) (s : State) :
    exec (.dzFwActivate ch sq ctx p) s = runDev (dzSend 0x0B01 ch sq ctx p) s := rfl
@[simp] theorem exec_fwActivateReset (s : State) :
    exec (.fwActivateReset) s = runDev fwActivateResetDev s := rfl
@[simp] theorem exec_dzFwConfirm (ch : Nat) (sq : W32) (ctx : W64) (p : List Byte) (s : State) :
    exec (.dzFwConfirm ch sq ctx p) s = runDev (dzSend 0x0B02 ch sq ctx p) s := rfl
@[simp] theorem exec_dzFwQuery (ch : Nat) (sq : W32) (ctx : W64) (p : List Byte) (s : State) :
    exec (.dzFwQuery ch sq ctx p) s = runDev (dzSend 0x0B03 ch sq ctx p) s := rfl
@[simp] theorem exec_dzFwRevert (ch : Nat) (sq : W32) (ctx : W64) (p : List Byte) (s : State) :
    exec (.dzFwRevert ch sq ctx p) s = runDev (dzSend 0x0B04 ch sq ctx p) s := rfl
@[simp] theorem exec_dzFwOpen (ch : Nat) (sq : W32) (ctx : W64) (p : List Byte) (s : State) :
    exec (.dzFwOpen ch sq ctx p) s = runDev (dzSend 0x0B05 ch sq ctx p) s := rfl
@[simp] theorem exec_dzFwChunk (ch : Nat) (sq : W32) (ctx : W64) (p : List Byte) (s : State) :
    exec (.dzFwChunk ch sq ctx p) s = runDev (dzSend 0x0B06 ch sq ctx p) s := rfl
@[simp] theorem exec_dzDbgWindow (ch : Nat) (sq : W32) (ctx : W64) (p : List Byte) (s : State) :
    exec (.dzDbgWindow ch sq ctx p) s = runDev (dzSend 0x0B10 ch sq ctx p) s := rfl
@[simp] theorem exec_dzSxFix (ch : Nat) (sq : W32) (ctx : W64) (p : List Byte) (s : State) :
    exec (.dzSxFix ch sq ctx p) s = runDev (dzSend 0x0800 ch sq ctx p) s := rfl
@[simp] theorem exec_dzSxSummary (ch : Nat) (sq : W32) (ctx : W64) (p : List Byte) (s : State) :
    exec (.dzSxSummary ch sq ctx p) s = runDev (dzSend 0x0801 ch sq ctx p) s := rfl
@[simp] theorem exec_dzSxPowerCap (ch : Nat) (sq : W32) (ctx : W64) (p : List Byte) (s : State) :
    exec (.dzSxPowerCap ch sq ctx p) s = runDev (dzSend 0x0802 ch sq ctx p) s := rfl
@[simp] theorem exec_dzSxClockCap (ch : Nat) (sq : W32) (ctx : W64) (p : List Byte) (s : State) :
    exec (.dzSxClockCap ch sq ctx p) s = runDev (dzSend 0x0803 ch sq ctx p) s := rfl
@[simp] theorem exec_dzSxCage (ch : Nat) (sq : W32) (ctx : W64) (p : List Byte) (s : State) :
    exec (.dzSxCage ch sq ctx p) s = runDev (dzSend 0x0804 ch sq ctx p) s := rfl
@[simp] theorem exec_dzAlmanacSet (ch : Nat) (sq : W32) (ctx : W64) (p : List Byte) (s : State) :
    exec (.dzAlmanacSet ch sq ctx p) s = runDev (dzSend 0x0900 ch sq ctx p) s := rfl
@[simp] theorem exec_dzLedgerRead (ch : Nat) (sq : W32) (ctx : W64) (p : List Byte) (s : State) :
    exec (.dzLedgerRead ch sq ctx p) s = runDev (dzSend 0x0901 ch sq ctx p) s := rfl
@[simp] theorem exec_dzLedgerEvents (ch : Nat) (sq : W32) (ctx : W64) (p : List Byte) (s : State) :
    exec (.dzLedgerEvents ch sq ctx p) s = runDev (dzSend 0x0902 ch sq ctx p) s := rfl
@[simp] theorem exec_dzLedgerCommit (ch : Nat) (sq : W32) (ctx : W64) (p : List Byte) (s : State) :
    exec (.dzLedgerCommit ch sq ctx p) s = runDev (dzSend 0x0903 ch sq ctx p) s := rfl
@[simp] theorem exec_dzPcOvfClear (ch : Nat) (sq : W32) (ctx : W64) (p : List Byte) (s : State) :
    exec (.dzPcOvfClear ch sq ctx p) s = runDev (dzSend 0x0904 ch sq ctx p) s := rfl
@[simp] theorem exec_dzSecMeas (ch : Nat) (sq : W32) (ctx : W64) (p : List Byte) (s : State) :
    exec (.dzSecMeas ch sq ctx p) s = runDev (dzSend 0x0A00 ch sq ctx p) s := rfl
@[simp] theorem exec_dzSecExtend (ch : Nat) (sq : W32) (ctx : W64) (p : List Byte) (s : State) :
    exec (.dzSecExtend ch sq ctx p) s = runDev (dzSend 0x0A01 ch sq ctx p) s := rfl
@[simp] theorem exec_dzSecAttest (ch : Nat) (sq : W32) (ctx : W64) (p : List Byte) (s : State) :
    exec (.dzSecAttest ch sq ctx p) s = runDev (dzSend 0x0A02 ch sq ctx p) s := rfl
@[simp] theorem exec_dzSecCerts (ch : Nat) (sq : W32) (ctx : W64) (p : List Byte) (s : State) :
    exec (.dzSecCerts ch sq ctx p) s = runDev (dzSend 0x0A03 ch sq ctx p) s := rfl
@[simp] theorem exec_dzSecChallenge (ch : Nat) (sq : W32) (ctx : W64) (p : List Byte) (s : State) :
    exec (.dzSecChallenge ch sq ctx p) s = runDev (dzSend 0x0A04 ch sq ctx p) s := rfl
@[simp] theorem exec_dzSecUnlock (ch : Nat) (sq : W32) (ctx : W64) (p : List Byte) (s : State) :
    exec (.dzSecUnlock ch sq ctx p) s = runDev (dzSend 0x0A05 ch sq ctx p) s := rfl
@[simp] theorem exec_dzSecZeroise (ch : Nat) (sq : W32) (ctx : W64) (p : List Byte) (s : State) :
    exec (.dzSecZeroise ch sq ctx p) s = runDev (dzSend 0x0A06 ch sq ctx p) s := rfl
@[simp] theorem exec_dzSecManifest (ch : Nat) (sq : W32) (ctx : W64) (p : List Byte) (s : State) :
    exec (.dzSecManifest ch sq ctx p) s = runDev (dzSend 0x0A07 ch sq ctx p) s := rfl
@[simp] theorem exec_dzSecSelftest (ch : Nat) (sq : W32) (ctx : W64) (p : List Byte) (s : State) :
    exec (.dzSecSelftest ch sq ctx p) s = runDev (dzSend 0x0A08 ch sq ctx p) s := rfl
@[simp] theorem exec_railFix (r : Nat) (uV : Nat) (mA : Nat) (s : State) :
    exec (.railFix r uV mA) s = runDev (railFixDev r uV mA) s := rfl
@[simp] theorem exec_shutdownRailsOff (s : State) :
    exec (.shutdownRailsOff) s = runDev railsOffDev s := rfl
@[simp] theorem exec_tempFix (temps : List Int) (s : State) :
    exec (.tempFix temps) s = runDev (tempFixDev temps) s := rfl
@[simp] theorem exec_cageFix (c : Nat) (mA : Nat) (s : State) :
    exec (.cageFix c mA) s = runDev (cageFixDev c mA) s := rfl
@[simp] theorem exec_plugPresentChange (c : Nat) (here : Bool) (classMw : Nat) (media : Nat) (s : State) :
    exec (.plugPresentChange c here classMw media) s = runDev (plugPresentDev c here classMw media) s := rfl
@[simp] theorem exec_plugReadyCheck (c : Nat) (mA : Nat) (s : State) :
    exec (.plugReadyCheck c mA) s = runDev (plugReadyDev c mA) s := rfl
@[simp] theorem exec_controlLoopPeriod (s : State) :
    exec (.controlLoopPeriod) s = runDev controlLoopDev s := rfl
@[simp] theorem exec_ledgerCommitTimer (s : State) :
    exec (.ledgerCommitTimer) s = runDev ledgerTimerDev s := rfl
@[simp] theorem exec_linkDlUp (rate : Nat) (width : Nat) (flit : Bool) (rootRate : Nat) (rootWidth : Nat) (rootFlit : Bool) (s : State) :
    exec (.linkDlUp rate width flit rootRate rootWidth rootFlit) s = runDev (dlUpDev rate width flit rootRate rootWidth rootFlit) s := rfl
@[simp] theorem exec_codewordCorrected (p : Nat) (n : Nat) (syms : List Nat) (s : State) :
    exec (.codewordCorrected p n syms) s = runDev (codewordFixDev p n syms) s := rfl
@[simp] theorem exec_managementLinkUp (s : State) :
    exec (.managementLinkUp) s = runDev managementLinkUpDev s := rfl

end Sys2Proof.Machine
end

