-- ==== Sys2Proof/Laws/SMap.lean ====
section
/-! SUPPORT. Sparse maps: what reading after writing gives, and that every writing operation keeps the canonical form. -/
namespace Sys2Proof
variable {V : Type}

/-! ### Reading after writing -/

theorem smGet_smErase_self (d : V) (m : SMap V) (k : Nat) : smGet d (smErase m k) k = d := by
  induction m with
  | nil => rfl
  | cons e t ih =>
    obtain ⟨j, w⟩ := e
    by_cases h : j = k <;> simp [smErase, smGet, h, ih]

theorem smGet_smErase_ne (d : V) (m : SMap V) {k j : Nat} (h : j ≠ k) : smGet d (smErase m k) j = smGet d m j := by
  induction m with
  | nil => rfl
  | cons e t ih =>
    obtain ⟨i, w⟩ := e
    by_cases hk : i = k
    · subst hk; simp [smErase, smGet, ih, Ne.symm h]
    · by_cases hj : i = j <;> simp [smErase, smGet, hk, hj, ih]
      subst hj; simp [smGet, hk]

/-- No entry of the map is for key `k`. -/
def SmFree (k : Nat) (m : SMap V) : Prop := ∀ e ∈ m, e.1 ≠ k

theorem smErase_free (m : SMap V) (k : Nat) : SmFree k (smErase m k) := by
  induction m with
  | nil => intro e he; cases he
  | cons e t ih =>
    obtain ⟨j, w⟩ := e
    by_cases h : j = k
    · simpa [smErase, h] using ih
    · intro e he
      simp only [smErase, h, if_false, List.mem_cons] at he
      rcases he with rfl | he
      · exact h
      · exact ih e he

theorem smGet_free (d : V) {m : SMap V} {k : Nat} (h : SmFree k m) : smGet d m k = d := by
  induction m with
  | nil => rfl
  | cons e t ih =>
    have := h e (by simp)
    simp [smGet, this, ih (fun x hx => h x (by simp [hx]))]

theorem smGet_smInsert_self (d : V) {m : SMap V} {k : Nat} (v : V) (h : SmFree k m) : smGet d (smInsert m k v) k = v := by
  induction m with
  | nil => simp [smInsert, smGet]
  | cons e t ih =>
    obtain ⟨j, w⟩ := e
    have hj : j ≠ k := h (j, w) (by simp)
    by_cases hk : k < j
    · simp [smInsert, smGet, hk]
    · simp [smInsert, smGet, hk, hj, ih (fun x hx => h x (by simp [hx]))]

theorem smGet_smInsert_ne (d : V) (m : SMap V) {k j : Nat} (v : V) (h : j ≠ k) : smGet d (smInsert m k v) j = smGet d m j := by
  induction m with
  | nil => simp [smInsert, smGet, Ne.symm h]
  | cons e t ih =>
    obtain ⟨i, w⟩ := e
    by_cases hk : k < i
    · simp [smInsert, smGet, hk, Ne.symm h]
    · simp [smInsert, smGet, hk, ih]

variable [DecidableEq V]

/-- A read of the key that was written gives the value written. -/
@[simp] theorem smGet_smSet_self (d : V) (m : SMap V) (k : Nat) (v : V) : smGet d (smSet d m k v) k = v := by
  by_cases h : v = d
  · simp [smSet, h, smGet_smErase_self]
  · simp [smSet, h, smGet_smInsert_self d v (smErase_free m k)]

/-- A write leaves every other key alone. -/
theorem smGet_smSet_ne (d : V) (m : SMap V) {k j : Nat} (v : V) (h : j ≠ k) : smGet d (smSet d m k v) j = smGet d m j := by
  by_cases hv : v = d
  · simp [smSet, hv, smGet_smErase_ne d m h]
  · simp [smSet, hv, smGet_smInsert_ne d _ v h, smGet_smErase_ne d m h]

/-- A write of a list leaves every key outside its range alone. -/
theorem smGet_smSetList_out (d : V) (vs : List V) (m : SMap V) (k j : Nat) (h : j < k ∨ k + vs.length ≤ j) :
    smGet d (smSetList d m k vs) j = smGet d m j := by
  induction vs generalizing m k with
  | nil => rfl
  | cons v t ih =>
    rw [List.length_cons] at h
    rw [smSetList, ih _ _ (by omega), smGet_smSet_ne d m v (by omega)]

/-- A read inside the range of a written list gives the value at that place. -/
theorem smGet_smSetList_in (d : V) (vs : List V) (m : SMap V) (k i : Nat) (h : i < vs.length) :
    smGet d (smSetList d m k vs) (k + i) = vs[i] := by
  induction vs generalizing m k i with
  | nil => simp at h
  | cons v t ih =>
    cases i with
    | zero => rw [smSetList, smGet_smSetList_out d t _ _ _ (by omega)]; simp
    | succ i =>
      have := ih (smSet d m k v) (k + 1) i (by simpa using h)
      rw [smSetList, show k + (i + 1) = k + 1 + i by omega, this]; simp

/-! ### The canonical form -/

theorem smWfFrom_mono (d : V) {m : SMap V} {lo lo' : Nat} (h : lo' ≤ lo) (hm : smWfFrom d lo m = true) :
    smWfFrom d lo' m = true := by
  cases m with
  | nil => rfl
  | cons e t =>
    obtain ⟨k, v⟩ := e
    simp only [smWfFrom, Bool.and_eq_true, decide_eq_true_eq] at hm ⊢
    exact ⟨⟨by omega, hm.1.2⟩, hm.2⟩

theorem smWfFrom_smErase (d : V) (k : Nat) {m : SMap V} {lo : Nat} (hm : smWfFrom d lo m = true) :
    smWfFrom d lo (smErase m k) = true := by
  induction m generalizing lo with
  | nil => rfl
  | cons e t ih =>
    obtain ⟨j, w⟩ := e
    simp only [smWfFrom, Bool.and_eq_true, decide_eq_true_eq] at hm
    by_cases h : j = k
    · simpa [smErase, h] using smWfFrom_mono d (by omega) (ih hm.2)
    · simp [smErase, h, smWfFrom, hm.1.1, hm.1.2, ih hm.2]

theorem smWfFrom_smInsert (d : V) {k : Nat} {v : V} (hv : v ≠ d) {m : SMap V} {lo : Nat} (hk : lo ≤ k) (hf : SmFree k m)
    (hm : smWfFrom d lo m = true) : smWfFrom d lo (smInsert m k v) = true := by
  induction m generalizing lo with
  | nil => simp [smInsert, smWfFrom, hk, hv]
  | cons e t ih =>
    obtain ⟨j, w⟩ := e
    simp only [smWfFrom, Bool.and_eq_true, decide_eq_true_eq] at hm
    have hj : j ≠ k := hf (j, w) (by simp)
    by_cases h : k < j
    · have : smWfFrom d (k + 1) ((j, w) :: t) = true := by simp [smWfFrom, hm.1.2, hm.2] <;> omega
      simp [smInsert, h, smWfFrom, hk, hv, hm.1.2, hm.2] <;> omega
    · have := ih (by omega : j + 1 ≤ k) (fun x hx => hf x (by simp [hx])) hm.2
      simp [smInsert, h, smWfFrom, hm.1.1, hm.1.2, this]

/-- A write keeps the canonical form. -/
theorem smWf_smSet (d : V) (k : Nat) (v : V) {m : SMap V} (hm : smWf d m = true) : smWf d (smSet d m k v) = true := by
  by_cases h : v = d
  · simpa [smSet, h, smWf] using smWfFrom_smErase d k hm
  · simpa [smSet, h, smWf] using
      smWfFrom_smInsert d h (Nat.zero_le k) (smErase_free m k) (smWfFrom_smErase d k hm)

/-- A write of a list keeps the canonical form. -/
theorem smWf_smSetList (d : V) (vs : List V) (k : Nat) {m : SMap V} (hm : smWf d m = true) :
    smWf d (smSetList d m k vs) = true := by
  induction vs generalizing m k with
  | nil => exact hm
  | cons v t ih => exact ih (k + 1) (smWf_smSet d k v hm)

theorem smWfFrom_filter (d : V) (p : Nat × V → Bool) {m : SMap V} {lo : Nat} (hm : smWfFrom d lo m = true) :
    smWfFrom d lo (m.filter p) = true := by
  induction m generalizing lo with
  | nil => rfl
  | cons e t ih =>
    obtain ⟨k, v⟩ := e
    simp only [smWfFrom, Bool.and_eq_true, decide_eq_true_eq] at hm
    by_cases h : p (k, v) = true
    · simp [h, smWfFrom, hm.1.1, hm.1.2, ih hm.2]
    · simpa [h] using smWfFrom_mono d (by omega) (ih hm.2)

/-- Dropping entries keeps the canonical form. -/
theorem smWf_filter (d : V) (p : Nat × V → Bool) {m : SMap V} (hm : smWf d m = true) : smWf d (m.filter p) = true :=
  smWfFrom_filter d p hm

/-- Writes of a list of cells keep the canonical form. -/
theorem smWf_foldl_smSet (d : V) (cs : List (Nat × V)) {m : SMap V} (hm : smWf d m = true) :
    smWf d (cs.foldl (fun x c => smSet d x c.1 c.2) m) = true := by
  induction cs generalizing m with
  | nil => exact hm
  | cons c t ih => exact ih (smWf_smSet d c.1 c.2 hm)

omit [DecidableEq V] in
theorem smErase_smErase (m : SMap V) (k : Nat) : smErase (smErase m k) k = smErase m k := by
  induction m with
  | nil => rfl
  | cons p t ih =>
    obtain ⟨j, v⟩ := p
    by_cases h : j = k <;> simp [smErase, h, ih]

omit [DecidableEq V] in
theorem smErase_smInsert (m : SMap V) (k : Nat) (v : V) : smErase (smInsert m k v) k = smErase m k := by
  induction m with
  | nil => simp [smInsert, smErase]
  | cons p t ih =>
    obtain ⟨j, w⟩ := p
    by_cases h : k < j
    · simp [smInsert, smErase, h]
    · by_cases hj : j = k <;> simp [smInsert, smErase, h, hj, ih]

/-- Of two writes at one key the later stands. -/
@[simp] theorem smSet_smSet (d : V) (m : SMap V) (k : Nat) (v w : V) : smSet d (smSet d m k v) k w = smSet d m k w := by
  have h : smErase (smSet d m k v) k = smErase m k := by
    unfold smSet
    split
    · exact smErase_smErase m k
    · rw [smErase_smInsert, smErase_smErase]
  unfold smSet at h ⊢
  rw [h]

end Sys2Proof
end

