-- ==== Sys2Proof/Laws/Mailbox.lean ====
section
/-! SUPPORT. Mailbox requests: a request that its sender formed is read back from the buffer as it was written. -/
namespace Sys2Proof.Machine

theorem mhSeal_length (h p : List Byte) : (mhSeal h p).length = h.length + 4 + p.length := by
  simp [mhSeal]; omega

/-- The 28 bytes of a request's header before MH_CRC. -/
def mhHead (op : Nat) (sq : W32) (ctx : W64) (n : Nat) : List Byte :=
  natLe 2 op ++ (zeros 2 ++ (natLe 4 sq.toNat ++ (natLe 4 n ++ (zeros 2 ++ ([1] ++ (zeros 1 ++ (natLe 8 ctx.toNat ++ zeros 4)))))))

theorem mhHead_length (op : Nat) (sq : W32) (ctx : W64) (n : Nat) : (mhHead op sq ctx n).length = 28 := by simp [mhHead]

theorem mhRequest_eq (op : Nat) (sq : W32) (ctx : W64) (p : List Byte) :
    mhRequest op sq ctx p =
      mhHead op sq ctx p.length ++ (natLe 4 (crc32c (mhHead op sq ctx p.length ++ p)) ++ p) := by
  simp [mhRequest, mhSeal, mhHead, List.append_assoc]

theorem mhRequest_length (op : Nat) (sq : W32) (ctx : W64) (p : List Byte) :
    (mhRequest op sq ctx p).length = 32 + p.length := by
  rw [mhRequest_eq]; simp [mhHead_length]; omega

theorem mhRequest_head (op : Nat) (sq : W32) (ctx : W64) (p : List Byte) :
    (mhRequest op sq ctx p).take 28 = mhHead op sq ctx p.length := by
  rw [mhRequest_eq, List.take_append_of_le_length (by simp [mhHead_length]), List.take_of_length_le (by simp [mhHead_length])]

/-- The buffer after a request has been put at its start. -/
theorem padTo_append {n : Nat} {a b : List Byte} (h : a.length ≤ n) : ∃ r, padTo n (a ++ b) = a ++ r := by
  refine ⟨b.take (n - a.length) ++ zeros (n - (a ++ b).length), ?_⟩
  rw [padTo, List.take_append, List.take_of_length_le h, List.append_assoc]

theorem mbxMod_mbxMod (d : Dev) (ch : Nat) (f g : Mailbox → Mailbox) :
    mbxMod (mbxMod d ch f) ch g = mbxMod d ch (fun m => g (f m)) := by
  simp [mbxMod, smMod]

@[simp] theorem mbxGet_mbxMod (d : Dev) (ch : Nat) (f : Mailbox → Mailbox) : mbxGet (mbxMod d ch f) ch = f (mbxGet d ch) := by
  simp [mbxGet, mbxMod, smMod]

@[simp] theorem mbxGet_pcAdd (d : Dev) (k n ch : Nat) : mbxGet (pcAdd d k n) ch = mbxGet d ch := rfl

/-- The fields of a request's header. -/
theorem mhHead_fields (op : Nat) (sq : W32) (ctx : W64) (n : Nat) (t : List Byte) (ho : op < 65536) (hn : n < 4294967296) :
    fld (mhHead op sq ctx n ++ t) 0 2 = op ∧ fld (mhHead op sq ctx n ++ t) 2 2 = 0 ∧
      fld (mhHead op sq ctx n ++ t) 4 4 = sq.toNat ∧ fld (mhHead op sq ctx n ++ t) 8 4 = n ∧
      fld (mhHead op sq ctx n ++ t) 12 2 = 0 ∧ fld (mhHead op sq ctx n ++ t) 14 1 = 1 ∧
      fld (mhHead op sq ctx n ++ t) 15 1 = 0 ∧ fld (mhHead op sq ctx n ++ t) 16 8 = ctx.toNat ∧
      fld (mhHead op sq ctx n ++ t) 24 4 = 0 := by
  have z : ∀ (k : Nat) (r : List Byte), fld (zeros k ++ r) 0 k = 0 := by
    intro k r
    rw [fld_append_left (by simp)]
    induction k with
    | zero => rfl
    | succ k ih =>
      have : fld (zeros (k + 1)) 0 (k + 1) = 0 + 256 * fld (zeros k) 0 k := rfl
      rw [this, ih]
  have hs := sq.isLt
  have hc := ctx.isLt
  simp only [mhHead, List.append_assoc]
  refine ⟨?_, ?_, ?_, ?_, ?_, ?_, ?_, ?_, ?_⟩
  · rw [fld_natLe_append]; exact Nat.mod_eq_of_lt ho
  · rw [fld_append_right (by simp)]
    simpa using z 2 _
  · rw [fld_append_right (by simp), fld_append_right (by simp)]
    exact (fld_natLe_append 4 _ _).trans (Nat.mod_eq_of_lt hs)
  · rw [fld_append_right (by simp), fld_append_right (by simp), fld_append_right (by simp)]
    exact (fld_natLe_append 4 _ _).trans (Nat.mod_eq_of_lt hn)
  · rw [fld_append_right (by simp), fld_append_right (by simp), fld_append_right (by simp), fld_append_right (by simp)]
    simpa using z 2 _
  · rw [fld_append_right (by simp), fld_append_right (by simp), fld_append_right (by simp), fld_append_right (by simp), fld_append_right (by simp)]
    rfl
  · rw [fld_append_right (by simp), fld_append_right (by simp), fld_append_right (by simp), fld_append_right (by simp), fld_append_right (by simp), fld_append_right (by simp)]
    simpa using z 1 _
  · rw [fld_append_right (by simp), fld_append_right (by simp), fld_append_right (by simp), fld_append_right (by simp), fld_append_right (by simp), fld_append_right (by simp), fld_append_right (by simp)]
    exact (fld_natLe_append 8 _ _).trans (Nat.mod_eq_of_lt hc)
  · rw [fld_append_right (by simp), fld_append_right (by simp), fld_append_right (by simp), fld_append_right (by simp), fld_append_right (by simp), fld_append_right (by simp), fld_append_right (by simp), fld_append_right (by simp)]
    simpa using z 4 _

/-- A request that stands in the buffer, in sequence, of a known opcode and open to its sender, is executed (Table 17-5). -/
theorem mbxServe_request {o : Otp} {d : Dev} {ch op : Nat} {sq : W32} {ctx : W64} {p rest : List Byte} (ho : op < 65536)
    (hl : p.length ≤ 4000) (hb : mbxBuf (mbxGet d ch) = mhRequest op sq ctx p ++ rest)
    (hs : (mbxGet d ch).seqFree = true ∨ sq = (mbxGet d ch).execSeq + 1) (hf : dzFind op ≠ none)
    (hp : dzOpen d ch op p = true) :
    mbxServe o d ch = mbxExecute o (pcAdd (mbxMod d ch (fun m => { m with phase := 1, late := [] })) (kMbx ch) 1) ch
      ⟨op, sq, ctx, p.length, retryKey ((mhRequest op sq ctx p).take 28) p, .guardHold, p⟩ := by
  unfold mbxServe
  dsimp only
  generalize hd : pcAdd (mbxMod d ch (fun m => { m with phase := 1, late := [] })) (kMbx ch) 1 = d1
  have hm : mbxGet d1 ch = { mbxGet d ch with phase := 1, late := [] } := by rw [← hd]; simp
  have hbuf : mbxBuf (mbxGet d1 ch) = mhRequest op sq ctx p ++ rest := by rw [hm]; exact hb
  have hopen : dzOpen d1 ch op p = true := by rw [← hd]; exact hp
  rw [hbuf, mhRequest_head]
  have hlen := mhHead_length op sq ctx p.length
  generalize hh : mhHead op sq ctx p.length = h at hlen
  have hbytes : mhRequest op sq ctx p ++ rest = h ++ (natLe 4 (crc32c (h ++ p)) ++ (p ++ rest)) := by
    rw [mhRequest_eq, hh]; simp [List.append_assoc]
  rw [hbytes]
  obtain ⟨f0, f2, f4, f8, f12, f14, f15, f16, f24⟩ := hh ▸ mhHead_fields op sq ctx p.length
    (natLe 4 (crc32c (h ++ p)) ++ (p ++ rest)) ho (by omega)
  have htake : (h ++ (natLe 4 (crc32c (h ++ p)) ++ (p ++ rest))).take 28 = h := List.take_left' hlen
  have hdrop : ((h ++ (natLe 4 (crc32c (h ++ p)) ++ (p ++ rest))).drop 32).take p.length = p := by
    rw [List.drop_append, List.drop_eq_nil_of_le (by omega), hlen, List.nil_append, List.drop_append,
      List.drop_eq_nil_of_le (by simp), natLe_length, List.nil_append, List.drop_zero, List.take_left' rfl]
  have hcrc : fld (h ++ (natLe 4 (crc32c (h ++ p)) ++ (p ++ rest))) 28 4 = crc32c (h ++ p) := by
    rw [fld_append_right (by omega), hlen, fld_natLe_append]
    exact Nat.mod_eq_of_lt (crc32c_lt _)
  rw [f0, f2, f4, f8, f12, f14, f15, f16, f24, htake, hdrop, hcrc]
  rw [if_neg (by omega), if_neg (by simp), if_neg (by simp)]
  have hnone : isRetry (mbxGet d1 ch) op sq.toNat p.length (retryKey h p) = none := by
    rw [hm]
    unfold isRetry
    split
    · rw [if_neg]
      rcases hs with hs | hs
      · simp [hs]
      · have : sq.toNat ≠ (mbxGet d ch).execSeq.toNat := by
          intro e
          have e := BitVec.eq_of_toNat_eq e
          rw [hs] at e
          revert e
          generalize (mbxGet d ch).execSeq = x
          intro e
          have : x + 1 - x = x - x := by rw [e]
          rw [BitVec.sub_self, BitVec.add_comm, BitVec.add_sub_cancel] at this
          exact absurd this (by decide)
        simp [this]
    · rfl
  rw [hnone]
  dsimp only
  rw [if_neg, if_neg hf, if_neg (by simp [hopen])]
  · simp
  · rw [hm]
    rcases hs with hs | hs
    · simp [hs]
    · simp [hs, BitVec.toNat_add]

end Sys2Proof.Machine
end

