-- ==== Sys2Proof/Laws/Memory.lean ====
section
/-! SUPPORT. Device memory: what the writing operations leave in it, and that each keeps its canonical form. -/
namespace Sys2Proof.Machine

@[simp] theorem markDirty_mem (d : Dev) (l : Nat) : (markDirty d l).mem = d.mem := by
  unfold markDirty; split <;> rfl

@[simp] theorem writeSide_mem (d : Dev) (l : Nat) : (writeSide d l).mem = d.mem := by
  unfold writeSide; split <;> simp

@[simp] theorem foldl_writeSide_mem (ls : List Nat) (d : Dev) : (ls.foldl writeSide d).mem = d.mem := by
  induction ls generalizing d with
  | nil => rfl
  | cons l t ih => simp [ih]

@[simp] theorem memWrite_mem (d : Dev) (a : Nat) (bs : List Byte) : (memWrite d a bs).mem = smSetList 0 d.mem a bs := by
  simp [memWrite]

@[simp] theorem memZero_mem (d : Dev) (a n : Nat) :
    (memZero d a n).mem = d.mem.filter (fun c => decide (c.1 < a) || decide (a + n ≤ c.1)) := by
  simp [memZero]

@[simp] theorem memMix_mem (d : Dev) (a n : Nat) (vs : List (List Byte)) :
    (memMix d a n vs).mem = smSetList 0 d.mem a (mixBytes d.freeIdx 0 n (memRead d a n :: vs)) := by
  simp [memMix, bump]

@[simp] theorem memLoose_mem (d : Dev) (a n : Nat) :
    (memLoose d a n).mem = smSetList 0 d.mem a ((List.range n).map (fun i => Config.freeByte (d.freeIdx * 4294967296 + i))) := by
  simp [memLoose, bump]

@[simp] theorem mixBytes_length (seed j0 n : Nat) (vs : List (List Byte)) : (mixBytes seed j0 n vs).length = n := by
  simp [mixBytes]

/-- A write changes memory, side-bands and the dirty maps of the objects, and nothing else. -/
theorem writeSide_frame (d : Dev) (l : Nat) : ∃ side objs, writeSide d l = { d with side := side, objs := objs } := by
  unfold writeSide markDirty
  repeat' split
  all_goals exact ⟨_, _, rfl⟩

theorem foldl_writeSide_frame (ls : List Nat) (d : Dev) :
    ∃ side objs, ls.foldl writeSide d = { d with side := side, objs := objs } := by
  induction ls generalizing d with
  | nil => exact ⟨_, _, rfl⟩
  | cons l t ih =>
    obtain ⟨a, b, h⟩ := writeSide_frame d l
    obtain ⟨a', b', h'⟩ := ih (writeSide d l)
    rw [List.foldl_cons, h', h]
    exact ⟨_, _, rfl⟩

theorem memWrite_frame (d : Dev) (a : Nat) (bs : List Byte) :
    ∃ side objs, memWrite d a bs = { d with mem := smSetList 0 d.mem a bs, side := side, objs := objs } :=
  foldl_writeSide_frame _ _

/-- A byte inside a write is the byte written. -/
theorem byteAt_memWrite_in (d : Dev) (a : Nat) (bs : List Byte) (i : Nat) (h : i < bs.length) :
    byteAt (memWrite d a bs) (a + i) = bs[i] := by
  rw [byteAt, memWrite_mem, smGet_smSetList_in 0 bs d.mem a i h]

/-- A byte outside a write is as before. -/
theorem byteAt_memWrite_out (d : Dev) (a : Nat) (bs : List Byte) (x : Nat) (h : x < a ∨ a + bs.length ≤ x) :
    byteAt (memWrite d a bs) x = byteAt d x := by
  rw [byteAt, memWrite_mem, smGet_smSetList_out 0 bs d.mem a x h, byteAt]

/-- Reading the range of a write gives the bytes written. -/
theorem memRead_memWrite (d : Dev) (a : Nat) (bs : List Byte) : memRead (memWrite d a bs) a bs.length = bs := by
  apply List.ext_getElem
  · simp [memRead]
  · intro i h1 h2
    simp [memRead, byteAt_memWrite_in d a bs i h2]

/-- Reading a range apart from a write gives what stood there. -/
theorem memRead_memWrite_apart (d : Dev) (a : Nat) (bs : List Byte) (b n : Nat) (h : b + n ≤ a ∨ a + bs.length ≤ b) :
    memRead (memWrite d a bs) b n = memRead d b n := by
  apply List.map_congr_left
  intro i hi
  exact byteAt_memWrite_out d a bs (b + i) (by simp at hi; omega)

theorem smGet_filter_range (m : SMap Byte) (a n x : Nat) :
    smGet 0 (m.filter (fun c => decide (c.1 < a) || decide (a + n ≤ c.1))) x =
      if x < a ∨ a + n ≤ x then smGet 0 m x else 0 := by
  induction m with
  | nil => simp [smGet]
  | cons e t ih =>
    obtain ⟨k, v⟩ := e
    by_cases hk : k < a ∨ a + n ≤ k
    · have : (decide (k < a) || decide (a + n ≤ k)) = true := by simpa using hk
      rw [List.filter_cons_of_pos (by simpa using hk), smGet, smGet, ih]
      by_cases hx : k = x
      · subst hx; simp [hk]
      · simp [hx]
    · have hn : ¬ (decide (k < a) || decide (a + n ≤ k)) = true := by simpa using hk
      rw [List.filter_cons_of_neg (by simpa using hk), smGet, ih]
      by_cases hx : k = x
      · subst hx; simp [hk]
      · simp [hx]

/-- After zeroing, bytes of the range read 0 and the others as before. -/
theorem byteAt_memZero (d : Dev) (a n x : Nat) :
    byteAt (memZero d a n) x = if x < a ∨ a + n ≤ x then byteAt d x else 0 := by
  rw [byteAt, memZero_mem, smGet_filter_range, byteAt]

/-! ### The canonical form -/

theorem memWrite_wf (d : Dev) (a : Nat) (bs : List Byte) (h : Memory.wf d.mem = true) : Memory.wf (memWrite d a bs).mem = true := by
  simpa [Memory.wf] using smWf_smSetList 0 bs a h

theorem memZero_wf (d : Dev) (a n : Nat) (h : Memory.wf d.mem = true) : Memory.wf (memZero d a n).mem = true := by
  simpa [Memory.wf] using smWf_filter 0 _ h

theorem memMix_wf (d : Dev) (a n : Nat) (vs : List (List Byte)) (h : Memory.wf d.mem = true) :
    Memory.wf (memMix d a n vs).mem = true := by
  simpa [Memory.wf] using smWf_smSetList 0 _ a h

theorem memLoose_wf (d : Dev) (a n : Nat) (h : Memory.wf d.mem = true) : Memory.wf (memLoose d a n).mem = true := by
  simpa [Memory.wf] using smWf_smSetList 0 _ a h

/-- A byte inside an undefined range is a byte of one of the values involved (R18). -/
theorem byteAt_memMix_in (d : Dev) (a n : Nat) (vs : List (List Byte)) (i : Nat) (h : i < n) :
    ∃ v ∈ memRead d a n :: vs, byteAt (memMix d a n vs) (a + i) = v.getD i 0 := by
  let l := memRead d a n :: vs
  have hk : freePick d.freeIdx (0 + i) l.length < l.length := by
    simp only [freePick]; exact Nat.mod_lt _ (by simp [l])
  refine ⟨l[freePick d.freeIdx (0 + i) l.length], List.getElem_mem hk, ?_⟩
  have hl : i < (mixBytes d.freeIdx 0 n l).length := by simpa using h
  rw [byteAt, memMix_mem, smGet_smSetList_in 0 _ d.mem a i hl]
  have e : (mixBytes d.freeIdx 0 n l)[i] = (l.getD (freePick d.freeIdx (0 + i) l.length) []).getD i 0 := by simp [mixBytes]
  have e' : l.getD (freePick d.freeIdx (0 + i) l.length) [] = l[freePick d.freeIdx (0 + i) l.length] := by
    rw [List.getD_eq_getElem?_getD, List.getElem?_eq_getElem hk]; rfl
  rw [e, e']

/-- A byte outside it is as before. -/
theorem byteAt_memMix_out (d : Dev) (a n : Nat) (vs : List (List Byte)) (x : Nat) (h : x < a ∨ a + n ≤ x) :
    byteAt (memMix d a n vs) x = byteAt d x := by
  rw [byteAt, memMix_mem, smGet_smSetList_out 0 _ d.mem a x (by simpa using h), byteAt]

end Sys2Proof.Machine
end

