-- ==== Sys2Proof/Laws/Packets.lean ====
section
/-! SUPPORT. Packets: what taking one from the inbox leaves alone. -/
namespace Sys2Proof.Machine

/-- A packet that leaves the inbox changes the inbox and the port it came in by, whose credits go back (R361, R372). -/
theorem takePkt_frame (d : Dev) (port : Nat) (p : Pkt) :
    ∃ ports inbox, takePkt d port p = { d with fab := { d.fab with ports := ports, inbox := inbox } } := by
  unfold takePkt freeInput
  split
  · exact ⟨_, _, rfl⟩
  · exact ⟨_, _, rfl⟩

@[simp] theorem takePkt_mem (d : Dev) (port : Nat) (p : Pkt) : (takePkt d port p).mem = d.mem := by
  obtain ⟨_, _, h⟩ := takePkt_frame d port p; rw [h]
@[simp] theorem takePkt_streams (d : Dev) (port : Nat) (p : Pkt) : (takePkt d port p).streams = d.streams := by
  obtain ⟨_, _, h⟩ := takePkt_frame d port p; rw [h]
@[simp] theorem takePkt_queues (d : Dev) (port : Nat) (p : Pkt) : (takePkt d port p).queues = d.queues := by
  obtain ⟨_, _, h⟩ := takePkt_frame d port p; rw [h]
@[simp] theorem takePkt_guard (d : Dev) (port : Nat) (p : Pkt) : (takePkt d port p).guard = d.guard := by
  obtain ⟨_, _, h⟩ := takePkt_frame d port p; rw [h]
@[simp] theorem takePkt_chans (d : Dev) (port : Nat) (p : Pkt) : (takePkt d port p).chans = d.chans := by
  obtain ⟨_, _, h⟩ := takePkt_frame d port p; rw [h]
@[simp] theorem takePkt_reqs (d : Dev) (port : Nat) (p : Pkt) : (takePkt d port p).fab.reqs = d.fab.reqs := by
  obtain ⟨_, _, h⟩ := takePkt_frame d port p; rw [h]
@[simp] theorem takePkt_relay (d : Dev) (port : Nat) (p : Pkt) : (takePkt d port p).fab.relay = d.fab.relay := by
  obtain ⟨_, _, h⟩ := takePkt_frame d port p; rw [h]
@[simp] theorem takePkt_freeIdx (d : Dev) (port : Nat) (p : Pkt) : (takePkt d port p).freeIdx = d.freeIdx := by
  obtain ⟨_, _, h⟩ := takePkt_frame d port p; rw [h]
@[simp] theorem takePkt_burns (d : Dev) (port : Nat) (p : Pkt) : (takePkt d port p).burns = d.burns := by
  obtain ⟨_, _, h⟩ := takePkt_frame d port p; rw [h]

end Sys2Proof.Machine
end

