-- ==== Sys2Proof/Laws/Pages.lean ====
section
/-! SUPPORT. What a log record, a Ledger entry and an event of a page can change: the Logbook, the Ledger and its flash, the
counters, the pages' placement and memory; nothing else. -/
namespace Sys2Proof.Machine

/-- `d'` differs from `d` in the Logbook, the Ledger, the counters, the pages and memory at most. -/
def RecordsOnly (d d' : Dev) : Prop :=
  ∃ mem side log lg flash int pools freeIdx pcs,
    d' = { d with mem := mem, side := side, log := log, lg := lg, flash := flash, int := int, pools := pools,
                  freeIdx := freeIdx, pcs := pcs }

theorem RecordsOnly.refl (d : Dev) : RecordsOnly d d := ⟨_, _, _, _, _, _, _, _, _, rfl⟩

theorem RecordsOnly.trans {a b c : Dev} (h : RecordsOnly a b) (k : RecordsOnly b c) : RecordsOnly a c := by
  obtain ⟨_, _, _, _, _, _, _, _, _, rfl⟩ := h
  obtain ⟨_, _, _, _, _, _, _, _, _, rfl⟩ := k
  exact ⟨_, _, _, _, _, _, _, _, _, rfl⟩

theorem RecordsOnly.fold {α : Type} {f : Dev → α → Dev} (h : ∀ d x, RecordsOnly d (f d x)) (l : List α) (d : Dev) :
    RecordsOnly d (l.foldl f d) := by
  induction l generalizing d with
  | nil => exact .refl d
  | cons x l ih => exact (h d x).trans (ih _)

/-- `d'` differs from `d` in the Logbook, the Ledger, its flash and the counters at most. -/
def LedgerOnly (d d' : Dev) : Prop :=
  ∃ log lg flash freeIdx pcs, d' = { d with log := log, lg := lg, flash := flash, freeIdx := freeIdx, pcs := pcs }

theorem LedgerOnly.refl (d : Dev) : LedgerOnly d d := ⟨_, _, _, _, _, rfl⟩

theorem LedgerOnly.trans {a b c : Dev} (h : LedgerOnly a b) (k : LedgerOnly b c) : LedgerOnly a c := by
  obtain ⟨_, _, _, _, _, rfl⟩ := h
  obtain ⟨_, _, _, _, _, rfl⟩ := k
  exact ⟨_, _, _, _, _, rfl⟩

theorem LedgerOnly.fold {α : Type} {f : Dev → α → Dev} (h : ∀ d x, LedgerOnly d (f d x)) (l : List α) (d : Dev) :
    LedgerOnly d (l.foldl f d) := by
  induction l generalizing d with
  | nil => exact .refl d
  | cons x t ih => exact (h d x).trans (ih _)

theorem LedgerOnly.records {d d' : Dev} (h : LedgerOnly d d') : RecordsOnly d d' := by
  obtain ⟨_, _, _, _, _, rfl⟩ := h
  exact ⟨_, _, _, _, _, _, _, _, _, rfl⟩

theorem bump_ledger (d : Dev) : LedgerOnly d (bump d) := ⟨_, _, _, _, _, rfl⟩

theorem pcAdd_ledger (d : Dev) (i n : Nat) : LedgerOnly d (pcAdd d i n) := ⟨_, _, _, _, _, rfl⟩

theorem log6_ledger (d : Dev) (st k u : Nat) : LedgerOnly d (log6 d st k u) := ⟨_, _, _, _, _, rfl⟩

theorem logRec_ledger (d : Dev) (a b c e f g h : Nat) (i : Bool) (l : List Byte) :
    LedgerOnly d (logRec d a b c e f g h i l) := ⟨_, _, _, _, _, rfl⟩

theorem lgDropBad_ledger (d : Dev) : LedgerOnly d (lgDropBad d) := by
  unfold lgDropBad
  dsimp only
  repeat' split
  all_goals exact ⟨_, _, _, _, _, rfl⟩

theorem evPut_ledger (d : Dev) (a b c e : Nat) : LedgerOnly d (evPut d a b c e) := by
  unfold evPut
  refine (lgDropBad_ledger d).trans ?_
  dsimp only
  repeat' split
  all_goals exact ⟨_, _, _, _, _, rfl⟩

theorem evAppend_ledger (d : Dev) (a b c e : Nat) : LedgerOnly d (evAppend d a b c e) := by
  unfold evAppend
  split
  · refine LedgerOnly.trans ?_ (evPut_ledger _ _ _ _ _)
    exact LedgerOnly.trans ⟨_, _, _, _, _, rfl⟩ (evPut_ledger _ _ _ _ _)
  · exact evPut_ledger _ _ _ _ _

theorem lgBump_ledger (d : Dev) (i n : Nat) : LedgerOnly d (lgBump d i n) := ⟨_, _, _, _, _, rfl⟩

theorem lgCheck_ledger (d : Dev) (i : Nat) : LedgerOnly d (lgCheck d i) := by
  have one : ∀ (y : Dev) (x : Ledger) (st k a b c e : Nat),
      LedgerOnly y (evAppend (log6 { y with lg := x } st k 0) a b c e) := fun y x st k a b c e =>
    LedgerOnly.trans ⟨_, _, _, _, _, rfl⟩ (evAppend_ledger _ a b c e)
  have last : ∀ y : Dev, LedgerOnly d y → LedgerOnly d
      (if (lgGet d i).toNat = 2 ^ 64 - 1 ∧ ¬y.lg.maxed.contains i then
        evAppend (log6 { y with lg := { y.lg with maxed := y.lg.maxed ++ [i] } } stLgSaturated 7 0) 9 2 i (lgGet d i).toNat
      else y) := by
    intro y h
    split
    · exact h.trans (one _ _ _ _ _ _ _ _)
    · exact h
  refine last _ ?_
  split
  · split
    · exact one _ _ _ _ _ _ _ _
    · exact .refl d
  · exact .refl d

theorem lgIslands_ledger (o : Otp) (d : Dev) : LedgerOnly d (lgIslands o d) := by
  unfold lgIslands
  refine LedgerOnly.trans (LedgerOnly.fold (fun d x => ?_) _ d) (bump_ledger _)
  split
  · exact (lgBump_ledger d _ _).trans (lgCheck_ledger _ _)
  · exact .refl d

theorem lgWrite_ledger (d : Dev) : LedgerOnly d (lgWrite d) := by
  unfold lgWrite
  refine (lgDropBad_ledger d).trans ?_
  dsimp only
  split
  · exact .refl _
  · exact ⟨_, _, _, _, _, rfl⟩

theorem lgCommit_ledger (o : Otp) (d : Dev) : LedgerOnly d (lgCommit o d) := by
  unfold lgCommit
  split
  · exact ((lgIslands_ledger o d).trans (lgWrite_ledger _)).trans (lgCheck_ledger _ _)
  · exact .refl d

theorem lgAdd_ledger (o : Otp) (d : Dev) (i n : Nat) : LedgerOnly d (lgAdd o d i n) := by
  unfold lgAdd
  have h := (lgBump_ledger d i n).trans (lgCheck_ledger _ i)
  split
  · exact .refl d
  · dsimp only
    split
    · exact h
    · exact h.trans (lgCommit_ledger o _)

theorem lgEvent_ledger (o : Otp) (d : Dev) (a b c e : Nat) : LedgerOnly d (lgEvent o d a b c e) := by
  unfold lgEvent
  split
  · exact (evAppend_ledger d a b c e).trans (lgCommit_ledger o _)
  · exact .refl d

theorem bump_records (d : Dev) :
    RecordsOnly d (bump d) := (bump_ledger d).records

theorem pcAdd_records (d : Dev) (i n : Nat) :
    RecordsOnly d (pcAdd d i n) := (pcAdd_ledger d i n).records

theorem log6_records (d : Dev) (st k u : Nat) :
    RecordsOnly d (log6 d st k u) := (log6_ledger d st k u).records

theorem logRec_records (d : Dev) (a b c e f g h : Nat) (i : Bool) (l : List Byte) :
    RecordsOnly d (logRec d a b c e f g h i l) := (logRec_ledger d a b c e f g h i l).records

theorem lgDropBad_records (d : Dev) :
    RecordsOnly d (lgDropBad d) := (lgDropBad_ledger d).records

theorem evPut_records (d : Dev) (a b c e : Nat) :
    RecordsOnly d (evPut d a b c e) := (evPut_ledger d a b c e).records

theorem evAppend_records (d : Dev) (a b c e : Nat) :
    RecordsOnly d (evAppend d a b c e) := (evAppend_ledger d a b c e).records

theorem lgBump_records (d : Dev) (i n : Nat) :
    RecordsOnly d (lgBump d i n) := (lgBump_ledger d i n).records

theorem lgCheck_records (d : Dev) (i : Nat) :
    RecordsOnly d (lgCheck d i) := (lgCheck_ledger d i).records

theorem lgIslands_records (o : Otp) (d : Dev) :
    RecordsOnly d (lgIslands o d) := (lgIslands_ledger o d).records

theorem lgWrite_records (d : Dev) :
    RecordsOnly d (lgWrite d) := (lgWrite_ledger d).records

theorem lgCommit_records (o : Otp) (d : Dev) :
    RecordsOnly d (lgCommit o d) := (lgCommit_ledger o d).records

theorem lgAdd_records (o : Otp) (d : Dev) (i n : Nat) :
    RecordsOnly d (lgAdd o d i n) := (lgAdd_ledger o d i n).records

theorem lgEvent_records (o : Otp) (d : Dev) (a b c e : Nat) :
    RecordsOnly d (lgEvent o d a b c e) := (lgEvent_ledger o d a b c e).records

theorem poolSet_records (d : Dev) (m : Nat) (v : MemPool) : RecordsOnly d (poolSet d m v) := ⟨_, _, _, _, _, _, _, _, _, rfl⟩

theorem growReserve_records (m k : Nat) (d : Dev) : RecordsOnly d (growReserve m k d).1 := by
  unfold growReserve
  exact poolSet_records _ _ _

theorem swapPage_records (o : Otp) (d : Dev) (m page : Nat) : RecordsOnly d (swapPage o d m page) := by
  refine RecordsOnly.trans ?_ (lgEvent_records _ _ _ _ _ _)
  refine RecordsOnly.trans ?_ (lgAdd_records _ _ _ _)
  refine RecordsOnly.trans ?_ (logRec_records _ _ _ _ _ _ _ _ _ _)
  refine RecordsOnly.trans ?_ (growReserve_records _ _ _)
  exact ⟨_, _, _, _, _, _, _, _, _, rfl⟩

theorem markChannel_records (o : Otp) (d : Dev) (m page : Nat) : RecordsOnly d (markChannel o d m page) := by
  unfold markChannel
  dsimp only
  split
  · exact .refl d
  · exact (poolSet_records _ _ _).trans (lgEvent_records _ _ _ _ _ _)

theorem retirePage_records (o : Otp) (d : Dev) (m page : Nat) : RecordsOnly d (retirePage o d m page) := by
  unfold retirePage
  dsimp only
  split
  · exact .refl d
  · split
    · exact (poolSet_records d _ _).trans (log6_records _ _ _ _)
    · exact (swapPage_records o d m page).trans (markChannel_records _ _ _ _)

theorem pageCount_records (d : Dev) (a : Nat) (c : Bool) : RecordsOnly d (pageCount d a c).1 :=
  ⟨_, _, _, _, _, _, _, _, _, rfl⟩

theorem pageEvent_records (o : Otp) (d : Dev) (a : Nat) (c : Bool) : RecordsOnly d (pageEvent o d a c) := by
  unfold pageEvent
  dsimp only
  split
  · exact .refl d
  · split
    · exact (pageCount_records d a c).trans (retirePage_records _ _ _ _)
    · exact pageCount_records d a c

/-- A side-band error that a read finds changes records, counters and pages only. -/
theorem sideRead_records (o : Otp) (d : Dev) (a n : Nat) : RecordsOnly d (sideRead o d a n).1 := by
  unfold sideRead
  dsimp only
  have b := (bump_records d).trans (bump_records _)
  split
  · exact .refl d
  · split
    · exact (b.trans (pcAdd_records _ _ _)).trans (pageEvent_records _ _ _ _)
    · split
      · exact b.trans (pageEvent_records _ _ _ _)
      · exact b

/-- So does a read of a protected record that is repeated. -/
theorem readRecord_records (o : Otp) (d : Dev) (a : Nat) (good : Bool) (rr : Nat) :
    RecordsOnly d (readRecord o d a good rr).1 := by
  unfold readRecord
  split
  · exact .refl d
  · split
    · exact .refl d
    · exact (pcAdd_records d _ _).trans (pageEvent_records _ _ _ _)

/-- The side-bands that a plan entry reads. -/
theorem planSides_records (o : Otp) (d : Dev) (e : List Byte) : RecordsOnly d (planSides o d e) := by
  unfold planSides
  dsimp only
  split
  · exact .refl d
  · split
    · split
      · exact sideRead_records _ _ _ _
      · exact .refl d
    · exact (sideRead_records _ _ _ _).trans (sideRead_records _ _ _ _)

end Sys2Proof.Machine
end

