-- ==== Sys2Proof/Laws/Queues.lean ====
section
/-! SUPPORT. Queues: what a change to a running command leaves alone, and what a command not yet started does. -/
namespace Sys2Proof.Machine

/-- `d'` differs from `d` in its queues at most. -/
def QueuesOnly (d d' : Dev) : Prop := ∃ m, d' = { d with queues := m }

theorem qMod_frame (d : Dev) (q : Nat) (f : Queue → Queue) : QueuesOnly d (qMod d q f) := by
  unfold qMod
  split
  · exact ⟨_, rfl⟩
  · exact ⟨d.queues, rfl⟩

/-- Changing a running command changes only the queues. -/
theorem runMod_frame (d : Dev) (q sq : Nat) (f : Running → Running) : QueuesOnly d (runMod d q sq f) := qMod_frame _ _ _

/-- The first command that a queue has not yet started is begun and carried out. -/
theorem onFresh_fresh {d : Dev} {q : Nat} {op : Nat → Bool} {v : Queue} {r : Running} {f : Dev → Queue → Running → Dev}
    (h : fresh d q op = some (v, r)) :
    onFresh d q op f = f (runMod d q r.cmd.cseq.toNat (fun r => { r with started := true })) v r := by
  unfold onFresh
  rw [h]

end Sys2Proof.Machine
end

