-- ==== Sys2Proof/Laws/State.lean ====
section
/-! SUPPORT. The small lemmas of the state and of the operations that every meaning goes through. -/
namespace Sys2Proof.Machine

/-! ### Carrying out an effect -/

@[simp] theorem settle_pending (f : Otp → Dev → Dev) (s : State) : (settle f s).pending = s.pending := rfl
@[simp] theorem settle_dev (f : Otp → Dev → Dev) (s : State) : (settle f s).dev = { f s.otp s.dev with burns := [] } := rfl
@[simp] theorem settle_otp (f : Otp → Dev → Dev) (s : State) :
    (settle f s).otp = settleOtp s.otp (f s.otp s.dev).burns := rfl

/-- The answer of a command that goes on is the settled effect. -/
theorem runDev_next (f : Otp → Dev → Dev) (s : State) : runDev f s = .next (settle f s) := rfl

theorem runDev_eq_next {f : Otp → Dev → Dev} {s t : State} (h : runDev f s = .next t) : t = settle f s := by
  cases h; rfl

/-- An effect that asks for no fuse leaves the fuses. -/
theorem settleOtp_nil (o : Otp) : settleOtp o [] = o := rfl

/-! ### One step -/

@[simp] theorem step_idle (s : State) (h : s.pending = []) : step s = .next s := by simp [step, h]
@[simp] theorem step_cons (s : State) (i : Instr) (rest : List Instr) (h : s.pending = i :: rest) :
    step s = exec i { s with pending := rest } := by simp [step, h]

@[simp] theorem withFetchWord_eq (s : State) (n w : Nat) : s.withFetchWord n w = s := rfl

/-! ### Counters -/

@[simp] theorem pcAdd_mem (d : Dev) (k n : Nat) : (pcAdd d k n).mem = d.mem := rfl
@[simp] theorem pcAdd_streams (d : Dev) (k n : Nat) : (pcAdd d k n).streams = d.streams := rfl
@[simp] theorem pcAdd_burns (d : Dev) (k n : Nat) : (pcAdd d k n).burns = d.burns := rfl
@[simp] theorem pcAdd_mbox (d : Dev) (k n : Nat) : (pcAdd d k n).mbox = d.mbox := rfl
@[simp] theorem pcAdd_fab (d : Dev) (k n : Nat) : (pcAdd d k n).fab = d.fab := rfl
@[simp] theorem pcAdd_host (d : Dev) (k n : Nat) : (pcAdd d k n).host = d.host := rfl
@[simp] theorem pcAdd_pow (d : Dev) (k n : Nat) : (pcAdd d k n).pow = d.pow := rfl
@[simp] theorem bump_freeIdx (d : Dev) : (bump d).freeIdx = d.freeIdx + 1 := rfl
@[simp] theorem bump_mem (d : Dev) : (bump d).mem = d.mem := rfl
@[simp] theorem bump_burns (d : Dev) : (bump d).burns = d.burns := rfl

/-! ### Tallies -/

@[simp] theorem tallyStore_tallies (d : Dev) (k : Nat) (t : TallyV) :
    (tallyStore d k t).tallies = smSet tally0 d.tallies k t := rfl
@[simp] theorem tallyStore_mem (d : Dev) (k : Nat) (t : TallyV) : (tallyStore d k t).mem = d.mem := rfl
@[simp] theorem tallyStore_burns (d : Dev) (k : Nat) (t : TallyV) : (tallyStore d k t).burns = d.burns := rfl
@[simp] theorem tallyStore_int (d : Dev) (k : Nat) (t : TallyV) : (tallyStore d k t).int = d.int := rfl
@[simp] theorem tallyStore_fab (d : Dev) (k : Nat) (t : TallyV) : (tallyStore d k t).fab = d.fab := rfl
@[simp] theorem tallyStore_host (d : Dev) (k : Nat) (t : TallyV) : (tallyStore d k t).host = d.host := rfl

/-- A read of an entry that no injected flip has struck changes nothing. -/
theorem ctlUse_none {d : Dev} {a i : Nat} (h : Unharmed d a i) : ctlUse d a i = (d, false) := by
  unfold Unharmed at h; simp [ctlUse, h]

/-- Nor does a read of any entry while no injected flip stands. -/
theorem ctlUse_clean {d : Dev} (h : d.int.injects = []) (a i : Nat) : ctlUse d a i = (d, false) := by simp [ctlUse, h]

theorem catUse_clean {d : Dev} (h : d.int.injects = []) (t : Nat) : catUse d t = d := by simp [catUse, ctlUse_clean h]

theorem hrdUse_clean {d : Dev} (h : d.int.injects = []) (t s row : Nat) : hrdUse d t s row = d := by
  have h : ∀ l : List Nat, l.foldl (fun d w => (ctlUse d 1 (hrdSet t s row * 8 + w)).1) d = d := by
    intro l
    induction l with
    | nil => rfl
    | cons a l ih => simpa [ctlUse_clean h] using ih
  exact h _

theorem paramUse_clean {d : Dev} (h : d.int.injects = []) (n : Nat) : paramUse d n = d := by simp [paramUse, ctlUse_clean h]

theorem paramsUse_clean {d : Dev} (h : d.int.injects = []) (l : List (Nat × Param)) :
    l.foldl (fun d x => paramUse d x.1) d = d := by
  induction l with
  | nil => rfl
  | cons a l ih => simpa [paramUse_clean h] using ih

theorem verUse_clean {d : Dev} (h : d.int.injects = []) : verUse d = d := by simp [verUse, ctlUse_clean h]

theorem combUse_clean {d : Dev} (h : d.int.injects = []) (n : Nat) : combUse d n = d := by simp [combUse, ctlUse_clean h]

theorem tallyLook_none {d : Dev} {r : Nat} (h : Unharmed d 0 (tallyKey r)) : tallyLook d r = d := by
  simp [tallyLook, ctlUse_none h]

/-- A signal to a tally that no injected flip has struck is one act of storing. -/
theorem tallyAdd_unharmed {d : Dev} {r inc : Nat} (h : Unharmed d 0 (tallyKey r)) :
    tallyAdd d r inc = tallyStore d (tallyKey r) (tallyAddV (tallyGet d r) inc) := by
  simp [tallyAdd, tallyLook_none h]

end Sys2Proof.Machine
end

