-- ==== Sys2Proof/Laws/Streams.lean ====
section
/-! SUPPORT. Streams: what the next slot of an engine does when nothing holds it up, and what slots leave alone. -/
namespace Sys2Proof.Machine

/-- The next slot of an engine that nothing holds up is carried out. -/
theorem onSlot_fronts {o : Otp} {d : Dev} {e : Nat} {v : Stream} {sl : Slot} {rest : List Slot} {p : Slot → Bool}
    {f : Dev → Stream → Slot → Dev} (h : Fronts o d e v sl rest) (hp : p sl = true) : onSlot o d e p f = f d v sl := by
  obtain ⟨h1, h2, h3, h4, h5, h6, h7, h8, h9⟩ := h
  simp [onSlot, h1, h2, h3, h4, h5, h6, h7, h8, h9, hp]

/-- A slot all of whose bytes are at hand goes on. -/
theorem slotNeed_local {d : Dev} {e : Nat} {v : Stream} {rs : List (Nat × Nat)} {k : Dev} (h : gaMissing d v.rbuf rs = []) :
    slotNeed d e v rs k = k := by
  unfold slotNeed
  generalize gaMissing d v.rbuf rs = m at h ⊢
  subst h
  rfl

/-- A command all of whose bytes are at hand goes on. -/
theorem cmdNeed_local {d : Dev} {q : Nat} {r : Running} {rs : List (Nat × Nat)} {k : Dev} (h : gaMissing d r.rbuf rs = []) :
    cmdNeed d q r rs k = k := by
  unfold cmdNeed
  generalize gaMissing d r.rbuf rs = m at h ⊢
  subst h
  rfl

/-- An access pattern that the instruction cache holds is read there. -/
theorem withAp_held {d : Dev} {e i : Nat} {v : Stream} {g : Gen} {blk : List Byte} {k : Dev → List Byte → Dev}
    (hg : stGen d v = some g) (h : icFind d e v.handle v.gen ((g.apOff + 64 * i) / 1024) = some blk) :
    withAp d e v i k = k (icPut d e v.handle v.gen ((g.apOff + 64 * i) / 1024) blk)
      ((blk.drop ((g.apOff + 64 * i) % 1024)).take 64) := by
  simp only [withAp, hg, withBlock, h]

/-- Marking a binding as checked changes neither the generations nor the caches. -/
theorem markChecked_frame (d : Dev) (e b : Nat) : ∃ m, markChecked d e b = { d with streams := m } := by
  unfold markChecked stMod; split
  · exact ⟨_, rfl⟩
  · exact ⟨d.streams, rfl⟩

/-- The active command of a queue is carried out. -/
theorem onActive_awaits {d : Dev} {q : Nat} {v : Queue} {r : Running} {p : Running → Bool} {f : Dev → Queue → Running → Dev}
    (h : Awaits d q v r p) : onActive d q p f = f d v r := by
  unfold onActive
  rw [h.1]
  simp only [h.2]

@[simp] theorem stGet_stSet (d : Dev) (e : Nat) (v : Stream) : stGet (stSet d e v) e = some v := by
  simp [stGet, stSet]

theorem stGet_stSet_ne (d : Dev) {e x : Nat} (v : Stream) (h : x ≠ e) : stGet (stSet d e v) x = stGet d x := by
  simp [stGet, stSet, smGet_smSet_ne _ _ _ h]

/-- `d'` differs from `d` in its streams at most. -/
def StreamsOnly (d d' : Dev) : Prop := ∃ m, d' = { d with streams := m }

theorem StreamsOnly.refl (d : Dev) : StreamsOnly d d := ⟨d.streams, rfl⟩

theorem StreamsOnly.trans {a b c : Dev} (h : StreamsOnly a b) (k : StreamsOnly b c) : StreamsOnly a c := by
  obtain ⟨m, rfl⟩ := h
  obtain ⟨n, rfl⟩ := k
  exact ⟨n, rfl⟩

theorem stSet_frame (d : Dev) (e : Nat) (v : Stream) : StreamsOnly d (stSet d e v) := ⟨_, rfl⟩

theorem stMod_frame (d : Dev) (e : Nat) (f : Stream → Stream) : StreamsOnly d (stMod d e f) := by
  unfold stMod; split
  · exact stSet_frame d e _
  · exact .refl d

theorem stFault_frame (d : Dev) (e st : Nat) : StreamsOnly d (stFault d e st) := stMod_frame d e _

/-- Meeting waits changes nothing but the streams, once the wait's tally has been read. -/
theorem advance_frame (d : Dev) (e : Nat) : StreamsOnly d (advance d e) ∨ ∃ r, StreamsOnly (tallyLook d r) (advance d e) := by
  unfold advance
  split
  · exact .inl (.refl d)
  · split
    · right
      dsimp only
      split
      · exact ⟨_, .refl _⟩
      · split
        · exact ⟨_, stFault_frame _ _ _⟩
        · split <;> exact ⟨_, stSet_frame _ _ _⟩
    · left
      split
      · exact stSet_frame _ _ _
      · exact .refl d

/-- With no wait pending it changes nothing but the streams. -/
theorem advance_frame_met {d : Dev} {e : Nat} {v : Stream} (h : stGet d e = some v) (hw : v.waits = []) :
    StreamsOnly d (advance d e) := by
  simp only [advance, h, hw]
  split
  · exact stSet_frame _ _ _
  · exact .refl d

end Sys2Proof.Machine
end

