-- ==== Sys2Proof/WellFormed.lean ====
section
/-! DEFINITION. Which commands are well formed: every operand stands in the range that its encoding on the part gives it.
A command outside is a command that no event of the part can spell; its meaning is still total. -/
namespace Sys2Proof

/-- Queue numbers are one byte (R132). -/
def inQueue (q : Nat) : Bool := decide (q < 256)
/-- Function 0 is the physical function, 1 to 7 the virtual functions (R440). -/
def inFn (fn : Nat) : Bool := decide (fn < 8)
/-- Sixteen mailbox channels, and 16 for MCTP. -/
def inChannel (ch : Nat) : Bool := decide (ch ≤ 16)
/-- The instances of an engine class (Table 5-5). -/
def inClass (cls inst : Nat) : Bool :=
  (cls == 1 || cls == 3) && decide (inst < 32) || (cls == 2 || cls == 6) && decide (inst < 16) ||
    (cls == 4 || cls == 5) && decide (inst < 8)
/-- Twenty ports, two to a cage. -/
def inPort (p : Nat) : Bool := decide (p < 20)
/-- A payload is 0 to 4,000 bytes long (R467). -/
def inPayload (p : List Byte) : Bool := decide (p.length ≤ 4000)
/-- A rail of Table 18-1: 0 to 27. -/
def inRail (r : Option Nat) : Bool :=
  match r with
  | some r => decide (r < 28)
  | none => true
/-- Twelve Shelf packages, each with its size code. -/
def inPkgs (l : List Nat) : Bool := decide (l.length = 12) && l.all (fun x => decide (x < 256))
/-- A current in mA for each of the ten cages. -/
def inCages (l : List Nat) : Bool := decide (l.length = 10) && l.all (fun x => decide (x < 2 ^ 32))
/-- Positions of an accumulator: the main plane from 0 and the outlier plane from 4,096 on (R228). -/
def inPlane (l : List (Nat × Nat)) : Bool := l.all (fun x => decide (x.1 < 8192))
/-- The widths of an access to BAR0. -/
def inWidth (w : Nat) : Bool := w == 1 || w == 2 || w == 4 || w == 8

/-- The well-formed commands. -/
def Instr.wf (i : Instr) : Bool :=
  match i with
  | .powerOn failRail => inRail failRail
  | .inputPowerLoss => true
  | .moduleReset => true
  | .moduleResetRelease _ _ => true
  | .hostReady hbmStacks pkgs => hbmStacks.length == 8 && inPkgs pkgs
  | .sightingStart x => inCages x.mAs
  | .perstNAssert => true
  | .perstNDeassert => true
  | .linkDlDown => true
  | .dlDownSelfReset => true
  | .hotReset => true
  | .functionLevelReset fn => inFn fn
  | .d3hotToD0 => true
  | .configurationRequest fn _ => inFn fn
  | .unclaimedMemoryRequest fn => inFn fn
  | .registerWrite fn off width _ => inFn fn && decide (off < 2 ^ 26) && inWidth width
  | .hubDqDoorbell fn _ => inFn fn
  | .hubDqCqDoorbell fn _ => inFn fn
  | .mbxGo fn mb _ _ => inFn fn && decide (mb < 16)
  | .mbxReset fn mb _ => inFn fn && decide (mb < 16)
  | .bar2Read fn _ _ => inFn fn
  | .bar2Write fn _ _ => inFn fn
  | .debugWindowAccess fn off width _ => inFn fn && decide (off < 2 ^ 26) && inWidth width
  | .hostReadCompletion _ _ _ _ => true
  | .hostReadTimeout _ _ => true
  | .commandFetch q _ => inQueue q
  | .refetchBackoffExpiry q => inQueue q
  | .commandDispatch => true
  | .dqWaitLimitExpiry q => inQueue q
  | .commandDone q _ => inQueue q
  | .dcNop q => inQueue q
  | .dcRun q _ => inQueue q
  | .dcCopy q _ => inQueue q
  | .dcInline q => inQueue q
  | .dcStage q => inQueue q
  | .dcPlan q => inQueue q
  | .lyCopy q _ => inQueue q
  | .lyGather q _ => inQueue q
  | .lyScatter q _ => inQueue q
  | .lyList q _ => inQueue q
  | .lyFill q _ => inQueue q
  | .dcEmbBind q => inQueue q
  | .dcHrdWrite q => inQueue q
  | .hrdInsertStage q => inQueue q
  | .dcCatSwitch q => inQueue q
  | .dcRouteRows x => inQueue x.queue
  | .dcNormSubmit q => inQueue q
  | .partialNormComplete q => inQueue q
  | .dcVerdictWait q => inQueue q
  | .verdictWaitExpiry q => inQueue q
  | .vcCommit q => inQueue q
  | .vcCommitAct q => inQueue q
  | .vcCommitWaitExpiry q => inQueue q
  | .vcAcquire q => inQueue q
  | .vcAcquireResolve q => inQueue q
  | .vcAcquireWaitExpiry q => inQueue q
  | .vcRelease q => inQueue q
  | .rscat x => inQueue x.queue
  | .agather x => inQueue x.queue
  | .alltoall x => inQueue x.queue
  | .barrier q => inQueue q
  | .collProgressLimit _ => true
  | .dcKat q _ => inQueue q
  | .katDueRun u _ => decide (u < 256)
  | .icacheDemandFill cls inst _ => inClass cls inst
  | .icachePrefetchFill cls inst _ => inClass cls inst
  | .bundleIssue cls inst => inClass cls inst
  | .bundleWaitMet cls inst => inClass cls inst
  | .spWaitLimitExpiry cls inst => inClass cls inst
  | .signalFire cls inst => inClass cls inst
  | .streamRetire cls inst => inClass cls inst
  | .sLoop cls inst => inClass cls inst
  | .sEnd cls inst => inClass cls inst
  | .sSumm cls inst => inClass cls inst
  | .sAdve cls inst => inClass cls inst
  | .sChoose cls inst => inClass cls inst
  | .syWait cls inst => inClass cls inst
  | .sySignal cls inst => inClass cls inst
  | .mxeScaleLoad inst => inClass 1 inst
  | .mMma inst => inClass 1 inst
  | .mDrain inst => inClass 1 inst
  | .mLimit inst => inClass 1 inst
  | .collatorTileCheck inst wrong _ => inClass 1 inst && inPlane wrong
  | .tileRecomputeComplete inst wrong2 wrong3 _ _ katFail => inClass 1 inst && inPlane wrong2 && inPlane wrong3 && decide (katFail < 3)
  | .vxeTileLoad inst _ => inClass 2 inst
  | .vxeFtabLoad inst => inClass 2 inst
  | .vxeTileStore inst _ => inClass 2 inst
  | .vAdd inst _ => inClass 2 inst
  | .vSub inst _ => inClass 2 inst
  | .vMul inst _ => inClass 2 inst
  | .vFma inst _ => inClass 2 inst
  | .vDiv inst _ => inClass 2 inst
  | .vMax inst _ => inClass 2 inst
  | .vMin inst _ => inClass 2 inst
  | .vSqrt inst _ => inClass 2 inst
  | .vAbs inst _ => inClass 2 inst
  | .vNeg inst _ => inClass 2 inst
  | .vCmp inst _ => inClass 2 inst
  | .vSel inst _ => inClass 2 inst
  | .vAnd inst _ => inClass 2 inst
  | .vOr inst _ => inClass 2 inst
  | .vCvt inst _ => inClass 2 inst
  | .vRsum inst _ => inClass 2 inst
  | .vRmax inst _ => inClass 2 inst
  | .vFn inst _ => inClass 2 inst
  | .vFnd inst _ => inClass 2 inst
  | .vCompress inst _ => inClass 2 inst
  | .vExpand inst _ => inClass 2 inst
  | .vSumm inst _ => inClass 2 inst
  | .vSmov inst _ => inClass 2 inst
  | .eLookup inst => inClass 3 inst
  | .eLookupRowsArrived inst _ => inClass 3 inst
  | .eAccum inst _ => inClass 3 inst
  | .rowRead _ => true
  | .rowGatePass => true
  | .rowGateTimeout _ => true
  | .rowData => true
  | .mrow => true
  | .mrowAck => true
  | .verdict => true
  | .reservationGrant => true
  | .pubEntryApply _ _ _ _ _ => true
  | .denseTileApply _ _ _ _ => true
  | .shardRead => true
  | .shardReadResolve => true
  | .shardReadWaitExpiry _ => true
  | .shardData => true
  | .normUp => true
  | .verdictReq => true
  | .verdictRequestTimer => true
  | .verdictLimitExpiry => true
  | .rsChunk => true
  | .rsAck => true
  | .rsChunkAckTimeout _ => true
  | .collRefuseResend _ => true
  | .a2aBlock => true
  | .a2aAck => true
  | .barUp => true
  | .barDown => true
  | .packetArrival p _ _ _ => inPort p
  | .write => true
  | .writeAck => true
  | .read => true
  | .readData => true
  | .refuse => true
  | .undeliverable => true
  | .nopathResend _ => true
  | .rhRequestTimeout _ => true
  | .linkTagReceive p _ => inPort p
  | .codewordUncorrectable p _ _ => inPort p
  | .replayRequest p _ => inPort p
  | .laneLossOfLock p lane => inPort p && decide (lane < 4)
  | .portLinkLoss p => inPort p
  | .partnerSignalDetect p => inPort p
  | .laneTrainingComplete p lanes _ => inPort p && decide (lanes < 16)
  | .silentTimeout p => inPort p
  | .trainingTimeout p => inPort p
  | .excludedRetry p => inPort p
  | .sight => true
  | .hail => true
  | .fix => true
  | .chart => true
  | .ppFill xfe _ => inClass 6 xfe
  | .ppClean xfe _ => inClass 6 xfe
  | .ppEvict xfe _ => inClass 6 xfe
  | .ppDrop xfe _ => inClass 6 xfe
  | .ppCopy xfe _ => inClass 6 xfe
  | .ppWait xfe _ => inClass 6 xfe
  | .planWaitMet xfe => inClass 6 xfe
  | .planWaitLimitExpiry xfe => inClass 6 xfe
  | .ppSignal xfe _ => inClass 6 xfe
  | .scrubPass _ => true
  | .logbookSend => true
  | .logbookRepeat => true
  | .specimenFragmentSend => true
  | .icmpv6EchoRequest src dst ident sqn _ => src.length == 16 && dst.length == 16 && decide (ident < 2 ^ 16) && decide (sqn < 2 ^ 16)
  | .neighborDiscovery src target => src.length == 16 && target.length == 16
  | .mctpSetEndpointId iid _ => decide (iid < 32)
  | .mctpGetEndpointId iid => decide (iid < 32)
  | .mctpGetVersionSupport iid _ => decide (iid < 32)
  | .mctpGetMessageTypeSupport iid => decide (iid < 32)
  | .mailboxDeferredReply ch => inChannel ch
  | .mbxTimeout ch => inChannel ch
  | .dzCapRead ch _ _ p => inChannel ch && inPayload p
  | .dzMbxStatus ch _ _ p => inChannel ch && inPayload p
  | .dzCodeLoad ch _ _ x => inChannel ch && inPayload x.payload
  | .dzCodeUnload ch _ _ p => inChannel ch && inPayload p
  | .dzCodeQuery ch _ _ p => inChannel ch && inPayload p
  | .dzTallyRead ch _ _ p => inChannel ch && inPayload p
  | .dzTallySet ch _ _ p => inChannel ch && inPayload p
  | .dzBreakSet ch _ _ p => inChannel ch && inPayload p
  | .dzBreakQuery ch _ _ p => inChannel ch && inPayload p
  | .dzQueueCreate ch _ _ p => inChannel ch && inPayload p
  | .dzQueueDestroy ch _ _ p => inChannel ch && inPayload p
  | .dzQueueHalt ch _ _ p => inChannel ch && inPayload p
  | .dzQueueRestart ch _ _ p => inChannel ch && inPayload p
  | .dzQueueQuery ch _ _ p => inChannel ch && inPayload p
  | .dzQueueExpect ch _ _ p => inChannel ch && inPayload p
  | .dzCatWrite ch _ _ p => inChannel ch && inPayload p
  | .dzCatRead ch _ _ p => inChannel ch && inPayload p
  | .dzCatClear ch _ _ p => inChannel ch && inPayload p
  | .dzCatQuery ch _ _ p => inChannel ch && inPayload p
  | .dzCatZeroClear ch _ _ p => inChannel ch && inPayload p
  | .dzHrdRegion ch _ _ p => inChannel ch && inPayload p
  | .dzHrdRead ch _ _ p => inChannel ch && inPayload p
  | .dzHrdClear ch _ _ p => inChannel ch && inPayload p
  | .dzEmbCounters ch _ _ p => inChannel ch && inPayload p
  | .dzCombArea ch _ _ p => inChannel ch && inPayload p
  | .dzCombQuery ch _ _ p => inChannel ch && inPayload p
  | .dzPubArea ch _ _ p => inChannel ch && inPayload p
  | .dzPubMap ch _ _ p => inChannel ch && inPayload p
  | .dzPubQuery ch _ _ p => inChannel ch && inPayload p
  | .dzMxeFreeze ch _ _ p => inChannel ch && inPayload p
  | .dzMxeQuery ch _ _ p => inChannel ch && inPayload p
  | .dzVxeMode ch _ _ p => inChannel ch && inPayload p
  | .dzVxeQuery ch _ _ p => inChannel ch && inPayload p
  | .dzParamWrite ch _ _ x => inChannel ch && inPayload x.payload
  | .dzParamRead ch _ _ p => inChannel ch && inPayload p
  | .dzParamClear ch _ _ p => inChannel ch && inPayload p
  | .dzSchedWrite ch _ _ p => inChannel ch && inPayload p
  | .dzSeedSet ch _ _ p => inChannel ch && inPayload p
  | .dzVerInit ch _ _ p => inChannel ch && inPayload p
  | .dzVerConfig ch _ _ p => inChannel ch && inPayload p
  | .dzVerQuery ch _ _ p => inChannel ch && inPayload p
  | .dzDjArea ch _ _ p => inChannel ch && inPayload p
  | .dzGuardConfig ch _ _ p => inChannel ch && inPayload p
  | .dzGuardQuery ch _ _ p => inChannel ch && inPayload p
  | .dzGuardHold ch _ _ p => inChannel ch && inPayload p
  | .dzGuardAbandon ch _ _ p => inChannel ch && inPayload p
  | .dzExportDesc ch _ _ p => inChannel ch && inPayload p
  | .dzRrAssign ch _ _ p => inChannel ch && inPayload p
  | .dzRrWindow ch _ _ p => inChannel ch && inPayload p
  | .dzRrTables ch _ _ p => inChannel ch && inPayload p
  | .dzRrTally ch _ _ p => inChannel ch && inPayload p
  | .dzRrQuery ch _ _ p => inChannel ch && inPayload p
  | .dzMemAlloc ch _ _ p => inChannel ch && inPayload p
  | .dzMemFree ch _ _ p => inChannel ch && inPayload p
  | .dzMemQuery ch _ _ p => inChannel ch && inPayload p
  | .dzMemSlots ch _ _ p => inChannel ch && inPayload p
  | .dzMemFlush ch _ _ p => inChannel ch && inPayload p
  | .dzMemStatus ch _ _ p => inChannel ch && inPayload p
  | .dzMemResv ch _ _ p => inChannel ch && inPayload p
  | .dzMemLine ch _ _ p => inChannel ch && inPayload p
  | .dzXfeQuery ch _ _ p => inChannel ch && inPayload p
  | .dzRhStatus ch _ _ p => inChannel ch && inPayload p
  | .dzRhPort ch _ _ p => inChannel ch && inPayload p
  | .dzRhRing ch _ _ p => inChannel ch && inPayload p
  | .dzRhPortCtl ch _ _ p => inChannel ch && inPayload p
  | .dzCollGroup ch _ _ p => inChannel ch && inPayload p
  | .dzCollArea ch _ _ p => inChannel ch && inPayload p
  | .dzCollMode ch _ _ p => inChannel ch && inPayload p
  | .dzCollQuery ch _ _ p => inChannel ch && inPayload p
  | .dzIntStatus ch _ _ p => inChannel ch && inPayload p
  | .dzIntConfig ch _ _ p => inChannel ch && inPayload p
  | .dzIntUnit ch _ _ p => inChannel ch && inPayload p
  | .dzLogDest ch _ _ p => inChannel ch && inPayload p
  | .dzLogRead ch _ _ p => inChannel ch && inPayload p
  | .dzKatLoad ch _ _ p => inChannel ch && inPayload p
  | .dzSpecArea ch _ _ p => inChannel ch && inPayload p
  | .dzIntInject ch _ _ p => inChannel ch && inPayload p
  | .dzHostAperture ch _ _ p => inChannel ch && inPayload p
  | .dzHostStatus ch _ _ p => inChannel ch && inPayload p
  | .dzFwStage ch _ _ p => inChannel ch && inPayload p
  | .dzFwActivate ch _ _ p => inChannel ch && inPayload p
  | .fwActivateReset => true
  | .dzFwConfirm ch _ _ p => inChannel ch && inPayload p
  | .dzFwQuery ch _ _ p => inChannel ch && inPayload p
  | .dzFwRevert ch _ _ p => inChannel ch && inPayload p
  | .dzFwOpen ch _ _ p => inChannel ch && inPayload p
  | .dzFwChunk ch _ _ p => inChannel ch && inPayload p
  | .dzDbgWindow ch _ _ p => inChannel ch && inPayload p
  | .dzSxFix ch _ _ p => inChannel ch && inPayload p
  | .dzSxSummary ch _ _ p => inChannel ch && inPayload p
  | .dzSxPowerCap ch _ _ p => inChannel ch && inPayload p
  | .dzSxClockCap ch _ _ p => inChannel ch && inPayload p
  | .dzSxCage ch _ _ p => inChannel ch && inPayload p
  | .dzAlmanacSet ch _ _ p => inChannel ch && inPayload p
  | .dzLedgerRead ch _ _ p => inChannel ch && inPayload p
  | .dzLedgerEvents ch _ _ p => inChannel ch && inPayload p
  | .dzLedgerCommit ch _ _ p => inChannel ch && inPayload p
  | .dzPcOvfClear ch _ _ p => inChannel ch && inPayload p
  | .dzSecMeas ch _ _ p => inChannel ch && inPayload p
  | .dzSecExtend ch _ _ p => inChannel ch && inPayload p
  | .dzSecAttest ch _ _ p => inChannel ch && inPayload p
  | .dzSecCerts ch _ _ p => inChannel ch && inPayload p
  | .dzSecChallenge ch _ _ p => inChannel ch && inPayload p
  | .dzSecUnlock ch _ _ p => inChannel ch && inPayload p
  | .dzSecZeroise ch _ _ p => inChannel ch && inPayload p
  | .dzSecManifest ch _ _ p => inChannel ch && inPayload p
  | .dzSecSelftest ch _ _ p => inChannel ch && inPayload p
  | .railFix r uV mA => decide (r < 28) && decide (uV < 2 ^ 32) && decide (mA < 2 ^ 32)
  | .shutdownRailsOff => true
  | .tempFix temps => temps.length == 200
  | .cageFix c mA => decide (c < 10) && decide (mA < 2 ^ 32)
  | .plugPresentChange c _ classMw media => decide (c < 10) && decide (classMw < 2 ^ 32) && decide (media < 256)
  | .plugReadyCheck c mA => decide (c < 10) && decide (mA < 2 ^ 32)
  | .controlLoopPeriod => true
  | .ledgerCommitTimer => true
  | .linkDlUp _ _ _ _ _ _ => true
  | .codewordCorrected p _ syms => inPort p && syms.length == 4
  | .managementLinkUp => true

end Sys2Proof
end

