-- ==== Sys2Proof/Tests/Slice0.lean ====
section
/-! SUPPORT. Tests: ill-formed commands that WellFormed refuses, one small step for a worked example of the manual at a time,
and for the statements of Obligations.lean states and operands that meet their premises, clause by clause. -/
namespace Sys2Proof.Tests
open Sys2Proof Sys2Proof.Machine
set_option Elab.async false

/-! ### Small states -/

/-- The module `d` with the fuses of `Otp.reset` and no command waiting. -/
def on (d : Dev) : State := ⟨d, Otp.reset, []⟩
/-- The module after its firmware has made it host-ready, with the host link up and the physical function enabled. -/
def awake : Dev :=
  { Dev.reset with pow := { Power.reset with phase := .hostReady, hbmStacks := List.replicate 8 true },
                   host := { HostIf.reset with dlUp := true, mse := [0] } }
/-- A parsed command. -/
def cmd (op : Nat) (body : List Byte) : Cmd := ⟨op, 0, 7, 5, 0, 0, padTo (if body.length ≤ 48 then 48 else 112) body, 0, 0, 0, none, none, []⟩
/-- A dispatched command on engine `e`. -/
def disp (op e : Nat) (body : List Byte) (begun : Bool) : Running :=
  ⟨cmd op body, e, begun, none, 0, 0, false, false, false, 0, [], [], []⟩
/-- A RUNNING queue of function `fn` with the parsed commands `cs` and the dispatched commands `rs`. -/
def queueOf (fn : Nat) (cs : List Cmd) (rs : List Running) : Queue :=
  { owner := fn, prio := 0, cqDev := true, k := 4, j := 4, vector := 0xFFFF, ringBase := 0, cqBase := 0x8000000000, limit := 0,
    binds := List.replicate 8 0xFFFF, exps := List.replicate 8 0, run := 1, haltSeq := 0, haltStatus := 0, haltUnit := 0,
    haltCause := 0, cqFull := false, cons := 0, nextSeq := 0, count := 0, parsePt := 0, parseSeq := 0, bell := none,
    refetch := 0, backoff := false, parsed := cs, running := rs, cqIdx := 0, cqCons := 0, reserved := 0, matched := [], waitRes := 0 }
/-- Queue 255 of `d` holds the dispatched command `r`. -/
def running (d : Dev) (r : Running) : Dev := qSet d 255 (queueOf 0 [] [r])
/-- A live generation with its access patterns from byte 0 of the body and its choices from byte 1,024 on. -/
def genA : Gen :=
  { gen := 9, base := 0x8000000000, build := 1, pins := 1, cls := 1, bodyLen := 4096, crcOff := 8192, entries := [0, 128],
    apOff := 0, aps := 16, choiceOff := 1024, choices := 16, needFp64 := false }
/-- `d` with that generation under handle 1023. -/
def coded (d : Dev) : Dev := { d with handles := smSet handle0 d.handles 1023 ⟨0, 9, 9, [genA]⟩ }
/-- A stream of that generation that has just started. -/
def strm : Stream := newStream Dev.reset 255 0 (disp 1 32 [] true) (zeros 512) 1023 9 0 []
/-- Engine `e` of `d` runs stream `v`. -/
def runs (d : Dev) (e : Nat) (v : Stream) : Dev := stSet (coded d) e v
/-- A stream with a slot at the front of its bundle. -/
def front (kind w : Nat) : Stream := { strm with head := some 0, slots := [⟨kind, w⟩] }

theorem runs_get (d : Dev) (e : Nat) (v : Stream) : stGet (runs d e v) e = some v := stGet_stSet (coded d) e v

theorem fronts_of (d : Dev) (e : Nat) (v : Stream) (sl : Slot) (hg : stGet d e = some v) (hs : v.slots = [sl])
    (hv : v.final.isNone = true ∧ v.waits = [] ∧ v.missing.isNone = true ∧ v.tile.isNone = true ∧ v.look.isNone = true ∧
      v.remote = []) (hu : usable Otp.reset d (e / 32) (e % 32) = true) : Fronts Otp.reset d e v sl [] := by
  obtain ⟨h1, h2, h3, h4, h5, h6⟩ := hv
  exact ⟨hg, hs, Option.isNone_iff_eq_none.1 h1, h2, Option.isNone_iff_eq_none.1 h3, Option.isNone_iff_eq_none.1 h4,
    Option.isNone_iff_eq_none.1 h5, by rw [h6]; rfl, hu⟩

theorem front_fronts (d : Dev) (e k w : Nat) (h : usable Otp.reset (runs d e (front k w)) (e / 32) (e % 32) = true) :
    Fronts Otp.reset (runs d e (front k w)) e (front k w) ⟨k, w⟩ [] :=
  fronts_of _ e _ _ (runs_get d e _) rfl ⟨rfl, rfl, rfl, rfl, rfl, rfl⟩ h

/-- A sealed-off descriptor of the own module: control word, base, extents and strides (in elements). -/
def tdRec (base ctl : Nat) (ext str : List Nat) : List Byte :=
  natLe 8 base ++ natLe 4 ctl ++ zeros 4 ++ (padTo 24 (ext.flatMap (natLe 4))) ++ padTo 30 (str.flatMap (natLe 5)) ++ zeros 58
/-- A slot at the front of a stream whose bindings 0, 1, ... stand for the descriptors `ts`, binding 15 unbound. -/
def bound (k w : Nat) (ts : List (List Byte)) : Stream :=
  { front k w with tdAddr := (List.range ts.length).map (fun i => 0x8000000080 + 128 * i), tds := ts }
/-- `d` with block 0 of the object held by cache `e`: access pattern 0 has the extents `xs`, pattern 1 the extents `ys`. -/
def patterned (d : Dev) (e : Nat) (xs ys : List Nat) : Dev :=
  icPut d e 1023 9 0 (padTo 1024 (padTo 64 (xs.flatMap (natLe 2)) ++ ys.flatMap (natLe 2)))

theorem bound_fronts (d : Dev) (e k w : Nat) (ts : List (List Byte)) (f : Stream → Stream)
    (hs : (f (bound k w ts)).slots = [⟨k, w⟩])
    (hv : (f (bound k w ts)).final.isNone = true ∧ (f (bound k w ts)).waits = [] ∧ (f (bound k w ts)).missing.isNone = true ∧
      (f (bound k w ts)).tile.isNone = true ∧ (f (bound k w ts)).look.isNone = true ∧ (f (bound k w ts)).remote = [])
    (hu : usable Otp.reset (runs d e (f (bound k w ts))) (e / 32) (e % 32) = true) :
    Fronts Otp.reset (runs d e (f (bound k w ts))) e (f (bound k w ts)) ⟨k, w⟩ [] :=
  fronts_of _ e _ _ (runs_get d e _) hs hv hu

/-- A packet of a kind from module 0 to module 0. -/
def pkt (kind tag : Nat) (body payload : List Byte) : Pkt :=
  { kind := kind, len := 0, maybe := false, fixed := false, vc := 0, hops := 0, rvalid := false, runit := 0, rexp := 0,
    rdir := false, rdim := 0, dst := 0, src := 0, tag := tag, body := padTo 12 body, payload := payload }
/-- `d` with a packet delivered on port 19. -/
def delivered (d : Dev) (p : Pkt) : Dev := { d with fab := { d.fab with inbox := [(19, p)] } }
/-- `d` with request `r` outstanding under tag 3. -/
def asked (d : Dev) (r : Req) : Dev := reqSet d 3 (some r)

/-- The cells of some bytes at an address. -/
def cellsAt (a : Nat) (bs : List Byte) : SMap Byte :=
  ((List.range bs.length).zip bs).filterMap (fun x => if x.2 = 0 then none else some (a + x.1, x.2))

/-! ### Commands that are not well formed -/

/-- One operand out of its range for each check, on the first value outside. -/
theorem smoke_wellFormed_refuses :
    ∀ i ∈ ([.powerOn (some 28), .hostReady (List.replicate 7 (true, [])) (List.replicate 12 0),
        .hostReady (List.replicate 8 (true, [])) (List.replicate 11 0), .hostReady (List.replicate 8 (true, [])) (List.replicate 12 256),
        .functionLevelReset 8, .registerWrite 8 0 8 0, .registerWrite 0 (2 ^ 26) 8 0, .registerWrite 0 0 3 0, .mbxGo 0 16 0 ⟨false, 0⟩,
        .mbxReset 8 0 0, .debugWindowAccess 0 (2 ^ 26) 4 none, .debugWindowAccess 0 0x2000000 16 none, .commandFetch 256 [], .dcNop 256,
        .katDueRun 256 [], .bundleIssue 1 32, .bundleIssue 2 16, .bundleIssue 3 32, .bundleIssue 4 8, .bundleIssue 5 8, .bundleIssue 6 16,
        .bundleIssue 0 0, .bundleIssue 7 0, .mMma 32, .vAdd 16 0, .eLookup 32, .ppFill 16 0] : List Instr), i.wf = false := by
  decide +kernel
theorem smoke_wellFormed_refuses_more :
    ∀ i ∈ ([.tileRecomputeComplete 0 [] [] [] [] 3, .tileRecomputeComplete 0 [(8192, 0)] [] [] [] 0,
        .tileRecomputeComplete 0 [] [(8192, 0)] [] [] 0, .collatorTileCheck 0 [(8192, 0)] [], .sightingStart ⟨0, List.replicate 9 0⟩,
        .sightingStart ⟨0, 2 ^ 32 :: List.replicate 9 0⟩, .laneLossOfLock 20 0, .laneLossOfLock 0 4, .laneTrainingComplete 0 16 0,
        .codewordCorrected 0 0 [0, 0, 0], .icmpv6EchoRequest (zeros 15) (zeros 16) 0 0 [], .icmpv6EchoRequest (zeros 16) (zeros 17) 0 0 [],
        .icmpv6EchoRequest (zeros 16) (zeros 16) 65536 0 [], .icmpv6EchoRequest (zeros 16) (zeros 16) 0 65536 [],
        .neighborDiscovery (zeros 15) (zeros 16), .neighborDiscovery (zeros 16) (zeros 15), .mctpGetEndpointId 32, .mbxTimeout 17,
        .railFix 28 0 0, .railFix 0 (2 ^ 32) 0, .railFix 0 0 (2 ^ 32), .tempFix (List.replicate 199 0), .cageFix 10 0, .cageFix 0 (2 ^ 32),
        .plugPresentChange 0 true (2 ^ 32) 0, .plugPresentChange 0 true 0 256, .plugReadyCheck 10 0, .dzCapRead 17 0 0 []] : List Instr),
      i.wf = false := by
  decide +kernel
/-- The longest payload is well formed, and one more byte is not. -/
theorem smoke_wellFormed_payload : (Instr.dzCapRead 16 0 0 (zeros 4000)).wf = true ∧ (Instr.dzCapRead 16 0 0 (zeros 4001)).wf = false := by
  have h : ∀ n, (Instr.dzCapRead 16 0 0 (zeros n)).wf = decide (n ≤ 4000) := by
    intro n
    change (inChannel 16 && decide ((List.replicate n (0 : Byte)).length ≤ 4000)) = _
    rw [List.length_replicate]; rfl
  rw [h, h]; decide
/-- Operands at the end of their ranges. -/
theorem smoke_wellFormed_takes :
    ∀ i ∈ ([.powerOn (some 27), .powerOn none, .functionLevelReset 7, .registerWrite 7 (2 ^ 26 - 1) 8 0, .mbxGo 7 15 0 ⟨true, 0⟩, .sightingStart ⟨0, List.replicate 10 0⟩, .collatorTileCheck 0 [(8191, 0)] [], .dcNop 255,
        .katDueRun 255 [], .bundleIssue 1 31, .bundleIssue 6 15, .bundleIssue 4 7, .laneLossOfLock 19 3, .railFix 27 (2 ^ 32 - 1) 0, .cageFix 9 0,
        .commandDispatch] : List Instr), i.wf = true := by decide +kernel

/-! ### Streams -/

/-- S_LOOP from a parameter register and from the slot, S_END, S_ADVE and S_SUMM, on the last engine of a class. -/
theorem witness_scalarSlots :
    (∀ w ∈ [0x12000000 + 63, 0x1CFFFFFF, 0x20000000, 0x4FFFFFFF, 0x30FFFFFF],
      Fronts Otp.reset (runs awake (ek 1 31) (front 6 w)) (ek 1 31) (front 6 w) ⟨6, w⟩ []) ∧
    bits 0x1CFFFFFF 28 4 = 1 ∧ bits 0x12000000 25 1 = 1 ∧ bits 0x20000000 28 4 = 2 ∧ bits 0x4FFFFFFF 28 4 = 4 ∧
    bits 0x30FFFFFF 28 4 = 3 ∧ sccDenied (runs awake (ek 1 31) (front 6 0x30FFFFFF)) (front 6 0x30FFFFFF) 7 = false :=
  ⟨fun w _ => front_fronts awake (ek 1 31) 6 w rfl, by decide +kernel⟩

/-- A block whose choice entry 15 matches by its last rule alone, which sets parameter register 0. -/
def choiceBlock : List Byte := padTo 1024 (zeros (960 + 54) ++ [5, 0x80])
/-- Engine 0 of the MXEs before S_CHOOSE of choice entry 15, whose block SCC 0 holds. -/
def choosing : Dev := runs (icPut awake 224 1023 9 1 choiceBlock) (ek 1 0) (front 6 (0x50000000 + 15 * 8192))

theorem witness_choose :
    Fronts Otp.reset choosing (ek 1 0) (front 6 (0x50000000 + 15 * 8192)) ⟨6, 0x50000000 + 15 * 8192⟩ [] ∧
    sccDenied choosing (front 6 0) 0 = false ∧ stGen choosing (front 6 0) = some genA ∧
    icFind choosing 224 1023 9 ((1024 + 64 * 15) / 1024) = some choiceBlock ∧
    (((List.range 4).map (fun i => (((choiceBlock.drop 960).take 64).drop (16 * i)).take 16)).find?
      (fun r => ruleMatch r summ0)).isSome :=
  ⟨front_fronts (icPut awake 224 1023 9 1 choiceBlock) (ek 1 0) 6 _ rfl, by decide +kernel⟩

/-- S_CHOOSE continues at entry 0 and stores COUNT in the register of the rule. -/
theorem test_choose_sets :
    ((stGet (settle (sChooseDev 1 0) (on { choosing with sccSlots := smSet summ0 [] 0 ⟨7, 0, false⟩ })).dev (ek 1 0)).map
      (fun v => (v.pos, param v 0))) = some (0, 7) := by decide +kernel

theorem witness_syncSlots :
    (∀ w ∈ [0x7FFFFFFF, 0xBFFFFFFF], Fronts Otp.reset (runs awake (ek 6 15) (front 0 w)) (ek 6 15) (front 0 w) ⟨0, w⟩ []) ∧
    bits 0x7FFFFFFF 30 2 = 1 ∧ bits 0xBFFFFFFF 30 2 = 2 :=
  ⟨fun w _ => front_fronts awake (ek 6 15) 0 w rfl, by decide +kernel⟩

/-- A signal that waits for tag 3, and one that is free to fire. -/
def twoSigs : List SigReq := [⟨0, 1, true, true, [3]⟩, ⟨0x80FF, 2 ^ 24 - 1, false, true, [4]⟩]
/-- A stream with the read of tag 3 outstanding. -/
def signalling : Stream := { strm with sigs := twoSigs, remote := [⟨3, true, 0, 64⟩] }

theorem witness_signalFires :
    stGet (runs awake (ek 2 15) signalling) (ek 2 15) = some signalling ∧
    signalling.sigs = [⟨0, 1, true, true, [3]⟩] ++ ⟨0x80FF, 2 ^ 24 - 1, false, true, [4]⟩ :: [] ∧
    (∀ t ∈ [4], ∀ r ∈ signalling.remote, r.tag ≠ t) ∧ (∃ r ∈ signalling.remote, r.tag = 3) ∧
    (runs awake (ek 2 15) signalling).burns = [] ∧ Unharmed (runs awake (ek 2 15) signalling) 0 (tallyKey 0x80FF) :=
  ⟨runs_get _ _ _, rfl, by unfold Unharmed; decide +kernel⟩

/-- A tally at 2^32 - 2^24 + 1 saturates. -/
theorem test_signal_saturates :
    tallyAddV ⟨0xFF000001, false⟩ (2 ^ 24 - 1) = ⟨0xFFFFFFFF, true⟩ ∧ tallyAddV ⟨0xFF000000, false⟩ (2 ^ 24 - 1) = ⟨0xFFFFFFFF, false⟩ := by
  decide

/-- The block of the next bundle, held for EBE 0: a head word with AT_LEAST of 1 on binding 2 and BH_LAST. -/
def issuing : Dev := icPut awake (ek 3 0) 1023 9 0 (padTo 1024 (natLe 4 (0x800000 + 2 * 2 ^ 19 + 2 ^ 15 + 16)))

theorem witness_bundleIssues :
    (∀ v : Stream, stGet (runs issuing (ek 3 0) v) (ek 3 0) = some v) ∧ canIssue strm = true ∧
    canIssue { strm with skip := 1 } = true ∧
    (icFind (runs issuing (ek 3 0) strm) (ek 3 0) strm.handle strm.gen (strm.pos / 1024)).isSome :=
  ⟨runs_get _ _, by decide +kernel⟩

/-- A stream that stands at a wait, as a head wait and as the wait of a sync slot. -/
def waiting (cond value e : Nat) (slots : List Slot) : Stream :=
  { strm with tallies := List.replicate 16 0x8000, exps := setAt (List.replicate 16 0) 15 e,
              head := some 0, waits := [⟨15, cond, value, 0⟩], slots := slots }
/-- The module with hub tally 0 at value 5. -/
def tally5 (v : Stream) : Dev := runs { awake with tallies := smSet tally0 [] 2048 ⟨5, false⟩ } (ek 5 7) v

/-- Met at the boundary and one short of it, above 2^32 - 1, and EQUAL. The verdict of an earlier act stands as it is. -/
theorem witness_bundleWaits :
    (∀ v : Stream, stGet (tally5 v) (ek 5 7) = some v) ∧
    (∀ c ∈ [(1, 4, 1, 1), (1, 5, 1, 0), (2, 5, 0, 1), (3, 6, 0, 0), (3, 5, 0, 1), (1, 2 ^ 24 - 1, 2 ^ 32 - 1, 2)],
      let v := waiting c.1 c.2.1 c.2.2.1 [⟨6, 0x20000000⟩]
      v.slots ≠ [] ∧ waitTest (tallyGet (tally5 v) (nth v.tallies 15)) (nth v.exps 15) c.1 c.2.1 = c.2.2.2) ∧
    (waiting 1 5 0 []).head = some 0 ∧ (waiting 1 5 0 []).slots = [] ∧
    (∀ r ∈ [1, 2], (⟨15, 1, 6, r⟩ : WaitReq).res ≠ 0) ∧ Unharmed (tally5 strm) 0 (tallyKey 0x8000) :=
  ⟨runs_get _ _, by unfold Unharmed; decide +kernel⟩

/-- Block 0 of the object is zeros and its entry of the CRC array right. -/
def filling (v : Stream) : Dev :=
  memWrite (runs awake (ek 1 0) v) (0x8000000000 + 8192) (natLe 4 (blockCrc (zeros 1024) 1))

theorem filling_reads (v : Stream) :
    (handleGet (filling v) 1023).gens.find? (fun g => g.gen == 9) = some genA ∧
      (∀ rr < 4, (codeFill Otp.reset (filling v) 1023 9 0 rr).2 = some (zeros 1024)) ∧
      (∀ rr, 4 ≤ rr → codeFill Otp.reset (filling v) 1023 9 0 rr = (filling v, none)) := by
  have hg : (handleGet (filling v) 1023).gens.find? (fun g => g.gen == 9) = some genA := by
    obtain ⟨m, o, e⟩ := memWrite_frame (runs awake (ek 1 0) v) (0x8000000000 + 8192) (natLe 4 (blockCrc (zeros 1024) 1))
    unfold filling
    rw [e]
    unfold handleGet
    dsimp only
    rw [show (runs awake (ek 1 0) v).handles = (coded awake).handles from rfl]
    decide +kernel
  have hb : memRead (filling v) (genA.base + 1024 + 1024 * 0) 1024 = zeros 1024 := by
    unfold filling
    rw [memRead_memWrite_apart _ _ _ _ _ (by left; decide)]
    show (List.range 1024).map (fun _ => (0 : Byte)) = zeros 1024
    decide +kernel
  have hc : memNat (filling v) (genA.base + genA.crcOff + 4 * 0) 4 = blockCrc (zeros 1024) 1 := by
    have hl := memRead_memWrite (runs awake (ek 1 0) v) (0x8000000000 + 8192) (natLe 4 (blockCrc (zeros 1024) 1))
    rw [natLe_length] at hl
    show leNat (memRead (filling v) (0x8000000000 + 8192) 4) = _
    unfold filling
    rw [hl, leNat_natLe]
    exact Nat.mod_eq_of_lt (crc32c_lt _)
  have hcb : memNat (filling v) (genA.base + genA.crcOff + 4 * 0) 4 = blockCrc (zeros 1024) genA.build := hc
  refine ⟨hg, fun rr hr => ?_, fun rr hr => ?_⟩
  · simp only [codeFill, hg, hb, hcb, readRecord, beq_self_eq_true, Bool.not_true, Bool.false_or,
      show decide (4 ≤ rr) = false from decide_eq_false (by omega)]
    by_cases h0 : rr = 0 <;> simp [h0]
  · simp [codeFill, hg, hb, readRecord, hr]

/-- A stream that waits for block 0 on a demand, and a prefetch of block 0 on its way; reads that fail three times pass, four
times do not. The next block of the body is not held, or on its way. -/
theorem witness_codeFills :
    (∀ v : Stream, stGet (runs awake (ek 1 0) v) (ek 1 0) = some v) ∧
    ({ strm with missing := some (ek 1 0 * 65536) }.handle = 1023 ∧ strm.gen = 9 ∧ (ek 1 0 * 65536) % 65536 = 0) ∧
    (codeFill Otp.reset (filling strm) 1023 9 0 3).2 = some (zeros 1024) ∧
    codeFill Otp.reset (filling strm) 1023 9 0 4 = (filling strm, none) ∧
    (0 + 1 < genA.bodyLen / 1024 ∧ icFind awake (ek 1 0) 1023 9 1 = none ∧ ¬∃ p ∈ awake.prefetches, p = ⟨ek 1 0, ek 1 0, 1023, 9, 1⟩) ∧
    ([⟨ek 1 1, ek 1 1, 1023, 9, 1⟩, ⟨ek 1 0, ek 1 0, 1023, 9, 0⟩] : List Prefetch) =
      [⟨ek 1 1, ek 1 1, 1023, 9, 1⟩] ++ ⟨ek 1 0, ek 1 0, 1023, 9, 0⟩ :: [] :=
  ⟨runs_get _ _, by decide +kernel, (filling_reads strm).2.1 3 (by decide), (filling_reads strm).2.2 4 (by decide), by decide +kernel, rfl⟩

theorem witness_streamRetires :
    ∀ v ∈ [{ strm with final := some stTallySat }, { strm with ending := true }],
      (v.final.isSome = true ∨ v.ending = true ∧ v.head = none) ∧ v.sigs = [] ∧ v.remote = [] ∧ v.gstats = [] := by
  decide +kernel

/-- A parameter block for entry 1 of handle 1023, without its CRC, with every binding unbound. -/
def paramBlock : List Byte :=
  natLe 2 1023 ++ natLe 2 1 ++ zeros 12 ++ (List.replicate 16 [(0xFF : Byte), 0x80]).flatten ++ zeros 460
/-- DC_RUN on MXE 31 with its block at `a`. -/
def starting (a : Nat) : Dev := running (coded awake) (disp 1 (ek 1 31) (zeros 8 ++ natLe 8 a) false)

/-- A block of a stray address, one that passes, and one whose handle is of another class. -/
theorem witness_engineRunStarts :
    (∀ a ∈ [0x8000001000, 0x8000001001, 0xF00000001000],
      let r := disp 1 (ek 1 31) (zeros 8 ++ natLe 8 a) false
      Awaits (starting a) 255 (queueOf 0 [] [r]) r (fun r => r.cmd.op == 0x01 && (stGet (starting a) r.engine).isNone)) ∧
    windowOk (starting 0) 0 0x8000001000 512 false = true ∧ windowOk (starting 0) 7 0x8000001000 512 false = false ∧
    isMul 0x8000001001 512 = false ∧ gaMapped (starting 0) 0xF00000001000 512 = false ∧
    isMul 0x8000001000 512 = true ∧ gaMapped (starting 0) 0x8000001000 512 = true ∧
    gaMissing (starting 0) [] [(0x8000001000, 512)] = [] ∧
    spChecks (starting 0) 0 1 paramBlock = stOk ∧ spChecks (starting 0) 0 2 paramBlock = stCodeClass ∧
    spWindow (starting 0) 0 1023 = true ∧ spWindow (starting 0) 7 1023 = false := by
  unfold Awaits; decide +kernel

theorem witness_engineRunCrc :
    (recRead Otp.reset (starting 0) 0x8000001000 (sealRec paramBlock) 0).2 = true ∧
    (recRead Otp.reset (starting 0) 0x8000001000 (sealRec paramBlock) 4).2 = false := by
  have h : sealOk (sealRec paramBlock).length (sealRec paramBlock) = true := sealOk_sealRec' (by decide +kernel)
  have o : isOwn (starting 0) 0x8000001000 = true := by decide +kernel
  simp [recRead, readRecord, h, o]

/-! ### The vector engine -/

/-- Tile register 31 is FULL with one element, register 0 EMPTY. -/
def withTile (u : Bool) (v : Stream) : Stream :=
  { v with uncollated := u, tregs := [(31, ⟨true, 0, 1, 1, [(0, 0x3F800000)]⟩)] }
/-- V_ABS of register 31 in slot B, on VXE 15, and of register 0. -/
def absSlot (a : Nat) : Nat := 0x09 * 2 ^ 56 + a * 2 ^ 46

/-- A slot that passes its checks and one that does not, in both modes, at the last VXE. -/
theorem witness_vectorSlots :
    (∀ u a, Fronts Otp.reset (runs awake (ek 2 15) (withTile u (bound 4 (absSlot a) []))) (ek 2 15)
      (withTile u (bound 4 (absSlot a) [])) ⟨4, absSlot a⟩ []) ∧
    (∀ u ∈ [true, false], vxCheck (withTile u (bound 4 (absSlot 31) [])) (absSlot 31) = stOk ∧
      vxCheck (withTile u (bound 4 (absSlot 0) [])) (absSlot 0) = stVxReg) ∧
    vxRows.all (fun row => vxOpc (row.2.1 * 2 ^ 56) == row.2.1) = true ∧ vxOpc (absSlot 31) = 0x09 ∧
    (runs awake (ek 2 15) (withTile false (bound 4 (absSlot 31) []))).int.injects = [] :=
  ⟨fun u a => bound_fronts awake (ek 2 15) 4 (absSlot a) [] (withTile u) rfl ⟨rfl, rfl, rfl, rfl, rfl, rfl⟩ rfl, by decide +kernel⟩

/-- R258: the larger of plus and minus zero is plus zero, and INT32 sums saturate. -/
theorem test_vector_elements :
    fvMax (readOp fp32 0 0x80000000).1 (readOp fp32 0 0).1 = (readOp fp32 0 0).1 ∧ (vxI (2 ^ 31)).1 = 0x7FFFFFFF := by
  decide +kernel

/-- A tile of 2 by 2 FP32 elements. -/
def td22 : List Byte := tdRec 0x8000002000 (2 * 128) [2, 2] [1, 2]
/-- A tensor of 2 by 2 INT32 words; an access pattern of 48 by 43 reads its other positions out of view. -/
def tdTable : List Byte := tdRec 0x8000002000 (4 + 2 * 128) [2, 2] [1, 2]

/-- A load into register 31, a store from it, and a table load into slot 7. -/
theorem witness_vectorTransfers :
    (∀ k w t xs, Fronts Otp.reset (runs (patterned awake (ek 2 0) xs []) (ek 2 0) (withTile true (bound k w [t]))) (ek 2 0)
      (withTile true (bound k w [t])) ⟨k, w⟩ []) ∧
    (let v := { withTile true (bound 1 0x1F00 [td22]) with checked := [0] }
     let d := runs (patterned awake (ek 2 0) [2, 2] []) (ek 2 0) v
     let ap := padTo 64 ([2, 2].flatMap (natLe 2))
     stTd v 0 = some (tdParse td22) ∧ stGen d v = some genA ∧ (icFind d (ek 2 0) 1023 9 0).isSome ∧
     isBuf [1, 2] 0x00 0x1F ⟨1, 0x1F00⟩ = true ∧ isBuf [5] 0x00 0x1F ⟨5, 0x1F00⟩ = true ∧ (tdParse td22).etype = 0 ∧
     (tdParse td22).ndim = 2 ∧ apFits ap 2 = true ∧ apExt ap 0 = 2 ∧ apExt ap 1 = 2 ∧ v.checked.contains 0 = true ∧
     (tregGet v 31).full = true ∧ vxStores 0 0 = true ∧ d.int.injects = [] ∧
     (let is := (vxStoreItems ap (loopCtrs v) 2 (tregGet v 31)).map (·.1)
      ownPending v (tdSpan (tdParse td22) is) = false ∧ gaMissing d v.rbuf (tdHalves d (tdParse td22) is) = []) ∧
     gaMissing d v.rbuf (tdRanges (tdParse td22) (apTile ap (loopCtrs v) 2)) = []) ∧
    (let v := withTile true (bound 2 0x4700 [tdTable])
     let d := runs (patterned awake (ek 2 0) [48, 43] []) (ek 2 0) v
     let ap := padTo 64 ([48, 43].flatMap (natLe 2))
     isBuf [1, 2] 0x40 0x47 ⟨2, 0x4700⟩ = true ∧ (tdParse tdTable).etype = 4 ∧ apFits ap 2 = true ∧
     (apTile ap (loopCtrs v) 2).length = 2064 ∧
     gaMissing d v.rbuf (tdRanges (tdParse tdTable) (apTile ap (loopCtrs v) 2)) = []) :=
  ⟨fun k w t xs => bound_fronts (patterned awake (ek 2 0) xs []) (ek 2 0) k w [t] (withTile true) rfl
    ⟨rfl, rfl, rfl, rfl, rfl, rfl⟩ rfl, by decide +kernel⟩

/-! ### The matrix engine and the Collator -/

/-- M_LIMIT with its record's address in parameter registers 61 and 62. -/
def limSlot : Nat := 3 * 2 ^ 56 + 61 * 2 ^ 50
/-- A stream whose record is at `a`. -/
def limited (a : Nat) (v : Stream) : Stream := { v with params := [(61, a), (62, 0x80), (63, 7)] }

theorem witness_limits :
    (∀ a, Fronts Otp.reset (runs awake (ek 1 31) (limited a (bound 4 limSlot []))) (ek 1 31) (limited a (bound 4 limSlot []))
      ⟨4, limSlot⟩ []) ∧
    isCompute 3 ⟨4, limSlot⟩ = true ∧ bits limSlot 50 6 = 61 ∧ isMul 4 8 = false ∧
    (let d := runs awake (ek 1 31) (limited 8 (bound 4 limSlot []))
     param64 (limited 8 (bound 4 limSlot [])) 61 = 0x8000000008 ∧ isMul 0x8000000008 8 = true ∧
     windowOk d 0 0x8000000008 4 false = true ∧ gaMapped d 0x8000000008 4 = true ∧ gaMissing d [] [(0x8000000008, 4)] = []) :=
  ⟨fun a => bound_fronts awake (ek 1 31) 4 limSlot [] (limited a) rfl ⟨rfl, rfl, rfl, rfl, rfl, rfl⟩ rfl, by decide +kernel⟩

/-- The limit is the smaller of word 0 and the register two above. -/
theorem test_limit :
    (stGet (settle (mLimitDev 31) (on (runs { awake with mem := [(0x8000000008, 9)] } (ek 1 31)
      (limited 8 (bound 4 limSlot []))))).dev (ek 1 31)).map (fun v => (smGet 0 v.lims 0)) = some 7 := by decide +kernel

/-- A scale load of two INT64 positions into registers 3,840 on, and one of FP32. -/
theorem witness_scales :
    (∀ t, Fronts Otp.reset (runs (patterned awake (ek 1 0) [2, 1] []) (ek 1 0) (bound 1 0x2F00 [t])) (ek 1 0) (bound 1 0x2F00 [t])
      ⟨1, 0x2F00⟩ []) ∧
    (let d := runs (patterned awake (ek 1 0) [2, 1] []) (ek 1 0) (bound 1 0x2F00 [tdRec 0x8000000000 (7 + 256) [2, 2] [1, 2]])
     let t := tdParse (tdRec 0x8000000000 (7 + 256) [2, 2] [1, 2])
     let ap := padTo 64 ([2, 1].flatMap (natLe 2))
     bits 0x2F00 8 8 = 0x2F ∧ stTd (bound 1 0x2F00 [tdRec 0x8000000000 (7 + 256) [2, 2] [1, 2]]) 0 = some t ∧
     stGen d (bound 1 0 []) = some genA ∧ (icFind d (ek 1 0) 1023 9 0).isSome ∧ t.etype = 7 ∧ apFits ap t.ndim = true ∧
     (apTile ap [0, 0, 0, 0] 2).length = 2 ∧ (tdParse td22).etype ≠ 7 ∧
     gaMissing d [] (tdRanges t (apTile ap [0, 0, 0, 0] 2)) = []) :=
  ⟨fun t => bound_fronts (patterned awake (ek 1 0) [2, 1] []) (ek 1 0) 1 0x2F00 [t] id rfl ⟨rfl, rfl, rfl, rfl, rfl, rfl⟩ rfl,
    by decide +kernel⟩

/-- M_MMA of bindings 0 and 1 with patterns 0 and 1 into accumulator 7, cleared first; with the gate when `gen`. -/
def mmaSlot (gen : Bool) : Nat := 2 ^ 56 + 2 ^ 48 + 2 ^ 32 + 7 * 2 ^ 29 + 2 ^ 28 + gen.toNat * 2 ^ 15
/-- Two BF16 tensors of 2 by 2. -/
def tdBf : List (List Byte) := [tdRec 0x8000000000 (1 + 256) [2, 2] [1, 2], tdRec 0x8000000100 (1 + 256) [2, 2] [1, 2]]
/-- A BF16 and an INT8 tensor. -/
def tdMixed : List (List Byte) := [tdRec 0x8000000000 (1 + 256) [2, 2] [1, 2], tdRec 0x8000000100 (5 + 256) [2, 2] [1, 2]]
/-- The operands of the product. -/
def mset (ts : List (List Byte)) : MSet :=
  let v := bound 3 (mmaSlot false) ts
  let ap := padTo 64 ([2, 2].flatMap (natLe 2))
  let a := mOp v (tdParse (ts.getD 0 [])) ap 0
  ⟨mmaParse (mmaSlot false), a, mOp v (tdParse (ts.getD 1 [])) ap 1, none, none, none, mRed a⟩
/-- The MXE before the product. -/
def mmaDev (gen : Bool) (ts : List (List Byte)) : Dev := runs (patterned awake (ek 1 15) [2, 2] [2, 2]) (ek 1 15) (bound 3 (mmaSlot gen) ts)

/-- A product skipped by its gate, one that forms, and one of unlike types. -/
theorem witness_products :
    (∀ g ts, Fronts Otp.reset (mmaDev g ts) (ek 1 15) (bound 3 (mmaSlot g) ts) ⟨3, mmaSlot g⟩ []) ∧
    isCompute 1 ⟨3, mmaSlot true⟩ = true ∧ stGen (mmaDev true tdBf) (bound 3 0 []) = some genA ∧
    (icFind (mmaDev true tdBf) (ek 1 15) 1023 9 0).isSome ∧
    mSkips (bound 3 0 tdBf) (mmaParse (mmaSlot true)) = true ∧ mSkips (bound 3 0 tdBf) (mmaParse (mmaSlot false)) = false ∧
    (stTd (bound 3 0 tdBf) 0).isSome ∧ (stTd (bound 3 0 tdBf) 1).isSome ∧
    mStatus (mmaDev false tdBf) (bound 3 (mmaSlot false) tdBf) (mset tdBf) = stOk ∧
    mStatus (mmaDev false tdMixed) (bound 3 (mmaSlot false) tdMixed) (mset tdMixed) = stMxType ∧
    gaMissing (mmaDev false tdBf) [] (mRanges (bound 3 (mmaSlot false) tdBf) (mset tdBf)) = [] :=
  ⟨fun g ts => bound_fronts (patterned awake (ek 1 15) [2, 2] [2, 2]) (ek 1 15) 3 (mmaSlot g) ts id rfl
    ⟨rfl, rfl, rfl, rfl, rfl, rfl⟩ rfl, by decide +kernel⟩

/-- Two INT8 tensors, a product of them that adds to accumulator 7, and its stream. -/
def tdI8 : List (List Byte) := [tdRec 0x8000000000 (5 + 256) [2, 2] [1, 2], tdRec 0x8000000100 (5 + 256) [2, 2] [1, 2]]
def adds : Stream := { bound 3 (mmaSlot false - 2 ^ 28) tdI8 with accs := [(7, ⟨true, 4, [], [], [], false, 2, 2⟩)] }
def adding : MSet := { mset tdI8 with q := mmaParse (mmaSlot false - 2 ^ 28) }
/-- Its accumulator's saturated-position bits are there, or are lost. -/
theorem witness_saturated :
    (∀ x ∈ [([], false), ([⟨2, 10, 8 * 15 + 7⟩], true)],
      let d := runs (patterned { awake with int := { awake.int with injects := x.1 } } (ek 1 15) [2, 2] [2, 2]) (ek 1 15) adds
      mStatus d adds adding = stOk ∧ (satLook d 15 adds adding).2 = x.2) ∧
    (satLook (mmaDev false tdBf) 15 (bound 3 (mmaSlot false) tdBf) (mset tdBf)).2 = false := by decide +kernel

/-- M_DRAIN of accumulator 7 through binding 0, to memory or to channel 15. -/
def drainSlot (fab : Bool) : Nat := 2 * 2 ^ 56 + 7 * 2 ^ 41 + fab.toNat * (2 ^ 25 + 15 * 2 ^ 21)
/-- Accumulator 7 is VALID or VOID. -/
def drains (ok : Bool) (v : Stream) : Stream :=
  { v with checked := [0], accs := [(7, ⟨ok, 0, [(0, 0x40000000)], [], [], false, 1, 64⟩)] }
/-- A row of 64 FP32 elements. -/
def tdRow : List Byte := tdRec 0x8000000000 (256 + 7 * 8192) [64, 1] [1, 64]
/-- A reduce-scatter channel of 64 elements. -/
def rsChan : Chan := chan0 255 5 0 ⟨0, 0, 0⟩ (padTo 96 ([1, 15, 0, 0, 0, 0, 0, 0] ++ natLe 8 64 ++ natLe 8 64)) [] []
/-- The MXE before a drain. -/
def drainDev (fab ok : Bool) : Dev :=
  runs (patterned { awake with chans := [(15, some rsChan)] } (ek 1 16) [64, 1] []) (ek 1 16) (drains ok (bound 4 (drainSlot fab) [tdRow]))

theorem witness_drains :
    (∀ f ok, Fronts Otp.reset (drainDev f ok) (ek 1 16) (drains ok (bound 4 (drainSlot f) [tdRow])) ⟨4, drainSlot f⟩ []) ∧
    (let ap := padTo 64 ([64, 1].flatMap (natLe 2))
     let v := drains true (bound 4 (drainSlot true) [tdRow])
     let a := accGet v 7
     let t := tdParse tdRow
     isCompute 2 ⟨4, drainSlot false⟩ = true ∧ (accGet (drains false v) 7).valid = false ∧ a.valid = true ∧
     stTd v 0 = some t ∧ stGen (drainDev true true) v = some genA ∧ (icFind (drainDev true true) (ek 1 16) 1023 9 0).isSome ∧
     ∀ f ∈ [true, false], let q := drainParse (drainSlot f)
       drainShape q t ap (((apTile ap (loopCtrs v) 2).headD []).getD 0 0) = true ∧ a.typ ≠ 3 ∧ q.mode = 0 ∧
       modeStoch q.nm = false ∧ q.fab = f ∧ ownPending v (tdSpan t ((drainItems ap (loopCtrs v) t a).map (·.1))) = false ∧
       gaMissing (drainDev f true) v.rbuf (tdHalves (drainDev f true) t ((drainItems ap (loopCtrs v) t a).map (·.1))) = [] ∧ q.grad = false ∧ v.checked.contains q.out = true ∧ drainTypes q a t none = true ∧
       drainChan (drainDev true true) v (drainParse (drainSlot true)) t ap (drainItems ap (loopCtrs v) t a) = stOk) :=
  ⟨fun f ok => bound_fronts (patterned { awake with chans := [(15, some rsChan)] } (ek 1 16) [64, 1] []) (ek 1 16) 4 (drainSlot f)
    [tdRow] (drains ok) rfl ⟨rfl, rfl, rfl, rfl, rfl, rfl⟩ rfl, by decide +kernel⟩

/-- A tile of one INT32 position whose value is 5, at its first check or after a disagreement. -/
def tile5 (again : Bool) : TileSt :=
  { word := 2 ^ 28, apA := [], apB := [], m := 1, n := 1, k := 64, before := acc0, after := ⟨true, 4, [(0, 5)], [], [], false, 1, 1⟩,
    rowChk := [⟨.fin false 5 0, .fin false 0 0, .fin false 0 0, false⟩],
    colChk := [⟨.fin false 5 0, .fin false 0 0, .fin false 0 0, false⟩], outRow := [], outCol := [], spec := [],
    injected := false, rerun := again, rows := [], cols := [], server := if again then some 0 else none }

/-- A check that agrees, a wrong value, a flipped check, and the four cases of Table 15-3; the engine that makes the third
computation, and none where no other is usable. -/
theorem witness_collator :
    (∀ (d : Dev) (v : Stream), stGet (runs d (ek 1 31) { v with tile := some (tile5 false) }) (ek 1 31) =
      some { v with tile := some (tile5 false) }) ∧
    (tile5 false).rerun = false ∧ (tile5 true).rerun = true ∧ (tile5 true).injected = false ∧
    (let d := runs awake (ek 1 31) { strm with tile := some (tile5 false) }
     let res := fun w => (tileSeen d strm (tile5 false) w).2
     mxeServes d 31 = false ∧ (tileAgain d strm (tile5 false)).after = (tile5 false).after ∧
     tileBad (tile5 false) (res []) [] = ([], []) ∧ tileBad (tile5 false) (res [(0, 6)]) [] = ([0], [0]) ∧
     tileBad (tile5 false) (res []) [64] = ([], [0])) ∧
    (let r := tileRerun (runs awake (ek 1 31) { strm with tile := some (tile5 true) }) strm (tile5 true)
     tileAgrees (r []).1 (r []).2 [] = true ∧ tileAgrees (r []).1 (r [(0, 6)]).2 [] = false ∧ (r [(0, 6)]).2 ≠ (r [(0, 7)]).2 ∧
     (r [(0, 6)]).2 = (r [(0, 6)]).2) ∧ (tile5 true).server.isSome = true ∧ ({ tile5 true with server := none } : TileSt).server = none ∧
    otherMxe Otp.reset awake 31 ≠ none ∧ otherMxe { Otp.reset with capEngines := 2 ^ 31 } awake 31 = none :=
  ⟨fun d v => runs_get d (ek 1 31) _, by decide +kernel⟩

/-! ### Embedding lookup -/

/-- Table entry: 100 rows of 16 columns and 40 bytes, all of the own module, generation 3, out of range under FAULT. -/
def ent3 : List Byte :=
  padTo 128 (natLe 8 0x8000100000 ++ natLe 8 100 ++ zeros 16 ++ natLe 2 16 ++ natLe 2 40 ++ zeros 12 ++ natLe 8 100 ++ natLe 2 3)
/-- Table 5 holds it on side A, active; bind slot 0 has recorded it for step 9. -/
def tabled (d : Dev) : Dev :=
  { d with tables := [(5, { table0 with a := ent3, active := 0 })], binds := [(0, ⟨true, 9, [(5, some (0, 3))]⟩)] }
/-- The word of E_LOOKUP (opcode 0x20) or E_ACCUM (0x30): indices of binding 0, output or gradients of binding 1, table 5. -/
def embWord (op : Nat) : Nat := op * 2 ^ 56 + 15 * 2 ^ 48 + 2 ^ 44 + 5 * 2 ^ 28
/-- Two INT32 indices and a tensor of 16 by 2 FP32 values. -/
def embTds : List (List Byte) :=
  [tdRec 0x8000000000 (4 + 128 + 7 * 8192) [2] [1], tdRec 0x8000000200 (256 + 7 * 8192) [16, 2] [1, 16]]
/-- Parameter registers 0 to 2: bind slot 0, two bags, one index a bag; the output has been checked. -/
def bags (v : Stream) : Stream := { v with params := [(1, 2), (2, 1)], checked := [1] }
/-- EBE 31 before the slot, with the first index `x`. -/
def embDev (op x : Nat) (f : Dev → Dev) : Dev :=
  runs (f { awake with mem := smSet 0 [] 0x8000000000 (BitVec.ofNat 8 x) }) (ek 3 31) (bags (bound 3 (embWord op) embTds))

/-- The stream before the lookup. -/
def elV : Stream := bags (bound 3 (embWord 0x20) embTds)
/-- The device once the slot has used its bind slot and its output. -/
def elUsed (d : Dev) : Dev := markChecked (elMarkBind (catUse d 5) (ek 3 31) elV (embWord 0x20)) (ek 3 31) (elOut (embWord 0x20))
/-- Its table checks. -/
def elSt (d : Dev) : Nat :=
  firstBad ((!modeStoch (elMode (embWord 0x20)) || tdStochOk (elTd elV (elOut (embWord 0x20))), stTdShape) ::
    elChecks (elUsed d) elV (embWord 0x20))

/-- A lookup that asks for rows 99 and 0, one with index 100, one of a table that no bind slot has recorded. -/
theorem witness_lookups :
    (∀ x f, (f { awake with mem := smSet 0 [] 0x8000000000 (BitVec.ofNat 8 x) }).int = awake.int →
      Fronts Otp.reset (embDev 0x20 x f) (ek 3 31) elV ⟨3, embWord 0x20⟩ []) :=
  fun x f h => fronts_of _ (ek 3 31) _ _ (runs_get _ (ek 3 31) _) rfl ⟨rfl, rfl, rfl, rfl, rfl, rfl⟩
    (by simp only [usable, retired, unitGet, embDev, runs, stSet, coded, h]; rfl)

theorem witness_lookupChecks :
    isEbe 0x20 ⟨3, embWord 0x20⟩ = true ∧ (elBindings (embWord 0x20)).all (fun b => (stTd elV b).isSome) = true ∧
    elTable (embWord 0x20) = 5 ∧
    writeCheck (catUse (embDev 0x20 99 tabled) 5) elV (elOut (embWord 0x20)) = stOk ∧
    elSt (embDev 0x20 99 tabled) = stOk ∧ elSt (embDev 0x20 99 id) = stEmbNotable := by
  decide +kernel

theorem witness_lookupIndices :
    let d := elUsed (embDev 0x20 99 tabled)
    let ps := elPositions d elV (embWord 0x20)
    gaMissing d elV.rbuf (elOfsRanges elV (embWord 0x20)) = [] ∧
    gaMissing d elV.rbuf (elRanges elV (elIdx (embWord 0x20)) ps ++ []) = [] ∧
    ps.map (fun p => elClass (elEntry d elV (embWord 0x20)) (elIndex d elV (embWord 0x20) p.2)) = [(some 101, false), (some 2, false)] ∧
    elBar d (elEntry d elV (embWord 0x20)) [99, 0] = none := by decide +kernel

theorem witness_lookupRange :
    let d := elUsed (embDev 0x20 100 tabled)
    (elPositions d elV (embWord 0x20)).map (fun p =>
      (elClass (elEntry d elV (embWord 0x20)) (elIndex d elV (embWord 0x20) p.2)).1.isNone) = [true, false] := by decide +kernel

/-- A lookup all of whose rows are there. -/
def look0 : Look := ⟨embWord 0x20, ent3, [], [], [(3, 7)], [], []⟩
theorem witness_lookupWrites :
    (∀ d : Dev, stGet (runs d (ek 3 0) { strm with look := some look0 }) (ek 3 0) = some { strm with look := some look0 }) ∧
    look0.need = [] ∧
    (let v := { strm with look := some look0 }
     ownPending v (tdSpan (elTd v (elOut look0.word)) ((elOutputs (runs awake (ek 3 0) v) v look0).1.map (·.1))) = false) :=
  ⟨fun d => runs_get d (ek 3 0) _, rfl, by decide +kernel⟩

/-- A read of row 7 of table 5 for EBE 0, of a generation and for a step. -/
def rowReq (gen step : Nat) (held : Bool) : RowReq := ⟨some (ek 3 0), (255, 5), 0, 0, 5, 7, gen, step, true, held⟩
/-- The module with that read. -/
def reading (r : RowReq) : Dev := { tabled awake with rowReqs := [r] }

/-- The same while the lookup that asked still waits for the row. -/
def wanting (r : RowReq) : Dev := { runs (tabled awake) (ek 3 0) { strm with look := some { look0 with need := [7] } } with rowReqs := [r] }

/-- A generation that no side has, closed gates at step 2 when PUB_APPLIED is 0, open gates at step 1, and a held read. -/
theorem witness_rowReads :
    (reading (rowReq 3 1 false)).rowReqs.find? (fun r => !r.held) = some (rowReq 3 1 false) ∧
    catByGen (catGet (reading (rowReq 4 1 false)) 5) 4 = none ∧ catByGen (catGet (reading (rowReq 3 1 false)) 5) 3 = some 0 ∧
    rowPasses Otp.reset (reading (rowReq 3 2 false)) (rowReq 3 2 false) = false ∧
    rowPasses Otp.reset (reading (rowReq 3 1 false)) (rowReq 3 1 false) = true ∧
    7 < ceRows (catSide (catGet (reading (rowReq 3 1 false)) 5) 0) ∧ mapped (reading (rowReq 3 1 false)) (rowHome ent3 7) 40 = true ∧
    (∀ d ∈ [reading (rowReq 3 1 false), wanting (rowReq 3 1 false)], d.int.injects = [] ∧
      d.rowReqs.find? (fun r => !r.held) = some (rowReq 3 1 false)) ∧
    rowWanted (reading (rowReq 3 1 false)) (ek 3 0) (rowReq 3 1 false) = false ∧
    rowWanted (wanting (rowReq 3 1 false)) (ek 3 0) (rowReq 3 1 false) = true ∧
    rowPasses Otp.reset (wanting (rowReq 3 1 false)) (rowReq 3 1 false) = true ∧
    (reading (rowReq 3 1 true)).rowReqs.find? (fun r => r.held && rowPasses Otp.reset (reading (rowReq 3 1 true)) r) =
      some (rowReq 3 1 true) ∧
    ((reading (rowReq 3 2 true)).rowReqs.filter (fun r => r.held && !rowPasses Otp.reset (reading (rowReq 3 2 true)) r))[0]? =
      some (rowReq 3 2 true) ∧
    inboxFind (delivered awake (pkt 0x10 3 [] (zeros 8))) 0x10 = some (19, pkt 0x10 3 [] (zeros 8)) := by decide +kernel

/-- The last bytes of a row of 40 bytes, and a packet with fewer. -/
theorem witness_rowData :
    let x : Req := ⟨pkt 0x10 3 [] [], .stream (ek 3 0), 0, 0, false⟩
    (∀ d : Dev, stGet (runs d (ek 3 0) { strm with look := some look0 }) (ek 3 0) = some { strm with look := some look0 }) ∧
    (∀ n ∈ [39, 40], inboxFind (delivered (asked awake x) (pkt 0x11 3 [] (zeros n))) 0x11 = some (19, pkt 0x11 3 [] (zeros n))) ∧
    reqGet (delivered (asked awake x) (pkt 0x11 3 [] (zeros 40))) 3 = some x ∧
    look0.tags.find? (fun t => t.1 == 3) = some (3, 7) ∧
    (∀ n ∈ [39, 40], replyLen look0.entry (joinParts [(0, zeros n)] 2 []) = 40 ∧ (joinParts [(0, zeros n)] 2 []).length = n) :=
  ⟨fun d => runs_get d (ek 3 0) _, by decide +kernel⟩

theorem dispatches_of {d : Dev} {q op : Nat} {c : Cmd} {u : Queue} {rest : List Cmd} (h1 : nextQueue d = some q)
    (h2 : qGet d q = some u) (h3 : u.parsed = c :: rest) (h4 : c.op = op) (h5 : cmdWait d u c = 1)
    (h6 : (fresh (dispatchHead d q u c rest) q (· == op)).isSome = true) :
    ∃ v r, Dispatches d q op c (dispatchHead d q u c rest) v r := by
  obtain ⟨x, hx⟩ := Option.isSome_iff_exists.1 h6
  exact ⟨x.1, x.2, h1, u, rest, h2, h3, h4, h5, rfl, hx⟩

/-- DC_CAT_SWITCH of table 5 to a generation at a step. -/
def switchCmd (gen step : Nat) : Cmd := cmd 0x22 (natLe 2 5 ++ natLe 2 gen ++ zeros 4 ++ natLe 8 step)
/-- Table 5 with its other side of generation 4, the last step bound 9; the switch waits in queue 255. -/
def switching (c : Cmd) : Dev :=
  { qSet awake 255 (queueOf 0 [c] []) with
    tables := [(5, { table0 with a := ent3, b := ent3.take 56 ++ natLe 2 4 ++ zeros 70, active := 0 })], catLastStep := 9 }
/-- The module once the command is dispatched and begun. -/
def begunOn (d : Dev) (fn : Nat) (c : Cmd) : Dev :=
  runMod (dispatchHead d 255 (queueOf fn [c] []) c []) 255 5 (fun r => { r with started := true })

/-- Disarming, a generation that no side has, a step already bound, and the first step that is not. -/
theorem witness_switches (gen step : Nat) (h : (gen, step) ∈ [(4, 2 ^ 64 - 1), (3, 10), (4, 9), (4, 10)]) :
    (∃ v r, Dispatches (switching (switchCmd gen step)) 255 0x22 (switchCmd gen step)
      (dispatchHead (switching (switchCmd gen step)) 255 (queueOf 0 [switchCmd gen step] []) (switchCmd gen step) []) v r) ∧
    fld (switchCmd gen step).body 8 8 = step ∧ fld (switchCmd gen step).body 0 2 % 4096 = 5 ∧
    (catUse (begunOn (switching (switchCmd gen step)) 0 (switchCmd gen step)) 5).catLastStep = 9 ∧
    switchTarget (catGet (catUse (begunOn (switching (switchCmd gen step)) 0 (switchCmd gen step)) 5) 5) gen =
      (if gen = 3 then stCatGen else stOk) := by
  simp only [List.mem_cons, List.not_mem_nil, or_false, Prod.mk.injEq] at h
  rcases h with ⟨rfl, rfl⟩ | ⟨rfl, rfl⟩ | ⟨rfl, rfl⟩ | ⟨rfl, rfl⟩
  all_goals
    refine ⟨dispatches_of (u := queueOf 0 [switchCmd _ _] []) ?_ ?_ rfl rfl ?_ ?_, ?_⟩ <;> decide +kernel

/-- DC_EMB_BIND of bind slot 15 for a step, from the queue of a function. -/
def bindCmd (step : Nat) : Cmd := cmd 0x20 (natLe 8 15 ++ natLe 8 step)
/-- It waits in queue 255 of the function. -/
def binding (fn step : Nat) : Dev := qSet { awake with catLastStep := 9 } 255 (queueOf fn [bindCmd step] [])
theorem witness_binds (fn step : Nat) (h : (fn, step) ∈ [(0, 8), (0, 9), (7, 8)]) :
    (∃ v r, Dispatches (binding fn step) 255 0x20 (bindCmd step)
      (dispatchHead (binding fn step) 255 (queueOf fn [bindCmd step] []) (bindCmd step) []) v r) ∧
    (begunOn (binding fn step) fn (bindCmd step)).catLastStep = 9 ∧ fld (bindCmd step).body 8 8 = step := by
  simp only [List.mem_cons, List.not_mem_nil, or_false, Prod.mk.injEq] at h
  rcases h with ⟨rfl, rfl⟩ | ⟨rfl, rfl⟩ | ⟨rfl, rfl⟩
  all_goals
    refine ⟨dispatches_of (u := queueOf _ [bindCmd _] []) ?_ ?_ rfl rfl ?_ ?_, ?_⟩ <;> decide +kernel

/-- R166: a switch of a table with no side fails, and one to the active generation does not go on. -/
theorem test_switch_target :
    switchTarget table0 3 = stCatNone ∧ switchTarget { table0 with a := ent3, active := 0 } 3 = stCatNone ∧
    switchTarget { table0 with a := ent3, active := 2 } 3 = stOk := by decide +kernel

/-- DC_HRD_WRITE with a list of one operation at `a` and its result record at `b`. -/
def hrdCmd (n a b : Nat) (begun : Bool) : Running := disp 0x21 0 (natLe 8 a ++ natLe 8 n ++ natLe 8 b) begun
theorem witness_hotRows :
    (∀ c ∈ [(0, 0x8000000010), (1, 0x8000000010), (1, 0xF00000000000)],
      let r := hrdCmd c.1 c.2 0x8000000020 false
      fresh (running awake r) 255 (· == 0x21) = some (queueOf 0 [] [r], r) ∧
      (isMul c.2 16 && isMul 0x8000000020 32 && isOwn awake c.2 && isOwn awake 0x8000000020 && decide (1 ≤ c.1 ∧ c.1 ≤ 2 ^ 20)) =
        decide (c.1 = 1 ∧ c.2 = 0x8000000010)) ∧
    (mapped awake (localOf 0x8000000010) (16 * 1) && mapped awake (localOf 0x8000000020) 32) = true ∧
    mapped awake (localOf 0x20000000) 16 = false ∧
    (let r := hrdCmd 1 0x8000000010 0x8000000020 true
     (queueOf 0 [] [r]).running.find? (fun r => (r.cmd.op == 0x21 && r.started) && r.final.isNone && r.remote == []) = some r ∧
     qGet (running awake r) 255 = some (queueOf 0 [] [r])) := by decide +kernel

/-! ### Sparse gradients and row updates -/

/-- EBE 31 before E_ACCUM, its stream of function `fn`, its directory as given. -/
def accV (fn : Nat) : Stream := { bags (bound 3 (embWord 0x30) embTds) with fn := fn }
/-- The device with that directory. -/
def accDev (fn : Nat) (c : Combiner) : Dev := runs { tabled awake with combs := [(31, c)] } (ek 3 31) (accV fn)
/-- The bind slot is in use. -/
def accUsed (c : Combiner) : Dev := elMarkBind (combUse (accDev 0 c) 31) (ek 3 31) (accV 0) (embWord 0x30)

/-- A virtual function's stream, a directory open for another step, and an EMPTY one. -/
theorem witness_accumulates :
    (∀ fn c, Fronts Otp.reset (accDev fn c) (ek 3 31) (accV fn) ⟨3, embWord 0x30⟩ []) ∧
    isEbe 0x30 ⟨3, embWord 0x30⟩ = true ∧ (accV 7).fn ≠ 0 ∧
    (elBindings (embWord 0x30)).all (fun b => (stTd (accV 0) b).isSome) = true ∧
    (∀ c ∈ [(comb0, stOk), ({ comb0 with state := 1, step := 8 }, stCombStep), ({ comb0 with state := 1, step := 9 }, stOk)],
      firstBad (elChecks (accUsed c.1) (accV 0) (embWord 0x30) ++ [(c.1.state == 0 || c.1.step == 9, stCombStep)]) = c.2) ∧
    combGet (combUse (accDev 0 comb0) 31) 31 = comb0 ∧ (smGet bind0 (combUse (accDev 0 comb0) 31).binds (elBindKey (accV 0) (embWord 0x30))).step = 9 :=
  ⟨fun fn c => fronts_of _ (ek 3 31) _ _ (runs_get _ (ek 3 31) _) rfl ⟨rfl, rfl, rfl, rfl, rfl, rfl⟩ rfl, by decide +kernel⟩

theorem witness_accumulateReads :
    let ps := elPositions (accUsed comb0) (accV 0) (embWord 0x30)
    gaMissing (accUsed comb0) [] (elOfsRanges (accV 0) (embWord 0x30)) = [] ∧
    gaMissing (accUsed comb0) [] (elRanges (accV 0) 0 ps ++ [] ++ eaRanges (accV 0) (embWord 0x30) (ps.map (·.1)).eraseDups) = [] := by
  decide +kernel

/-- A record of one row, and a fold over a directory that holds it in an area that is full with it. -/
def mrow1 : MRow := ⟨5, 7, 1, 3, 0, 9, List.replicate 16 (0, 0)⟩
/-- The fold. -/
def fold1 : Fold := ⟨{ comb0 with state := 1, step := 9, keys := [mrow1], areaSize := recBytes 16 }, 0, 0, 0, 0, false⟩

theorem witness_combinerAreas :
    fold1.comb.keys.length ≤ 1048576 ∧ recsUsed fold1.comb.keys = fold1.comb.areaSize ∧
    recsUsed fold1.comb.spills ≤ fold1.comb.spillSize ∧
    (∀ r ∈ fold1.comb.keys, r.table = 5 → r.row = 7 → r.cols.length = (List.replicate 16 0).length) ∧ fold1.full = false ∧
    (∃ r ∈ fold1.comb.keys, r.table = 5 ∧ r.row = 7) := by decide +kernel

/-- R198, R199: with the area full, another row goes to the spill area, or poisons the directory. -/
theorem test_combiner_spills :
    (foldOne 5 3 fold1 8 (List.replicate 16 0)).full = true ∧
    (let g := foldOne 5 3 { fold1 with comb := { fold1.comb with spillSize := recBytes 16 } } 8 (List.replicate 16 0)
     g.full = false ∧ g.comb.spilled = true ∧ g.comb.keys.length = 1 ∧ g.comb.spills.length = 1) := by decide +kernel

/-- DC_ROUTE_ROWS of EBE 31 for step 9, its result record at `res`, discarding or not. -/
def routeCmd (discard : Nat) (res : Nat) : Running :=
  disp 0x28 0 ([31, BitVec.ofNat 8 discard] ++ zeros 6 ++ natLe 8 9 ++ natLe 8 res) false
/-- Its queue, of function `fn`. -/
def routing (fn : Nat) (r : Running) (c : Combiner) : Dev :=
  qSet { tabled awake with combs := [(31, c)] } 255 (queueOf fn [] [r])

/-- A poisoned directory, one open for another step, a result record in nowhere, outside the windows, unmapped, and a route
of one record to the own module. -/
theorem witness_routes :
    (∀ fn ∈ [0, 7], ∀ x ∈ [(0, 0x8000000020), (1, 0x8000000010), (0, 0x20000000)],
      fresh (routing fn (routeCmd x.1 x.2) fold1.comb) 255 (· == 0x28) =
        some (queueOf fn [] [routeCmd x.1 x.2], routeCmd x.1 x.2)) ∧
    (combGet (routing 0 (routeCmd 0 0) fold1.comb) 31) = fold1.comb ∧ fold1.comb.state = 1 ∧ fold1.comb.step = 9 ∧
    fld (routeCmd 0 0x8000000020).cmd.body 8 8 = 9 ∧ isMul 0x8000000020 32 = true ∧ isMul 0x8000000010 32 = false ∧
    windowOk (routing 7 (routeCmd 0 0) comb0) 7 0x8000000020 32 true = false ∧
    windowOk (routing 0 (routeCmd 0 0) comb0) 0 0x8000000020 32 true = true ∧
    mapped awake (localOf 0x20000000) 32 = false ∧ mapped awake (localOf 0x8000000020) 32 = true ∧
    (∀ x ∈ fold1.comb.keys ++ fold1.comb.spills,
      ceOwner (routing 0 (routeCmd 0 0) fold1.comb) (catEntry (routing 0 (routeCmd 0 0) fold1.comb) x.table x.gen) x.row = 0) := by
  decide +kernel

theorem witness_fragments :
    (∀ x ∈ [([], false), ([⟨2, 8, 19⟩], true)], (ctlUse { awake with int := { awake.int with injects := x.1 } } 8 (16 + 3)).2 = x.2) ∧
    inboxFind (delivered awake (pkt 0x30 3 (natLe 2 5 ++ [0, 0] ++ zeros 8) (zeros 64))) 0x30 =
      some (19, pkt 0x30 3 (natLe 2 5 ++ [0, 0] ++ zeros 8) (zeros 64)) ∧
    (∀ st ∈ [1, 2], inboxFind (delivered awake (pkt 0x31 3 [BitVec.ofNat 8 st] [])) 0x31 =
      some (19, pkt 0x31 3 [BitVec.ofNat 8 st] [])) ∧
    smGet none ({ awake.fab with relay := [(3, some ⟨1, 8, 2, 9⟩)] }).relay 3 = some ⟨1, 8, 2, 9⟩ ∧
    smGet none (asked awake ⟨pkt 0x30 3 [] [], .cmd 255 5, 0, 0, false⟩).fab.relay 3 = none ∧
    reqGet (asked awake ⟨pkt 0x30 3 [] [], .cmd 255 5, 0, 0, false⟩) 3 = some ⟨pkt 0x30 3 [] [], .cmd 255 5, 0, 0, false⟩ := by
  decide +kernel

/-- Pair 31 applying step 9 under a verdict of a kind, with one entry. -/
def applying (kind : Nat) : Dev :=
  { tabled awake with act := some ⟨9, kind, 0x3F800000, false⟩,
                      pairs := [(31, { pair0 with applying := true, applied := 8, jBase := 0x1000, jSize := 0x1000, je := 256,
                                                  entries := [⟨[(0, [], mrow1)], [0], false⟩] })] }
theorem witness_entriesApply :
    ∀ k ∈ [0, 1],
      (applying k).act = some ⟨9, k, 0x3F800000, false⟩ ∧ k ≠ 2 ∧
      (pubOf (pairGet (applying k) 31) 9)[0]? = some ⟨[(0, [], mrow1)], [0], false⟩ ∧ (pairGet (applying k) 31).applying = true ∧
      0 < pairCap (pairGet (applying k) 31) ∧ allReserved (applying k) = true ∧ (applying k).int.injects = [] := by decide +kernel

/-! ### Dense updates and versions -/

/-- A MOMENTUM or FACTORED parameter of 4 by 2 FP32 weights with the two slots given. -/
def par (rule : Nat) (a b : Option VSlot) : Param :=
  { entry := padTo 128 (zeros 8 ++ natLe 8 0x8000010000 ++ zeros 24 ++ natLe 1 rule),
    td := tdRec 0x8000000000 (256 + 7 * 8192) [4, 2] [1, 4], a := a, b := b, target := none, src := 0, inPlace := false,
    stats := false, tiles := 0, undo := [] }
/-- VER_COMMITTED is 4, and VER_STALE_MAX as given. -/
def at4 (stale : Nat) : Dev := { awake with verCommitted := 4, verLastStep := 8, staleMax := stale }

/-- An EMPTY target, one without readers, and targets that readers hold: in place, and for each reason a wait. -/
theorem witness_reservations :
    (let p := par 2 (some ⟨4, 4, 1, 0⟩) none
     peResolve p 4 = some 0 ∧ peSlotSt p 0 = some ⟨4, 4, 1, 0⟩ ∧ slotFree (peSlotSt p 1) = true) ∧
    (let p := par 2 (some ⟨4, 5, 1, 0⟩) (some ⟨2, 3, 1, 0⟩)
     peResolve p 4 = some 0 ∧ slotFree (peSlotSt p 1) = false ∧ peRule p ≠ 3 ∧ 5 + 1 - 4 ≤ (at4 2).staleMax ∧
     (at4 1).staleMax < 5 + 1 - 4 ∧ (at4 0).staleMax = 0) ∧
    peRule (par 3 none none) = 3 ∧ slotFree (some ⟨2, 3, 0, 0⟩) = true := by decide +kernel

/-- The module in the apply of step 9 with parameter 4095. -/
def stepping (kind : Nat) (p : Param) : Dev :=
  { at4 0 with act := some ⟨9, kind, 0x3F800000, false⟩, djAreas := [(peUpe p, (0x1000, 2, 4096))], params := [(4095, some p)],
               pairs := (List.range 32).map (fun n => (n, { pair0 with applied := 9 })) }

theorem witness_grant :
    let p := par 2 (some ⟨4, 4, 1, 0⟩) (some ⟨2, 3, 0, 0⟩)
    (stepping 0 p).act = some ⟨9, 0, 0x3F800000, false⟩ ∧ unreserved (stepping 0 p) = [4095] ∧
    paramGet (stepping 0 p) 4095 = some p ∧ (peReserve (stepping 0 p) p true).isSome := by decide +kernel

/-- The first and the last tile of a reserved parameter, of each rule. -/
theorem witness_tiles :
    ∀ rule ∈ [2, 3],
      let p := { par rule (some ⟨4, 4, 1, 0⟩) (some ⟨5, 5, 0, 0⟩) with target := some 1 }
      paramGet (stepping 0 p) 4095 = some p ∧ allReserved (stepping 0 p) = true ∧ p.target.isSome = true ∧
      p.tiles < peTiles p ∧ peTiles p = 1 ∧ (smGet (0, 0, 0) (stepping 0 p).djAreas (peUpe p)).2.1 ≠ 0 ∧
      (stepping 0 p).int.injects = [] := by decide +kernel

/-- DC_COMMIT with an operation, a version or step, and for acquires a range of parameters. -/
def vc (op first n arg res : Nat) (begun : Bool) : Running :=
  disp 0x32 0 (natLe 1 op ++ zeros 3 ++ natLe 2 first ++ natLe 2 n ++ natLe 8 arg ++ natLe 8 res) begun
/-- A module with that command in its queue 255. -/
def vcDev (d : Dev) (r : Running) : Dev := running d r

/-- VC_COMMIT of a bad form, of a wrong step, barred, and accepted. -/
theorem witness_commitChecks :
    (∀ r ∈ [vc 1 0 1 9 0 false, vc 1 0 0 8 0 false, vc 1 0 0 9 0 false],
      fresh (vcDev (at4 0) r) 255 (· == 0x32) = some (queueOf 0 [] [r], r) ∧ vcOp r = 1) ∧
    vcForm (at4 0) (vc 1 0 1 9 0 false) = false ∧ vcForm (at4 0) (vc 1 0 0 9 0 false) = true ∧
    vcArg (vc 1 0 0 9 0 false) = (at4 0).verLastStep.toNat + 1 ∧ vcArg (vc 1 0 0 8 0 false) ≠ (at4 0).verLastStep.toNat + 1 ∧
    (at4 0).int.injects = [] ∧ ({ at4 0 with int := { Integrity.reset with noCommit := true } }).int.noCommit = true ∧ (at4 0).int.noCommit = false := by
  decide +kernel

/-- The module when every pair and parameter is done, for an applied and for a skipped step. -/
def allDone (kind : Nat) : Dev :=
  vcDev (stepping kind { par 2 (some ⟨4, 4, 1, 0⟩) (some ⟨5, 5, 0, 0⟩) with target := some 1, tiles := 1 }) (vc 1 0 0 9 0 true)

theorem witness_commits :
    (∀ k ∈ [0, 2], Awaits (allDone k) 255 (queueOf 0 [] [vc 1 0 0 9 0 true]) (vc 1 0 0 9 0 true) (vcWaits 1) ∧
      (allDone k).act = some ⟨9, k, 0x3F800000, false⟩ ∧ actDone Otp.reset (allDone k) ⟨9, k, 0x3F800000, false⟩ = true ∧
      (allDone k).verCommitted.toNat ≠ 2 ^ 64 - 1) ∧
    (allDone 0).int.noCommit = false ∧ vcArg (vc 1 0 0 9 0 true) = (allDone 0).verLastStep.toNat + 1 ∧
    vcOutcome Otp.reset (vcDev (at4 0) (vc 1 0 0 8 0 true)) (vc 1 0 0 8 0 true) = some stVerStep ∧
    vcOutcome Otp.reset (vcDev (at4 0) (vc 1 0 0 9 0 true)) (vc 1 0 0 9 0 true) = none := by
  unfold Awaits; decide +kernel

/-- A module with parameter 4095 whose slot A holds version 4. -/
def held4 (readers exact : Nat) : Dev := { at4 0 with params := [(4095, some (par 2 (some ⟨4, 4, readers, exact⟩) none))] }

/-- An acquire of version 4 acts at once, one of version 5 waits; both at the end of the parameter numbers. -/
theorem witness_acquires :
    (∀ arg ∈ [4, 5], ∀ b ∈ [true, false],
      let r := vc 2 4095 1 arg 0x8000000010 b
      (b = false → fresh (vcDev (held4 0 0) r) 255 (· == 0x32) = some (queueOf 0 [] [r], r)) ∧
      (b = true → Awaits (vcDev (held4 0 0) r) 255 (queueOf 0 [] [r]) r (vcWaits 2)) ∧ vcOp r = 2 ∧ vcForm (held4 0 0) r = true ∧
      (windowOk (held4 0 0) 0 0x8000000010 16 true && mapped (held4 0 0) (localOf 0x8000000010) 16) = true ∧
      vcVersion (held4 0 0) r = arg) ∧
    (vcRange (held4 0 0) (vc 2 4095 1 4 0 false)).map (fun x => (acqHas false 4 (peFound x.2 4), acqRoom false (peFound x.2 4))) = [(true, true)] ∧
    (vcRange (held4 65535 65535) (vc 2 4095 1 4 0 false)).map (fun x => acqRoom true (peFound x.2 4)) = [false] ∧
    (vcRange (held4 0 0) (vc 2 4095 1 4 0 false)).map (fun x => acqHas false 3 (peFound x.2 3)) = [false] ∧
    (vcRange (held4 0 0) (vc 2 4095 1 4 0 false)).map (fun x => peFound x.2 3) = [none] := by
  unfold Awaits
  refine ⟨?_, ?_, ?_, ?_, ?_⟩ <;> decide +kernel

/-- A release of a version that is held, and of one that is not. -/
theorem witness_releases :
    ∀ readers ∈ [0, 1],
      let r := vc 3 4095 1 4 0 false
      fresh (vcDev (held4 readers 0) r) 255 (· == 0x32) = some (queueOf 0 [] [r], r) ∧ vcOp r = 3 ∧
      vcForm (held4 readers 0) r = true ∧
      (vcRange (held4 readers 0) r).map (fun x => decide (4 ≤ (held4 readers 0).verCommitted.toNat) && relHeld (vcExact r) (peFound x.2 4)) =
        [decide (readers = 1)] := by decide +kernel

/-! ### Step control and the guard -/

/-- A total with Q, NF and flags. -/
def total (q nf why : Nat) : List Byte := natLe 4 q ++ natLe 4 nf ++ natLe 8 why ++ natLe 8 9 ++ zeros 8
/-- A guard of a row of two modules, with CLIP and SKIP norms. -/
def cfg2 (clip skip : Nat) : GuardCfg := ⟨7, 0, 1, 0, clip, skip, 0, 1000⟩

/-- Q = 4.0 gives n = 2.0: SKIP for each reason, CLIP above 1.0 and not at 2.0, APPLY. -/
theorem witness_verdicts :
    sqrtF 0x40800000 = 0x40000000 ∧
    (∀ x ∈ [(0x40800000, 0, 1, 1), (0x40800000, 1, 0, 2), (0x7F800000, 0, 0, 4), (0x40800000, 0, 0, 0)],
      fld (total x.1 x.2.1 x.2.2.1) 8 1 % 2 + (if fld (total x.1 x.2.1 x.2.2.1) 4 4 = 0 then 0 else 2) +
        (if finF (fld (total x.1 x.2.1 x.2.2.1) 0 4) then 0 else 4) = x.2.2.2) ∧
    ltF 0 0x3F800000 = true ∧ ltF 0x3F800000 0x40000000 = true ∧ ltF 0x40000000 0x40000000 = false ∧ ltF 0 0 = false := by
  decide +kernel

/-- R302: a norm of 2.0 under a clip norm of 1.0 is scaled by one half. -/
theorem test_verdict_clips :
    (verdictOf (cfg2 0x3F800000 0) (total 0x40800000 0 0)).take 16 = natLe 8 9 ++ [1, 0, 0, 0] ++ natLe 4 0x3F000000 := by
  decide +kernel

/-- DC_NORM_SUBMIT of a step with its record at `res`. -/
def normCmd (step res : Nat) (begun : Bool) : Running := disp 0x30 0 (natLe 8 step ++ zeros 8 ++ natLe 8 res) begun
/-- Module 1 of the row, VER_LAST_STEP = 8. -/
def member (c : Option GuardCfg) (sub : Nat) : Dev :=
  { awake with pow := { awake.pow with siteCode := 0x110000 }, verLastStep := 8,
               guard := { Guard.reset with cfg := c, submitted := sub } }

theorem witness_norms :
    (∀ x ∈ [(9, 0x1000008000000020), (9, 0x8000000020), (8, 0x1000008000000020)],
      fresh (running (member none 0) (normCmd x.1 x.2 false)) 255 (· == 0x30) =
        some (queueOf 0 [] [normCmd x.1 x.2 false], normCmd x.1 x.2 false)) ∧
    isOwn (member none 0) 0x1000008000000020 = true ∧ isOwn (member none 0) 0x8000000020 = false ∧
    isMul 0x1000008000000020 32 = true ∧ (member (some (cfg2 0 0)) 9).guard.submitted = (member none 9).verLastStep.toNat + 1 ∧
    windowOk (member none 0) 7 0x1000008000000020 32 true = false ∧ mapped (member none 0) (localOf 0x1000020000000) 32 = false ∧
    (windowOk (member none 0) 0 0x1000008000000020 32 true && mapped (member none 0) (localOf 0x1000008000000020) 32) = true ∧
    Awaits (running (member none 9) (normCmd 9 0 true)) 255 (queueOf 0 [] [normCmd 9 0 true]) (normCmd 9 0 true)
      (fun r => r.cmd.op == 0x30 && r.started) := by
  unfold Awaits; decide +kernel

/-- The first status of each kind, and a submission that passes. -/
theorem witness_normStatus :
    let st := fun (d : Dev) (fn step : Nat) (res : Nat) => firstBad [(d.guard.cfg.isSome, stGuardConfig),
      (res == 0 || (isMul res 32 && isOwn d res), stGuardParam), (step == d.verLastStep.toNat + 1, stGuardStep),
      (d.guard.submitted != step, stGuardDup), (res == 0 || windowOk d fn res 32 true, stRrWindow),
      (res == 0 || mapped d (localOf res) 32, stAddrUnmapped)]
    st (member none 0) 0 9 0 = stGuardConfig ∧ st (member (some (cfg2 0 0)) 0) 0 9 0x8000000020 = stGuardParam ∧
    st (member (some (cfg2 0 0)) 0) 0 8 0 = stGuardStep ∧ st (member (some (cfg2 0 0)) 9) 0 9 0 = stGuardDup ∧
    st (member (some (cfg2 0 0)) 0) 7 9 0x1000008000000020 = stRrWindow ∧
    st (member (some (cfg2 0 0)) 0) 0 9 0x1000000020000000 = stAddrUnmapped ∧
    st (member (some (cfg2 0 0)) 0) 0 9 0x1000008000000020 = stOk := by decide +kernel

/-- A partial norm of the guard's group, and one of another. -/
theorem witness_normUp :
    let p := fun g => pkt 0x38 0 (natLe 2 g) (sealRec (natLe 8 0 ++ natLe 8 0 ++ natLe 8 9 ++ zeros 4))
    ∀ g ∈ [7, 8], inboxFind (delivered (member (some (cfg2 0 0)) 9) (p g)) 0x38 = some (19, p g) ∧
      guardPacket (delivered (member (some (cfg2 0 0)) 9) (p g)) (p g) = decide (g = 7) := by decide +kernel

/-- A verdict of a step and a kind, with its CRC. -/
def verdictRec (step kind : Nat) : List Byte := sealRec (natLe 8 step ++ natLe 4 kind ++ zeros 16)
/-- The module with a verdict delivered, and the steps abandoned and the verdicts kept as given. -/
def told (kind : Nat) (gone : List Nat) (kept : List (List Byte)) : Dev :=
  delivered { member (some (cfg2 0 0)) 9 with
    guard := { (member (some (cfg2 0 0)) 9).guard with abandoned := gone, verdicts := kept } }
    (pkt 0x39 0 (natLe 2 7) (verdictRec 9 kind))

theorem witness_verdictArrives :
    ∀ k ∈ [0, 2],
      inboxFind (told k [] []) 0x39 = some (19, pkt 0x39 0 (natLe 2 7) (verdictRec 9 k)) ∧
      guardPacket (told k [] []) (pkt 0x39 0 (natLe 2 7) (verdictRec 9 k)) = true ∧
      vdStep ((verdictRec 9 k).take 32) = 9 ∧ vdKind ((verdictRec 9 k).take 32) = k ∧
      (told k [] []).guard.abandoned.contains 9 = false ∧ verdictFor (told k [] []) 9 = none ∧
      (told k [] []).guard.cfg = some (cfg2 0 0) ∧
      verdictFor (told k [] [verdictRec 9 k]) 9 = some ((verdictRec 9 k).take 32) ∧
      (∀ w ∈ verdictFor (told k [] [verdictRec 9 1]) 9, w ≠ (verdictRec 9 k).take 32) ∧
      (verdictFor (told k [] [verdictRec 9 1]) 9).isSome = true ∧
      guardPacket (told k [] []) (pkt 0x39 0 (natLe 2 8) (verdictRec 9 k)) = false ∧
      (told k [9] []).guard.abandoned.contains 9 = true := by decide +kernel

/-- DC_VERDICT_WAIT of a step. -/
def waitCmd (step : Nat) (begun : Bool) : Running := disp 0x31 0 (natLe 8 step) begun
/-- Module 1 with that command, or with a request for the verdict of step 9, and the verdicts kept. -/
def asking (r : Running) (kept : List (List Byte)) : Dev :=
  delivered { running (member (some (cfg2 0 0)) 9) r with
    guard := { (member (some (cfg2 0 0)) 9).guard with verdicts := kept } } (pkt 0x3A 0 (natLe 4 7 ++ natLe 8 9) [])

theorem witness_verdictWaits :
    (∀ step ∈ [8, 9, 10], fresh (asking (waitCmd step false) []) 255 (· == 0x31) =
      some (queueOf 0 [] [waitCmd step false], waitCmd step false)) ∧
    (asking (waitCmd 9 false) []).verLastStep.toNat = 8 ∧ verdictFor (asking (waitCmd 8 false) []) 8 = none ∧
    verdictFor (asking (waitCmd 9 false) [verdictRec 9 0]) 9 = some (verdictRec 9 0) ∧
    verdictMissing (asking (waitCmd 9 false) []) = true ∧ guardParent (asking (waitCmd 9 false) []) (cfg2 0 0) = some 0 ∧
    guardParent { asking (waitCmd 9 false) [] with pow := awake.pow } (cfg2 0 0) = none ∧
    (guardMod (asking (waitCmd 9 false) []) (fun g => { g with late := true })).guard.late = true ∧
    (asking (waitCmd 9 false) []).guard.late = false ∧ (asking (waitCmd 9 false) []).int.vector = 0xFFFF ∧
    ({ awake with int := { Integrity.reset with vector := 0 } }).int.vector ≠ 0xFFFF ∧
    inboxFind (asking (waitCmd 9 false) []) 0x3A = some (19, pkt 0x3A 0 (natLe 4 7 ++ natLe 8 9) []) ∧
    ([] : List (List Byte)).find? (fun r => vdStep r == 9) = none ∧
    Awaits (asking (waitCmd 9 true) []) 255 (queueOf 0 [] [waitCmd 9 true]) (waitCmd 9 true) verdictWaits := by
  unfold Awaits; decide +kernel

/-! ### Collectives -/

/-- A row of 64 FP32 elements, and one of 4 FP32 elements, with their CRC. -/
def tdColl : List Byte := (tdRec 0x8000004000 (128 + 7 * 8192) [64] [1]).take 124 ++ natLe 4 2300112717
/-- A tensor of 4 by 1 FP32 elements, with its CRC. -/
def tdA2a : List Byte := (tdRec 0x8000004000 (256 + 7 * 8192) [4, 1] [1, 4]).take 124 ++ natLe 4 1412362324
/-- DC_COLL on channel 15 and group 63. -/
def coll (op n q dst src cnt : Nat) : Running :=
  disp 0x38 0 (natLe 1 op ++ natLe 1 15 ++ zeros 2 ++ natLe 2 63 ++ zeros 2 ++ natLe 8 n ++ natLe 8 q ++ natLe 8 dst ++ natLe 8 src ++
    (if op = 2 then natLe 8 (2 ^ 64 - 1) else zeros 8) ++ zeros 16 ++ natLe 8 cnt ++ zeros 40) false
/-- The module alone in group 63, with both descriptors in memory and `c` as the one send count. -/
def collDev (c : Nat) (r : Running) : Dev :=
  let d := { awake with groups := [(63, some ⟨0, 0, 0⟩)], collAreas := [(15, (0, 64))] }
  running { d with mem := cellsAt 0x8000001000 tdColl ++ cellsAt 0x8000001080 tdA2a ++ cellsAt 0x8000002000 (natLe 4 c) } r
/-- A command of each operation that passes the checks. -/
def collOf (op : Nat) : Running :=
  coll op (if op ≤ 2 then 64 else if op = 3 then 1 else 0) (if op ≤ 2 then 64 else 0)
    (if op ≤ 2 then 0x8000001000 else if op = 3 then 0x8000001080 else 0) (if op = 3 then 0x8000001080 else 0)
    (if op = 3 then 0x8000002000 else 0)
/-- The command with the records that it keeps. -/
def collMine (c : Nat) (r : Running) : Running := cmdOwn (collDev c r) r (clRecs r.cmd.body)
/-- The device that holds them, and what the check of their codes gives after `rr` failed reads of the first. -/
def collHeld (c : Nat) (r : Running) : Dev := cmdHold (collDev c r) 255 r (clRecs r.cmd.body)
def collJudge (c rr : Nat) (r : Running) : Dev × Bool := collRead Otp.reset (collHeld c r) (collMine c r) rr
/-- The device once the command has begun. -/
def collBegun (c : Nat) (r : Running) : Dev :=
  runMod (collJudge c 0 r).1 255 5 (fun r => { r with started := true, work := [2] })
/-- The channel that it opens. -/
def collChan (c op : Nat) : Chan :=
  chan0 255 5 0 ⟨0, 0, 0⟩ (collOf op).cmd.body (clDst (collBegun c (collOf op)) (collMine c (collOf op)))
    (clSrc (collBegun c (collOf op)) (collMine c (collOf op)))

/-- Each operation that its form passes with its group and fails without; its records are at hand, and its checks pass. -/
theorem witness_collectivesOpen :
    ∀ op ∈ [1, 2, 3, 4],
      let r := collOf op
      let d := collDev 1 r
      (qGet d 255 = some (queueOf 0 [] [r]) ∧ (queueOf 0 [] [r]).running.find? (fun r => (r.cmd.op == 0x38 &&
        (if op = 1 then (fun op => op != 2 && op != 3 && op != 4) else (· == op)) (clOp r.cmd.body) && !collAtWork r) &&
        r.final.isNone && r.remote == []) = some r) ∧
      smGet none d.groups (fld r.cmd.body 4 2) = some ⟨0, 0, 0⟩ ∧
      collForm d r.cmd.body (some ⟨0, 0, 0⟩) = stOk ∧ collForm d r.cmd.body none = stCollGroup ∧
      recStatus d 0 (clRecs r.cmd.body) = stOk ∧ gaMissing (collHeld 1 r) (collMine 1 r).rbuf (clRecs r.cmd.body) = [] := by
  decide +kernel
theorem witness_collectivesPass :
    ∀ op ∈ [1, 2, 3, 4],
      (collJudge 1 0 (collOf op)).2 = true ∧ (op = 3 → (collJudge 1 4 (collOf op)).2 = false) ∧
      collStatus (collBegun 1 (collOf op)) 0 (collMine 1 (collOf op)) ⟨0, 0, 0⟩ = stOk ∧
      collBar (collBegun 1 (collOf op)) (collChan 1 op) = none := by decide +kernel
/-- The descriptor of an all-to-all does not fit a gather. -/
theorem witness_collectivesShape :
    let r := coll 2 64 64 0x8000001080 0 0
    collForm (collDev 1 r) r.cmd.body (some ⟨0, 0, 0⟩) = stOk ∧ (collJudge 1 0 r).2 = true ∧
    collStatus (collBegun 1 r) 0 (collMine 1 r) ⟨0, 0, 0⟩ = stCollShape := by decide +kernel

/-- A send count of one block fits, a greater one does not. -/
theorem witness_alltoall :
    let r := collOf 3
    let counts := a2aCounts r.cmd.body 1
    let keeps := fun c => cmdOwn (collBegun c r) (collMine c r) counts
    let held := fun c => cmdHold (collBegun c r) 255 (collMine c r) counts
    let cnt := fun c => a2aCount (held c) (keeps c).rbuf r.cmd.body
    chP (collChan 1 3) = 1 ∧ (∀ c ∈ [1, 2], gaMissing (held c) (keeps c).rbuf counts = []) ∧
    (¬∃ i < 1, clN r.cmd.body < cnt 1 i) ∧ (∃ i < 1, clN r.cmd.body < cnt 2 i) ∧
    collBar (held 1) (collChan 1 3) = none ∧ gaMissing (held 1) (keeps 1).rbuf (a2aNeeds (collChan 1 3) (cnt 1)) = [] := by
  decide +kernel

/-- A packet of the operation that channel 15 runs, of a later and of an earlier one. -/
def rsPkt (seq : Nat) : Pkt := pkt 0x20 3 (zeros 4 ++ natLe 2 seq ++ [15, 1]) (zeros 64)
/-- Channel 15 runs operation `op`; its table as given, and request 3 of its own outstanding. -/
def chanDev (op : Nat) (full : Bool) (p : Pkt) (r : Req) : Dev :=
  let c := { collChan 1 op with opseq := 7, own := if full then 32768 else 0 }
  delivered (chSet (asked (collDev 1 (collOf op)) r) 15 (some c)) p
/-- A request of the channel. -/
def chanReq (kind : Nat) (waiting : Bool) : Req := ⟨pkt kind 3 [] [], .chan 15, 0, 0, waiting⟩

theorem witness_chunks :
    (∀ x ∈ [(7, 0), (8, 1), (6, 2), (7 + 32767, 1), (7 + 32768, 2)],
      inboxFind (chanDev 1 false (rsPkt x.1) (chanReq 0x20 false)) 0x20 = some (19, rsPkt x.1) ∧
      chMatch (chanDev 1 false (rsPkt x.1) (chanReq 0x20 false)) 15 1 (fld (rsPkt x.1).body 4 2) = x.2) ∧
    (chGet (chanDev 1 false (rsPkt 7) (chanReq 0x20 false)) 15).isSome ∧
    (let d := chanDev 1 false (rsPkt 7) (chanReq 0x20 false)
     let c := { collChan 1 1 with opseq := 7, closed := [(0, true)] }
     let took := (rsChunks c (rsPkt 7)).foldl (rsTake 15 0) (takePkt (chSet d 15 (some c)) 19 (rsPkt 7), 0, false)
     boxIndex d 0 0 0 = some 0 ∧ took.2 = (1, false) ∧
     (chGet (chMod took.1 15 (fun c => { c with dup := c.dup + took.2.1 })) 15).isSome = true) ∧
    inboxFind (chanDev 1 false (pkt 0x21 3 [] []) (chanReq 0x20 false)) 0x21 = some (19, pkt 0x21 3 [] []) ∧
    (∀ w ∈ [true, false], reqChan (chanDev 1 false (rsPkt 7) (chanReq 0x20 w)) 3 = some (15, chanReq 0x20 w)) := by decide +kernel

/-- Packets of the other operations, and versioned reads of a committed and of a later version. -/
theorem witness_collectivePackets :
    (∀ ver ∈ [4, 5], inboxFind (delivered (at4 0) (pkt 0x12 3 [] (natLe 8 ver ++ zeros 8))) 0x12 =
      some (19, pkt 0x12 3 [] (natLe 8 ver ++ zeros 8)) ∧ fld (natLe 8 ver ++ zeros 8) 0 8 = ver) ∧ (at4 0).verCommitted.toNat = 4 ∧
    (let r : Nat → ShardReq := fun ver => ⟨none, 0, 3, 0, ver, 0, 4, false⟩
     [r 5, r 4].find? (fun r => decide (r.version ≤ (at4 0).verCommitted.toNat)) = some (r 4) ∧
     ([r 5, r 4].filter (fun r => decide ((at4 0).verCommitted.toNat < r.version)))[0]? = some (r 5)) ∧
    (∀ k ∈ [0x13, 0x29], reqChan (chanDev (if k = 0x13 then 2 else 3) false (pkt k 3 [] []) (chanReq 0x12 false)) 3 =
        some (15, chanReq 0x12 false) ∧
      inboxFind (chanDev 3 false (pkt k 3 [] []) (chanReq 0x12 false)) k = some (19, pkt k 3 [] [])) ∧
    (∀ all ∈ [1, 2],
     let p := { pkt 0x28 3 (zeros 4 ++ natLe 2 7 ++ [15, 0] ++ natLe 4 all) (zeros 64) with len := 1 }
     let d := chanDev 3 false p (chanReq 0x28 false)
     boxIndex d 0 0 p.src = some 0 ∧ inboxFind d 0x28 = some (19, p) ∧ fld p.body 6 1 % 16 = 15 ∧
     (chGet d 15).map (fun c => a2aForm c p) = some (decide (all = 1)) ∧ chMatch d 15 3 (fld p.body 4 2) = 0) ∧
    (∀ k ∈ [0x40, 0x41],
      let p := pkt k 3 (natLe 2 63 ++ natLe 2 7 ++ [15]) []
      let d := chanDev 4 false p (chanReq 0x28 false)
      inboxFind d k = some (19, p) ∧ fld p.body 4 1 % 16 = 15 ∧ (chGet d 15).isSome ∧ chMatch d 15 4 (fld p.body 2 2) = 0) := by
  decide +kernel

/-- Deterministic mode, with the contributions `got` of a child to chunk 99 in the table. -/
def fullChan (got : List (Nat × List Nat)) : Chan :=
  { chan0 255 5 0 ⟨0, 0, 0⟩ (natLe 1 1) [] [] with opseq := 7, table := [⟨99, got⟩] }
/-- The device with that channel. -/
def fullDev (got : List (Nat × List Nat)) : Dev :=
  { awake with chans := [(15, some (fullChan got))], fab := { Fabric.reset with det := true } }

theorem test_fullRoom (got : List (Nat × List Nat)) (n : got.length = 28672) (h : got.head? = some (1, [])) :
    rsRoom (fullDev got) (fullChan got) 0 = false := by
  have m : chMe (fullDev got) (fullChan got) = 0 := by
    show (boxIndex (fullDev []) 0 0 (ownCoord (fullDev []))).getD 0 = 0
    decide +kernel
  have c : (rsCount (fullDev got) (fun _ _ => true)) = got.length := by
    simp [rsCount, rsTakes, fullDev, fullChan, chan0]
  have o : rsUsedOwn (fullDev got) = 0 := by
    have q : (fun e : RsEntry => (e.got.head?.map (·.1)) == some (chMe (fullDev got) (fullChan got))) ⟨99, got⟩ = false := by
      simp [m, h]
    have f : List.filter (fun e : RsEntry => (e.got.head?.map (·.1)) == some (chMe (fullDev got) (fullChan got))) [⟨99, got⟩] = [] :=
      List.filter_cons_of_neg (Bool.eq_false_iff.mp q)
    show List.foldl _ _ (List.map _ (List.filter (fun e : RsEntry =>
      (e.got.head?.map (·.1)) == some (chMe (fullDev got) (fullChan got))) [⟨99, got⟩] ++ [])) = 0
    rw [f]
    rfl
  simp [rsRoom, rsChildRoom, rsUsed, c, o, n, fullChan, chan0]

/-- Every entry that a child may take is in use: 28,672 contributions. -/
theorem witness_tableFull :
    (rsTake 15 0 (fullDev (List.replicate 28672 (1, [])), 0, false) (0, [])).2.2 = true := by
  have e : ∀ got : List (Nat × List Nat), got.length = 28672 → got.head? = some (1, []) →
      (rsTake 15 0 (fullDev got, 0, false) (0, [])).2.2 = true := fun got n h => by
    have g : chGet (fullDev got) 15 = some (fullChan got) := rfl
    have u : rsDup (fullChan got) 0 0 = false := rfl
    simp [rsTake, g, test_fullRoom got n h, u]
  exact e _ List.length_replicate (by rw [List.head?_replicate]; rfl)

/-! ### Command queues -/

/-- Sixteen bytes of header and a body, one unit, with its check (R145): sequence number 0, opcode 0. -/
def unit0b : List Byte :=
  let h := zeros 12
  h ++ natLe 4 (crc32c (h ++ zeros 48)) ++ zeros 48
/-- A queue of function `fn` with units to fetch up to producer index 1. -/
def ringed (fn refetch : Nat) (backoff : Bool) : Queue :=
  { queueOf fn [] [] with bell := some (1, 0), refetch := refetch, backoff := backoff, cqIdx := 3 }
/-- The module with virtual function 7 enabled, and that queue. -/
def ringDev (v : Queue) : Dev :=
  qSet { awake with host := { awake.host with vfEnable := true, numVfs := 7, mse := [0, 7] } } 255 v

/-- Doorbells of the physical and of the last virtual function: to the whole ring, one beyond it, and completion doorbells of
one record and of all. -/
theorem witness_doorbells :
    ∀ fn ∈ [0, 7],
      qGet (ringDev (ringed fn 0 false)) 255 = some (ringed fn 0 false) ∧ claimed (ringDev (ringed fn 0 false)) fn = true ∧
      (ringed fn 0 false).owner = fn ∧ bits (0xFF00001000000010#64).toNat 56 8 = 255 ∧
      (∀ x ∈ [(2, true), (16, true), (17, false), (1, true)],
        bellDist (ringed fn 0 false) (BitVec.ofNat 24 x.1) = x.1 ∧ decide (x.1 ≤ 2 ^ (ringed fn 0 false).k) = x.2) ∧
      bellDist (ringed fn 0 false) 1 < 2 ∧ (ringed fn 0 false).run = 1 ∧
      (∀ c ∈ [1, 3], 1 ≤ subMod (2 ^ 24) c (ringed fn 0 false).cqCons.toNat ∧
        subMod (2 ^ 24) c (ringed fn 0 false).cqCons.toNat ≤ subMod (2 ^ 24) (ringed fn 0 false).cqIdx.toNat 0) := by decide +kernel

theorem witness_fetches :
    awake.pow.phase = .hostReady ∧
    (∀ n ∈ [0, 7, 8], fetchable (ringed 0 n false) = true ∧ cqFree (ringed 0 n false) ≠ 0 ∧
      fetchOk (ringed 0 n false) unit0b = true ∧ fetchOk (ringed 0 n false) (zeros 64) = false) ∧
    (ringed 0 1 true).run = 1 ∧ (ringed 0 1 true).backoff = true := by decide +kernel

/-- R144: at the same producer index a doorbell is no further. -/
theorem test_doorbell_same :
    (qGet (settle (doorbellDev 0 0xFF00000100000009#64) (on (ringDev (ringed 0 0 false)))).dev 255).map (·.bell) =
      some (some (1, 0)) := by decide +kernel

/-- A DC_NOP with a wait word. -/
def nop (wait : Nat) : Cmd := { cmd 0x00 [] with wait := wait }
/-- Queue 255 with that command parsed, binding 7 a hub tally of value 5. -/
def parsedDev (wait : Nat) (sat : Bool) : Dev :=
  qSet { awake with tallies := [(2048, ⟨5, sat⟩)] } 255
    { queueOf 0 [nop wait] [] with binds := List.replicate 8 0x8000 }

/-- No wait, a wait that is met, one that is not, and one on a saturated tally. -/
theorem witness_dispatch :
    ∀ x ∈ [(0, false, 1), (0x7805, false, 1), (0x7806, false, 0), (0x7805, true, 2)],
      let v := { queueOf 0 [nop x.1] [] with binds := List.replicate 8 0x8000 }
      qGet (parsedDev x.1 x.2.1) 255 = some v ∧ v.parsed = [nop x.1] ∧ v.run = 1 ∧
      nextQueue (parsedDev x.1 x.2.1) = (if x.2.2 = 0 then none else some 255) ∧
      cmdWait (parsedDev x.1 x.2.1) v (nop x.1) = x.2.2 := by decide +kernel

/-- A bind and a switch that the front end serves next, and a bind whose slot is in use. -/
theorem witness_bindsWait :
    (∀ op ∈ [0x20, 0x22],
      let v := queueOf 0 [cmd op [1]] []
      nextQueue (qSet awake 255 v) = some 255 ∧ cmdWait (qSet awake 255 v) v (cmd op [1]) = 1) ∧
    (let v := queueOf 0 [cmd 0x20 [1]] []
     let d := { qSet awake 255 v with bindsInUse := [(1, 1)] }
     v.run = 1 ∧ cmdWait d v (cmd 0x20 [1]) = 1 ∧ bindReady d v (cmd 0x20 [1]) = false) ∧
    (nop 0).op ≠ 0x20 ∧ (nop 0).op ≠ 0x22 := by decide +kernel

/-- DC_INLINE of 32 bytes to `a`. -/
def inlineCmd (a : Nat) : Running := disp 0x03 0 (natLe 8 a ++ natLe 2 32 ++ zeros 38) false
theorem witness_inline :
    fresh (running awake (disp 0x00 0 [] false)) 255 (· == 0x00) =
      some (queueOf 0 [] [disp 0x00 0 [] false], disp 0x00 0 [] false) ∧
    (∀ fn ∈ [0, 7], ∀ a ∈ [0x8000000000, 0x7FFFFE1],
      fresh (qSet awake 255 (queueOf fn [] [inlineCmd a])) 255 (· == 0x03) = some (queueOf fn [] [inlineCmd a], inlineCmd a)) ∧
    windowOk awake 0 0x8000000000 32 true = true ∧ windowOk awake 7 0x8000000000 32 true = false ∧
    ownMapped awake 0x8000000000 32 = true ∧ ownMapped awake 0x10000000 32 = false := by decide +kernel

/-- A command whose status is final, with a write that is outstanding or none. -/
def finalCmd (st unacked : Nat) : Running := { disp 0x00 0 [] true with final := some st, unacked := unacked }
theorem witness_done :
    ∀ x ∈ [(stOk, 0, true), (stOk, 1, false), (stRrWindow, 1, false)],
      qGet (running awake (finalCmd x.1 x.2.1)) 255 = some (queueOf 0 [] [finalCmd x.1 x.2.1]) ∧
      runGet (queueOf 0 [] [finalCmd x.1 x.2.1]) (5 : W32).toNat = some (finalCmd x.1 x.2.1) ∧
      (finalCmd x.1 x.2.1).final ≠ none ∧ runDone (finalCmd x.1 x.2.1) = x.2.2 ∧ (finalCmd x.1 x.2.1).recorded = false ∧
      bits (finalCmd x.1 x.2.1).cmd.ctl 2 2 = 0 := by decide +kernel

/-! ### Layout commands and DC_COPY -/

/-- A descriptor with its CRC. -/
def tdSealed (base ctl : Nat) (ext str : List Nat) (bld : Nat) : List Byte :=
  sealRec ((tdRec base ctl ext str).take 112 ++ natLe 8 bld ++ zeros 4)
/-- Two tensors of 2 by 2, one with a block list, its dense tensor, its block-list descriptor (the count is read), INT32. -/
def lyMem : List (Nat × List Byte) := [
  (0x8000001000, tdSealed 0x8000004000 (256 + 7 * 8192) [2, 2] [1, 2] 0),
  (0x8000001080, tdSealed 0x8000005000 (256 + 7 * 8192) [2, 2] [1, 2] 0),
  (0x8000001100, tdSealed 0x8000004000 (128 + 4096 + 7 * 8192) [4] [1] 0x8000001200),
  (0x8000001180, tdSealed 0x8000005000 (256 + 7 * 8192) [2, 1] [1, 2] 0),
  (0x8000001200, sealRec (natLe 8 0x8000006000 ++ natLe 8 0x8000006100 ++ natLe 4 1 ++ natLe 4 1 ++ natLe 2 2 ++ zeros 34)),
  (0x8000001280, tdSealed 0x8000004000 (4 + 128 + 7 * 8192) [2] [1] 0),
  (0x8000001300, tdSealed 0x8000004000 (128 + 4096 + 7 * 8192) [4] [1] 0x20000000),
  (0x8000001380, sealRec (natLe 8 0x20000000 ++ zeros 8 ++ natLe 4 1 ++ natLe 4 1 ++ natLe 2 2 ++ zeros 34))]
/-- A layout command with its source and destination. -/
def lyCmd (op src dst : Nat) : Running :=
  disp 0x10 (ek 5 7) (natLe 1 op ++ zeros 7 ++ natLe 8 src ++ natLe 8 dst) true
/-- A good source and destination for an operation. -/
def lyGood (op : Nat) : Running :=
  lyCmd op (if op = 5 then 0 else if op = 2 then 0x8000001100 else if op = 3 then 0x8000001180 else if op = 4 then 0x8000001280 else 0x8000001000)
    (if op = 2 then 0x8000001180 else if op = 3 then 0x8000001100 else if op = 4 then 0x8000001200 else 0x8000001080)
/-- Queue 255 with a layout command, and the records that it names in memory. -/
def lyDev (r : Running) : Dev :=
  let src := fld r.cmd.body 8 8
  let dst := fld r.cmd.body 16 8
  let used := [src, dst] ++ (if src = 0x8000001100 ∨ dst = 0x8000001100 then [0x8000001200] else [])
  running { awake with mem := (lyMem.filter (fun x => used.contains x.1)).flatMap (fun x => cellsAt x.1 x.2) } r
/-- The records of a command read, with the copy that it keeps of them. -/
def readNow (x : Dev × Running) (recs : List (Nat × Nat)) : Dev × Running := (cmdHold x.1 255 x.2 recs, cmdOwn x.1 x.2 recs)
/-- They are at hand. -/
def hereNow (x : Dev × Running) (recs : List (Nat × Nat)) : Bool := gaMissing x.1 x.2.rbuf recs == []
/-- What each stage of a command finds: the windows and addresses of its descriptors and of its block-list descriptor, those
being at hand; the CRCs after `rr` failed reads; the checks; and the count, the list and the data. -/
def lyStages (op rr : Nat) (r : Running) : (Nat × Bool × Nat × Bool) × Bool × (Nat × Bool × Nat × Bool) :=
  let d := lyDev r
  let x1 := readNow (d, r) (lyRecs r op)
  let bld := lyBldRec x1.1 x1.2 op
  let x2 := readNow x1 bld
  let rd := lyRead Otp.reset x2.1 x2.2 op rr
  let d3 := cmdJudged rd.1 255 x2.2
  let blk := lyBlk d3 x2.2 op
  let a := lyArgs d3 x2.2 op
  let x4 := readNow (d3, x2.2) (lyCnt a op blk)
  let list := lyListReads x4.1 x4.2 a op blk
  let x5 := readNow x4 list
  ((recStatus d 0 (lyRecs r op), hereNow x1 (lyRecs r op), recStatus x1.1 0 bld, hereNow x2 bld), rd.2,
   (lyChecks d3 0 x2.2 a blk, hereNow x4 (lyCnt a op blk), lyListChecks x4.1 0 x4.2 a op blk,
    hereNow x5 list && hereNow x5 (lyReads x5.1 x5.2 a op)))
/-- A command whose descriptors have passed their CRCs. -/
def judged (r : Running) : Running := { r with work := [1] }

theorem witness_layout :
    ∀ op ∈ [1, 2, 3, 4, 5], Awaits (lyDev (lyGood op)) 255 (queueOf 0 [] [lyGood op]) (lyGood op) (lyIs op) := by
  unfold Awaits; decide +kernel

/-- An LY_LIST that passes every stage. -/
theorem witness_layoutRuns :
    lyStages 4 0 (lyGood 4) = ((stOk, true, stOk, true), true, (stOk, true, stOk, true)) := by decide +kernel

/-- One whose descriptors lie nowhere; one whose block-list descriptor does; a CRC that stays wrong; a
misaligned descriptor; a list that lies nowhere. -/
theorem witness_layoutFails :
    (lyStages 1 0 (lyCmd 1 0x20000000 0x20000000)).1.1 = stAddrUnmapped ∧
    (lyStages 2 0 (lyCmd 2 0x8000001300 0x8000001180)).1 = (stOk, true, stAddrUnmapped, true) ∧
    (lyStages 5 4 (lyGood 5)).2.1 = false ∧
    (lyStages 5 0 (judged (lyCmd 5 0 0x8000001001))).2.2.1 = stTdAlign ∧
    (lyStages 4 0 (judged (lyCmd 4 0x8000001280 0x8000001380))).2.2 = (stOk, true, stAddrUnmapped, true) := by decide +kernel

/-- DC_COPY from the first tensor to the second. -/
def copyCmd (dst : Nat) : Running := disp 0x02 (ek 5 7) (zeros 8 ++ natLe 8 0x8000001000 ++ natLe 8 dst) true
/-- What its stages find: as `lyStages`. -/
def copyStages (rr dst : Nat) (work : List Nat) : (Nat × Bool) × Bool × (Nat × Bool) :=
  let r := { copyCmd dst with work := work }
  let d := lyDev r
  let recs := [(0x8000001000, 128), (dst, 128)]
  let d1 := cmdHold d 255 r recs
  let r1 := cmdOwn d r recs
  let rd := if r1.work = [1] then (d1, true) else recsRead Otp.reset d1 r1 recs 0 rr
  let d2 := cmdJudged rd.1 255 r1
  let src := tdParse (recAt d2 r1 0x8000001000 128)
  ((recStatus d 0 recs, gaMissing d1 r1.rbuf recs == []), rd.2,
   (copyChecks d2 0 r1 src (tdParse (recAt d2 r1 dst 128)), gaMissing d2 r1.rbuf (tdRanges src (tdAll src)) == []))
/-- A copy that passes every stage; a record that lies nowhere; a CRC that fails; a misaligned record. -/
theorem witness_copy :
    Awaits (lyDev (copyCmd 0x8000001080)) 255 (queueOf 0 [] [copyCmd 0x8000001080]) (copyCmd 0x8000001080) (fun r => r.cmd.op == 0x02) ∧
    copyStages 0 0x8000001080 [] = ((stOk, true), true, (stOk, true)) ∧ (copyStages 0 0x20000000 []).1.1 = stAddrUnmapped ∧
    (copyStages 4 0x8000001080 []).2.1 = false ∧ (copyStages 0 0x8000001081 [1]).2.2.1 = stTdAlign := by
  unfold Awaits; decide +kernel

/-! ### The passage plan -/

/-- DC_PLAN of `n` entries with a list, expectations and a result record. -/
def planCmd (n list exps res : Nat) : Running :=
  disp 0x05 (ek 6 31) (zeros 4 ++ natLe 4 n ++ natLe 8 list ++ (List.replicate 8 0xFFFF).flatMap (natLe 2) ++ natLe 8 exps ++ natLe 8 res) false
/-- Queue 255 of function `fn` with it. -/
def planDev (fn : Nat) (r : Running) : Dev := qSet awake 255 (queueOf fn [] [r])

/-- A plan that begins, with and without expectations and a result; no entry, too many, a misaligned list, with a result that
is told and one that is not; a list outside the windows of function 7; a list at an unmapped address. -/
theorem witness_planStarts :
    ∀ x ∈ [(0, planCmd 1 0x8000001000 0 0, true, true, true, false),
        (0, planCmd (2 ^ 24) 0x8000001000 0x8000002000 0x8000002020, true, true, true, true),
        (0, planCmd 0 0x8000001000 0 0, false, true, true, false), (0, planCmd (2 ^ 24 + 1) 0x8000001000 0 0x8000002020, false, true, true, true),
        (0, planCmd 1 0x8000001010 0 0, false, true, true, false), (7, planCmd 1 0x8000001000 0 0x8000002020, true, false, true, false),
        (0, planCmd 1 0x20000000 0 0x8000002020, true, true, false, true)],
      let b := x.2.1.cmd.body
      let res := fld b 40 8
      let d := runMod (planDev x.1 x.2.1) 255 5 (fun r => { r with started := true })
      fresh (planDev x.1 x.2.1) 255 (· == 0x05) = some (queueOf x.1 [] [x.2.1], x.2.1) ∧ planParam d b = x.2.2.1 ∧
      (windowOk d x.1 (fld b 8 8) (32 * fld b 4 4) false && (fld b 32 8 == 0 || windowOk d x.1 (fld b 32 8) 32 false) &&
        (fld b 40 8 == 0 || windowOk d x.1 (fld b 40 8) 32 true)) = x.2.2.2.1 ∧
      (ownMapped d (fld b 8 8) (32 * fld b 4 4) && (fld b 32 8 == 0 || ownMapped d (fld b 32 8) 32) &&
        (fld b 40 8 == 0 || ownMapped d (fld b 40 8) 32)) = x.2.2.2.2.1 ∧
      ((res ≠ 0 ∧ isMul res 32 = true ∧ windowOk d x.1 res 32 true = true ∧ ownMapped d res 32 = true) ↔ x.2.2.2.2.2 = true) := by
  decide +kernel

/-- An object of two pages with a cache of two slots, for plans, in a tier. -/
def planned (tier base : Nat) : MemObj :=
  ⟨tier + 32 + 128, 2, 8192, base, 0x8000200000, false, [], [], [], false, 0, 0, [], []⟩
/-- A plan entry with its CRC: kind, signal, object, page or word, slot, count, and the second part. -/
def entryRec (kind sig obj w slot n : Nat) (hi : List Byte) : List Byte :=
  let b := natLe 1 kind ++ natLe 1 sig ++ natLe 2 obj ++ natLe 4 w ++ natLe 4 slot ++ natLe 4 n ++ hi
  b ++ natLe 4 (crc32c b)
/-- A plan of three entries on XFE 31 with tally binding 7 hub tally 0 and expectation 4 there. -/
def plan3 : Plan :=
  ⟨255, 0, 0x8000001000, 3, List.replicate 7 0xFFFF ++ [0x8000], [0, 0, 0, 0, 0, 0, 0, 4], 0, 0, 0, 0, 0, [], [], [], 0, [], 0, [], [], []⟩
/-- The module with that plan, objects 0 and 4095 of a tier and that entry next. -/
def planAt (tier base : Nat) (p : Plan) (t : TallyV) (e : List Byte) : Dev :=
  planSet { awake with mem := cellsAt 0x8000001000 e, tallies := [(2048, t)],
                       objs := [(0, some (planned tier base)), (4095, some (planned tier base))] } 31 p

/-- The copying part of an entry: destination offset and object. -/
def copyHi (dst obj : Nat) : List Byte := natLe 8 dst ++ natLe 2 obj ++ zeros 2
/-- One entry of each kind: the whole cache of the last object, and a copy of its last bytes to object 0. -/
def entryOf (kind : Nat) : List Byte :=
  if kind = 5 then natLe 1 5 ++ natLe 1 0 ++ natLe 2 4095 ++ natLe 4 64 ++ natLe 8 8128 ++ copyHi 0 0 ++
      natLe 4 (crc32c (natLe 1 5 ++ natLe 1 0 ++ natLe 2 4095 ++ natLe 4 64 ++ natLe 8 8128 ++ copyHi 0 0))
  else entryRec kind 0 4095 0 0 2 (zeros 12)

theorem witness_planMoves :
    ∀ k ∈ [1, 2, 3, 4, 5],
      let d := planAt 0 0x8000100000 plan3 tally0 (entryOf k)
      AtEntry d 31 plan3 (entryOf k) ∧ entryBar d (entryOf k) = none ∧
      objGet d (fld (entryOf k) 2 2) = some (planned 0 0x8000100000) ∧ homeOwn d (planned 0 0x8000100000) = true ∧
      fld (entryOf k) 0 1 = k ∧
      (k = 5 → objGet d (fld (entryOf k) 24 2) = some (planned 0 0x8000100000) ∧
        isOwn d (homeAddr d (planned 0 0x8000100000) (fld (entryOf k) 8 8)) = true ∧
        isOwn d (homeAddr d (planned 0 0x8000100000) (fld (entryOf k) 16 8)) = true ∧ plan3.remote = [] ∧ plan3.hostWait = [] ∧
        plan3.flush = 0) := by
  unfold AtEntry; decide +kernel

/-- AT_LEAST_ADV by one more than the expectation on binding 7. -/
def waitRec : List Byte := entryRec 6 0 0 (bits 3 0 2 * 2 ^ 30 + 7 * 2 ^ 27 + 1) 0 0 (zeros 12)
/-- A signal of 2^24 - 1 on binding 7. -/
def signalRec : List Byte := entryRec 7 0x87 0 (2 ^ 24 - 1) 0 0 (zeros 12)

theorem witness_planWaits :
    (∀ x ∈ [(⟨5, false⟩, 1), (⟨4, false⟩, 0), (⟨5, true⟩, 2)],
      AtEntry (planAt 0 0x8000100000 plan3 x.1 waitRec) 31 plan3 waitRec ∧ fld waitRec 0 1 = 6 ∧
      planTest (tallyLook (planSet (planAt 0 0x8000100000 plan3 x.1 waitRec) 31 { plan3 with entry := waitRec, phase := 1 })
        (nth plan3.tallies (bits (fld waitRec 4 4) 27 3))) { plan3 with waitRes := 0 } waitRec = x.2 ∧
      (let p := { plan3 with entry := waitRec, phase := 3 }
       planGet (planAt 0 0x8000100000 p x.1 []) 31 = some p ∧
       planTest (planAt 0 0x8000100000 p x.1 []) p p.entry = x.2)) ∧
    fld signalRec 0 1 = 7 ∧
    (∀ n ∈ [1, 3],
      let p := { plan3 with count := n }
      AtEntry (planAt 0 0x8000100000 p tally0 signalRec) 31 p signalRec ∧ (p.next + 1 = p.count ↔ n = 1)) := by
  unfold AtEntry; decide +kernel

/-- A home in host memory; the entries that have waited for their accesses; a FILL before and after the fetch of its first
page and after its last. -/
theorem witness_planAnswered :
    (let d := planAt 4 0x100000 plan3 tally0 (entryOf 1)
     AtEntry d 31 plan3 (entryOf 1) ∧ entryBar d (entryOf 1) = none ∧ objGet d 4095 = some (planned 4 0x100000) ∧
     homeOwn d (planned 4 0x100000) = false) ∧
    (∀ k ∈ [1, 2, 3], ∀ todo ∈ [[], [(0, 0), (1, 1)]], ∀ ph ∈ [1, 2],
      let p := { plan3 with entry := entryOf k, phase := ph, todo := todo }
      planGet (planAt 4 0x100000 p tally0 []) 31 = some p ∧ planIdle p = true ∧ fld (entryOf k) 0 1 = k) := by
  unfold AtEntry; decide +kernel
theorem witness_planPut :
    let p := { plan3 with entry := entryOf 1, phase := 2, todo := [(0, 0), (1, 1)] }
    let d := planAt 4 0x100000 p tally0 []
    (objGet (fillSlot d 31 4095 (planned 4 0x100000) 0 0 (planBytes d p (planned 4 0x100000) 0 4096)) 4095).isSome = true := by
  decide +kernel

/-! ### Integrity, the Logbook and the Ledger's timer -/

/-- GB/T 32905, appendix A.1: the digest of "abc". -/
theorem test_sm3 :
    beNat (sm3 [0x61, 0x62, 0x63]) = 0x66C7F0F462EEEDD9D1F2D46BDC10E4E24167C4875CF2F7A2297DA02B8F4BA8E0 := by decide +kernel
/-- GB/T 32918: the base point lies on the curve, and so does its double. -/
theorem test_sm2_curve :
    ∀ p ∈ [some sm2G, ecAdd (some sm2G) (some sm2G)], ∀ q ∈ p,
      q.2 * q.2 % sm2p = (q.1 * q.1 * q.1 + (sm2p - 3) * q.1 + sm2b) % sm2p := by decide +kernel

/-- DC_KAT of every test of an engine, or of its Collator, with a result record at `res`. -/
def katCmd (flags res : Nat) : Running := disp 0x40 (ek 1 31) (zeros 1 ++ natLe 1 flags ++ zeros 6 ++ natLe 8 res) false
/-- A DC_KAT; the last unit, a Collator, due; a test of which both runs fail. -/
theorem witness_kat :
    (∀ fl ∈ [1, 3], fresh (running awake (katCmd fl 0)) 255 (· == 0x40) = some (queueOf 0 [] [katCmd fl 0], katCmd fl 0)) ∧
    (let d := unitSet awake 225 ⟨1, 0, 0, 0, 0, true⟩
     (unitGet d 225).due = true ∧ engineBusy d 225 = false) ∧
    (katFind [3] [(3, 2)]).confirmed = true := by decide +kernel

/-- Flips that DZ_INT_INJECT holds strike a tally and an HRD entry with the pass (R413). -/
theorem test_scrub :
    let d := (settle (fun o d => scrubPassDev [(1, 5, 2)] o d)
      (on { awake with hrd := [(5, 1)], int := { awake.int with injects := [⟨2, 0, 2048⟩] } })).dev
    smGet tally0 d.tallies 2048 = ⟨0xFFFFFFFF, true⟩ ∧ smGet 0 d.hrd 5 = 0 ∧ d.int.injects = [] := by decide +kernel

/-- A record of a severity. -/
def rec0 (fl : Nat) : LogRec := ⟨1, fl, 0, 0, 0, 0, 0, 0, 0, 0, []⟩
/-- A specimen of `n` bytes. -/
def spec0 (n : Nat) : Specimen := ⟨0, zeros n, 0⟩
/-- Records of the least and the most severe kind; repeats; a specimen of one fragment and of two; both own addresses. -/
theorem witness_records :
    fwRuns awake = true ∧
    (∀ x ∈ [(1, true), (2, false), (3, false)], decide ((rec0 x.1).flags % 4 < 2) = x.2 ∧
      (let d := { awake with log := { awake.log with queued := [rec0 x.1], repeats := [rec0 x.1], linkUp := true } }
       fwRuns d = true ∧ d.log.queued = [rec0 x.1] ∧ d.log.repeats = [rec0 x.1])) ∧
    (∀ n ∈ [1000, 1001],
      let d := { awake with int := { awake.int with specimen := some (spec0 n) }, log := { awake.log with linkUp := true } }
      fwRuns d = true ∧ d.int.specimen = some (spec0 n) ∧ d.log.queued = [] ∧ d.log.linkUp = true ∧
      specFrags (spec0 n) = n - 999) := by decide +kernel

/-! ### Rhumb -/

/-- The module with port 19 as given and `inbox` delivered. -/
def ported (v : Port) (inbox : List (Nat × Pkt)) : Dev :=
  { awake with fab := { awake.fab with ports := [(19, v)], inbox := inbox } }
/-- A port in service on four lanes, with a packet sent under sequence 0 that has been replayed `n` times. -/
def port6 (n : Nat) : Port :=
  { port0 with state := 6, trained := true, lanes := 15, txSeq := 1, replay := [⟨0, pkt 0x02 1 [] [], n⟩] }
/-- An 8-byte tag. -/
def tagW (sq typ : Nat) : W64 := BitVec.ofNat 64 (tagWord sq 65535 typ 0 0)

/-- Each trained state; a tag with and without its check; a replay request of a packet replayed six times and seven. -/
theorem witness_links :
    (∀ st ∈ [2, 6], linkUp (ported { port6 0 with state := st } []) 19 = true) ∧
    tagOk (tagW 0 0).toNat = true ∧ tagOk (tagW 0 0 ^^^ 1#64).toNat = false ∧ tagOk (tagW 0 2).toNat = true ∧
    bits (tagW 0 2).toNat 30 2 = 2 ∧ bits (tagW 0 0).toNat 30 2 = 0 ∧ (port6 0).lanes.testBit 3 = true ∧
    (∀ x ∈ [(6, false), (7, true)],
      let d := pcAdd (portMod (takeTag (ported (port6 x.1) []) 19 (tagW 0 2).toNat) 19 replayAll) (kPort 19 + 4) 1
      (portGet d 19).replay.any (fun x => decide (8 ≤ x.replays)) = x.2) := by decide +kernel

/-- The next packet in order, one out of order; a header that passes, and one with a flipped bit. -/
theorem witness_packets :
    let h := pktHdr (pkt 0x02 1 [] [])
    let d := takeTag (ported (port6 0) []) 19 (tagW 0 0).toNat
    bits (tagW 0 0).toNat 48 16 = ((portGet d 19).rxSeq + 1) % 65536 ∧
    ¬bits (tagW 1 0).toNat 48 16 = ((portGet (takeTag (ported (port6 0) []) 19 (tagW 1 0).toNat) 19).rxSeq + 1) % 65536 ∧
    (sealOk 32 h = true ∧ h.length = 32 ∧ ([] : List Byte).length = 64 * (fld h 1 1 % 32)) ∧ sealOk 32 (h.set 3 1) = false := by
  decide +kernel

/-- A port that discards until its replay begins; a discovery record that passes its own check, and one that fails it. -/
theorem witness_replays :
    (∀ x ∈ [(false, false, false), (true, false, true), (true, true, false)],
      linkDiscards (ported { port6 0 with discard := x.1 } []) 19 x.2.1 = x.2.2) ∧
    (∀ x ∈ [(1, true), (2, false)],
      let h := pktHdr { pkt 0x60 0 [] (zeros 64) with len := 1 }
      let bs := sealRec (padTo 60 (natLe 1 1))
      let q := pktOf h (if x.2 then bs else bs.set 0 (BitVec.ofNat 8 x.1))
      kindLocal q.kind = true ∧ recordOk q = x.2 ∧ (sealOk 32 h = true ∧ h.length = 32 ∧ 64 = 64 * (fld h 1 1 % 32))) := by
  decide +kernel

/-- Below and at the threshold of 32 uncorrectable codewords. -/
theorem witness_uncorrectable :
    ∀ x ∈ [(30, false), (31, true)],
      let d := ported { port6 0 with badAt := List.replicate x.1 0 } []
      linkUp d 19 = true ∧
      (let d := linkBad (pcAdd (portMod (portMod d 19 (fun v => cwAdvance v 0)) 19 (fun v =>
          let v := cwAdvance v 1
          { v with badAt := v.badAt ++ [v.cw] })) (kPort 19 + 3) 1) 19
       decide (32 ≤ (portGet d 19).badAt.length) = x.2) := by decide +kernel

/-- A discovery record on port 19. -/
def disc (kind : Nat) (bs : List Byte) : Pkt := { pkt kind 0 [] (sealRec (padTo 60 bs)) with len := 1 }
/-- A partner's SIGHT at port 18 with an identity, and records of the other kinds. -/
def sightRec (ver : Nat) : Pkt := disc 0x60 (natLe 1 ver ++ [18, 0, 15] ++ natLe 4 (2 ^ 20 - 1) ++ natLe 8 77)
def hailRec (verdict : Nat) : Pkt := disc 0x61 (natLe 1 verdict ++ [7])
def fixRec (c : Nat) : Pkt := disc 0x62 (zeros 4 ++ natLe 4 c)
def chartRec (ring : Nat) : Pkt := disc 0x63 (natLe 1 ring ++ zeros 3 ++ natLe 4 1 ++ zeros 8 ++ natLe 8 1)

/-- Ports in the states of discovery, before and after training, with and without signal. -/
theorem witness_discovery :
    portPresent Otp.reset 19 = true ∧
    (∀ st ∈ [2, 7], (portGet (ported { port0 with state := st } []) 19).state = st) ∧
    (∀ sg ∈ [true, false], let v := portGet (ported { port0 with state := 2, signal := sg } []) 19
      v.state = 2 ∧ v.signal = sg ∧ v.trained = false) ∧
    (let v := portGet (ported { port0 with state := 8, reason := 7 } []) 19
     v.state = 8 ∧ v.reason ≠ 0) := by decide +kernel

/-- SIGHT accepted and excluded, HAIL with both verdicts, FIX of the neighbour and of another module, CHART on a leg in
CHARTING and in service, with news of its ring and of another. -/
theorem witness_records_discovery :
    (∀ x ∈ [(1, 0), (2, 1)],
      let d := ported { port0 with state := 2, trained := true } [(19, sightRec x.1)]
      inboxFind d 0x60 = some (19, sightRec x.1) ∧ recordOk (sightRec x.1) = true ∧ (portGet d 19).state = 2 ∧
      (portGet d 19).trained = true ∧ hailReason d 19 (sightRec x.1).payload = x.2) ∧
    (∀ st ∈ [3, 6], ∀ v ∈ [1, 2],
      let d := ported { port0 with state := st } [(19, hailRec v)]
      inboxFind d 0x61 = some (19, hailRec v) ∧ recordOk (hailRec v) = true ∧ (portGet d 19).state = st ∧
      fld (hailRec v).payload 0 1 = v) := by decide +kernel
theorem witness_records_fix :
    (∀ x ∈ [(0, 6), (1, 4)],
      let d := ported { port0 with state := 4 } [(19, fixRec x.1)]
      inboxFind d 0x62 = some (19, fixRec x.1) ∧ recordOk (fixRec x.1) = true ∧ (portGet d 19).state = 4 ∧
      fixReason d 19 (fixRec x.1).payload = x.2) ∧
    (let d := { ported { port0 with state := 4 } [] with fab := { (ported { port0 with state := 4 } [(17, fixRec 0)]).fab with
                  ports := [(17, { port0 with state := 4 })] } }
     inboxFind d 0x62 = some (17, fixRec 0) ∧ (portGet d 17).state = 4 ∧ fixReason d 17 (fixRec 0).payload = 0) ∧
    (∀ st ∈ [5, 6], ∀ x ∈ [(4, true), (3, false)],
      let d := ported { port0 with state := st } [(19, chartRec x.1)]
      inboxFind d 0x63 = some (19, chartRec x.1) ∧ recordOk (chartRec x.1) = true ∧ (portGet d 19).state = st ∧
      decide (fld (chartRec x.1).payload 0 1 = 19 / 4 ∧ chartMerge (d.fab.rings.getD 4 ring0) (chartRec x.1).payload ≠
        d.fab.rings.getD 4 ring0) = x.2) := by decide +kernel

/-- A WRITE or READ of `n` bytes. -/
def rwPkt (kind a n : Nat) : Pkt :=
  { pkt kind 3 (natLe 8 a ++ natLe 2 n) (if kind = 1 then zeros 64 else []) with len := if kind = 1 then 1 else 0 }
/-- The least and the greatest count in memory, no byte, and an address where no memory is. -/
theorem witness_targets :
    (∀ x ∈ [(0x01, 0x8000000000, 1, true), (0x01, 0x8000000000, 64, true), (0x01, 0x8000000000, 0, false), (0x01, 0x20000000, 1, false),
        (0x03, 0x8000000000, 1, true), (0x03, 0x8000000000, 1024, true), (0x03, 0x8000000000, 1025, false), (0x03, 0x20000000, 1, false)],
      let p := rwPkt x.1 x.2.1 x.2.2.1
      inboxFind (delivered awake p) x.1 = some (19, p) ∧ (rwForm p && mapped (delivered awake p) (fld p.body 0 8) (fld p.body 8 2)) = x.2.2.2) := by
  decide +kernel

/-- An outstanding request of a kind sent `n` times more. -/
def req (kind n : Nat) : Req := ⟨pkt kind 3 [] [], .flush 0, 0, n, true⟩
theorem witness_answers :
    (∀ x ∈ [(0x02, 0x01), (0x04, 0x03), (0x05, 0x01), (0x05, 0x20), (0x06, 0x01), (0x06, 0x20)],
      let p := pkt x.1 3 (natLe 2 stCollFull) []
      let d := delivered (asked awake (req x.2 0)) p
      reqGet d p.tag = some (req x.2 0) ∧ (req x.2 0).pkt.dst = p.src ∧ inboxFind d x.1 = some (19, p) ∧ (req x.2 0).pkt.kind = x.2) ∧
    (∀ x ∈ [(0x20, stCollFull, true), (0x20, stCollClosed, true), (0x20, stAddrUnmapped, false), (0x01, stCollFull, false)],
      decide (collKind (req x.1 0).pkt.kind = true ∧
        (fld (pkt 0x05 3 (natLe 2 x.2.1) []).body 0 2 = stCollClosed ∨ fld (pkt 0x05 3 (natLe 2 x.2.1) []).body 0 2 = stCollFull)) = x.2.2) ∧
    (∀ x ∈ [(0x01, 1, false, 3, true), (0x01, 4, false, 3, true), (0x01, 1, false, 4, false), (0x01, 1, true, 3, false), (0x01, 3, false, 3, false),
        (0x20, 3, true, 4, true)],
      let p := { pkt 0x06 3 (natLe 1 x.1 ++ natLe 1 x.2.1) [] with maybe := x.2.2.1 }
      let r := req x.1 x.2.2.2.1
      reqGet (delivered (asked awake r) p) p.tag = some r ∧ r.pkt.kind = fld p.body 0 1 ∧ r.waiting = true ∧
      decide (r.pkt.kind = 0x20 ∨ (p.maybe = false ∧ (fld p.body 1 1 = 1 ∨ fld p.body 1 1 = 4) ∧ r.resends < 4)) = x.2.2.2.2) := by
  decide +kernel

/-- Requests that wait for a path: one of an engine, one of a channel; one that times out. -/
theorem witness_resends :
    let c : Req := { req 0x20 0 with issuer := .chan 15 }
    (∀ r ∈ [req 0x01 0, c], reqGet (asked awake r) 3 = some r ∧ r.waiting = true) ∧ (∀ n, (req 0x01 0).issuer ≠ .chan n) ∧
    c.issuer = .chan 15 ∧ (req 0x01 0).pkt.kind ≠ 0x20 ∧ (req 0x01 0).pkt.kind ≠ 0x40 ∧ (req 0x01 0).pkt.kind ≠ 0x41 := by
  refine ⟨by decide +kernel, fun n h => ?_, rfl, by decide, by decide, by decide⟩
  simp [req] at h

/-! ### Host interface -/

/-- The module with `n` virtual functions, some functions' Memory Space Enable, and aperture 0 of each function on HBM. -/
def hosted (en : Bool) (n : Nat) (mse : List Nat) : Dev :=
  { awake with host := { awake.host with vfEnable := en, numVfs := n, mse := mse,
                                         apertures := [(0, ⟨true, 0x8000000000⟩), (7 * 16, ⟨true, 0x8000000000⟩)] } }
/-- The last virtual function, the link up and down, D3hot, a link that may come up. -/
theorem witness_resets :
    awake.int.injects = [] ∧ awake.pow.phase = .hostReady ∧ awake.host.dlUp = true ∧ (7 : Nat) ≠ 0 ∧ (hosted true 7 []).host.vfEnable = true ∧
    7 ≤ (hosted true 7 []).host.numVfs ∧ (hosted true 7 []).host.dlUp = true ∧
    ({ awake with host := { awake.host with d3hot := [0] } } : Dev).host.d3hot.contains 0 = true ∧
    (let d : Dev := { awake with host := HostIf.reset }
     d.host.dlUp = false ∧ pcieRuns d = true ∧ d.pow.perst = false) := by decide +kernel

/-- Requests before host-ready, of the physical function, of virtual functions that exist and that do not. -/
theorem witness_requests :
    (let d := { awake with pow := { awake.pow with phase := .firmware } }
     d.host.dlUp = true ∧ d.pow.phase ≠ .hostReady) ∧
    (∀ x ∈ [(false, 7), (true, 6)], let d := hosted x.1 x.2 [0]
      d.host.dlUp = true ∧ d.pow.phase = .hostReady ∧ ¬(d.host.vfEnable = true ∧ 7 ≤ d.host.numVfs) ∧ claimed d 7 = false) ∧
    (let d := hosted true 7 [0]
     d.host.vfEnable = true ∧ 7 ≤ d.host.numVfs ∧ claimed d 7 = false ∧ claimed d 0 = true) ∧
    CfgOp.read 0 = .read 0 ∧ (∀ reg, CfgOp.memSpace true ≠ .read reg) :=
  ⟨by decide +kernel, by decide +kernel, by decide +kernel, rfl, fun _ h => CfgOp.noConfusion h⟩

/-- The first and the last bytes of aperture 0, one more, and an aperture that is not enabled. -/
theorem witness_bar2 :
    ∀ x ∈ [(0, 0, 4, true), (0, 2 ^ 32 - 4, 4, true), (0, 2 ^ 32 - 3, 4, false), (0, 2 ^ 32, 4, false), (7, 0, 4, false)],
      claimed (hosted true 7 [0, 7]) x.1 = true ∧ bar2Ok (hosted true 7 [0, 7]) x.1 x.2.1 x.2.2.1 false = x.2.2.2 ∧
      bar2Ok (hosted true 7 [0, 7]) x.1 x.2.1 x.2.2.1 true = x.2.2.2 ∧ (zeros x.2.2.1).length = x.2.2.1 := by decide +kernel

/-- DC_STAGE of `n` bytes with flags, on queue 255. -/
def stageCmd (fl n dev segs : Nat) (begun : Bool) : Running :=
  { disp 0x04 (ek 6 31) (zeros 1 ++ natLe 1 fl ++ zeros 2 ++ natLe 4 n ++ natLe 8 0x10000 ++ natLe 8 dev ++ natLe 4 segs) begun with
    remote := if begun then [⟨hostTag, true, 0x10000, n⟩] else [], work := if begun then [1, 0] else [] }
/-- No byte, an unknown flag; a list; no window; no memory; both directions. -/
theorem witness_stage :
    (∀ x ∈ [(0, stageCmd 0 0 0x8000000000 0 false, false, false, true, true), (0, stageCmd 4 1 0x8000000000 0 false, false, false, true, true),
        (0, stageCmd 2 1 0x8000000000 1 false, true, true, true, true), (0, stageCmd 3 1 0x8000000000 4096 false, true, true, true, true),
        (7, stageCmd 0 1 0x8000000000 0 false, true, false, false, true), (0, stageCmd 0 1 0x20000000 0 false, true, false, true, false),
        (0, stageCmd 0 1 0x8000000000 0 false, true, false, true, true), (0, stageCmd 1 (2 ^ 32 - 1) 0x8000000000 0 false, true, false, true, true)],
      let d := planDev x.1 x.2.1
      let b := x.2.1.cmd.body
      fresh d 255 (· == 0x04) = some (queueOf x.1 [] [x.2.1], x.2.1) ∧ stageParam d b = x.2.2.1 ∧
      (fld b 1 1).testBit 1 = x.2.2.2.1 ∧ windowOk d x.1 (fld b 16 8) (fld b 4 4) (!(fld b 1 1).testBit 0) = x.2.2.2.2.1 ∧
      ownMapped d (fld b 16 8) (fld b 4 4) = x.2.2.2.2.2) ∧
    (let r := stageCmd 0 4096 0x8000000000 0 true
     stageWaits (planDev 0 r) 255 5 0 = some (queueOf 0 [] [r], r, ⟨hostTag, true, 0x10000, 4096⟩) ∧ (zeros 4096).length = 4096) ∧
    (let p := { plan3 with hostWait := [⟨0, true, 0x100000, 4096⟩] }
     planGet (planAt 4 0x100000 p tally0 []) 31 = some p ∧ p.hostWait[0]? = some ⟨0, true, 0x100000, 4096⟩) := by
  refine ⟨by decide +kernel, ⟨by decide +kernel, List.length_replicate⟩, by decide +kernel⟩

/-- A plan that awaits a flushing read. -/
theorem witness_planFlush :
    let p := { plan3 with flush := 1 }
    planGet (planAt 4 0x100000 p tally0 []) 31 = some p ∧ p.flush ≠ 0 := by decide +kernel

/-! ### Mailboxes -/

/-- The module with mailbox `ch` in a phase, all functions enabled. -/
def mailed (ch phase : Nat) : Dev := { hosted true 7 [0, 1, 2, 3, 4, 5, 6, 7] with mbox := [(ch, { mailbox0 with phase := phase })] }
/-- Each phase of the last mailbox of the physical function and of the last virtual function's. -/
theorem witness_mailboxes :
    (∀ x ∈ [(0, 8, 8), (7, 0, 15)],
      claimed (mailed x.2.2 0) x.1 = true ∧ mbxChannel x.1 x.2.1 = some x.2.2 ∧
      ∀ ph ∈ [0, 1, 2, 3], decide ((mbxGet (mailed x.2.2 ph) x.2.2).phase = 0 ∨ (mbxGet (mailed x.2.2 ph) x.2.2).phase = 2) =
        decide (ph % 2 = 0)) ∧
    (0x40 ≤ 4088 ∧ 4088 % 8 = 0 ∧ (4088 : Nat) < 4096 ∧ 16 * vectorCount 7 - 8 < 16 * vectorCount 7 ∧ (16 * vectorCount 7 - 8) % 8 = 0) ∧
    (let d := { awake with sec := { awake.sec with locked := true } }
     claimed d 0 = true ∧ d.sec.locked = true ∧ inDebugWindow 0 0x2000000 = true ∧ inDebugWindow 0 0x3FFFFFC = true) ∧
    (2 ^ 15 : Nat).testBit 15 = true ∧ mctpServed awake = true ∧ (1 : Byte) ≠ 0 ∧ (1 : Byte) ≠ 0xFF := by decide +kernel

/-- A DZ_QUEUE_HALT that waits for the halt of queue 255. -/
def waitsHalt : Busy := ⟨0x0202, 1, 0, 8, 0, .queueHalt 255, []⟩
theorem witness_deferred :
    let d := qSet { awake with mbox := [(0, { mailbox0 with phase := 1, busy := some waitsHalt })] } 255 { queueOf 0 [] [] with run := 3 }
    (mbxGet d 0).busy = some waitsHalt ∧
    deferDone Otp.reset d waitsHalt.wait = some (stOk, natLe 8 (dqState { queueOf 0 [] [] with run := 3 })) := by decide +kernel

/-- A request on each kind of channel: with a free sequence number, and with the number after the greatest. -/
theorem witness_accepted :
    (∀ ch ∈ [0, 8, 9, 15, 16], (Request.accepted ⟨0x0101, ch, 5, 0, zeros 8⟩ (mailed ch 0)) ∧
      dzOpen (mailed ch 0) ch 0x0101 (zeros 8) = true) ∧
    Request.accepted ⟨0x0101, 0, 0, 0, []⟩ { awake with mbox := [(0, { mailbox0 with execSeq := 0xFFFFFFFF, seqFree := false, phase := 2 })] } := by
  unfold Request.accepted; decide +kernel
/-- The length of the message and another; a reply at once and one that waits for its queue to halt. -/
theorem witness_served :
    sentRequest (.dzMbxStatus 0 5 0 []) = some ⟨0x0101, 0, 5, 0, []⟩ ∧ sentRequest (.dzQueueHalt 0 5 0 (natLe 8 255)) = some ⟨0x0202, 0, 5, 0, natLe 8 255⟩ ∧
    (∀ w ∈ dzFind 0x0101, (zeros 8).length ≠ w.len (zeros 8) ∧ ([] : List Byte).length = w.len [] ∧
      (w.run 0 [] Otp.reset (mailed 0 0)).wait = none) ∧
    (∀ w ∈ dzFind 0x0202, (w.run 0 (natLe 8 255) Otp.reset (running (mailed 0 0) (disp 0 0 [] true))).wait = some (.queueHalt 255)) := by
  decide +kernel

/-! ### Sextant -/

/-- Rail 27 after a fix, in or outside its windows, and cage 9 as given. -/
def sensed (r : RailSt) (c : CageSt) : Dev := { awake with sx := { awake.sx with rails := [(27, r)], cages := [(9, c)] } }
/-- A powered cage with a limit of 3 A. -/
def cage9 (was : Bool) : CageSt := { cage0 with plug := true, state := 1, limitMa := 3000, lastOver := was }
/-- Readings of rail 27 at the edge of the fault window of 1.8 V and 5 A, with and without such a reading before. -/
theorem witness_rail :
    railOn Otp.reset 27 = true ∧ railOn Otp.reset 28 = false ∧
    (∀ x ∈ [(1692000, 0, true, true, false), (1691999, 0, true, false, true), (1691999, 0, false, false, false),
        (1800000, 6000, true, true, false), (1800000, 6001, false, true, true), (1800000, 6001, true, false, false)],
      let d := sensed { rail0 with lastFaultV := x.2.2.1, lastFaultI := x.2.2.2.1 } cage0
      d.pow.phase ≠ .off ∧
      decide ((outside (railFault d 27) x.1 = true ∧ (smGet rail0 d.sx.rails 27).lastFaultV = true) ∨
        (railLimit 27 * 12 < x.2.1 * 10 ∧ (smGet rail0 d.sx.rails 27).lastFaultI = true)) = x.2.2.2.2) ∧
    (List.replicate 200 (0 : Int)).length = 200 := by decide +kernel

/-- Currents of cage 9: at its limit, above it once and twice, above 8 A, of an open cage; 9 mA and 10 mA; a cage held off. -/
theorem witness_cage :
    cagePresent Otp.reset 9 = true ∧
    (∀ x ∈ [(3000, cage9 true, false, false), (3001, cage9 false, true, false), (3001, cage9 true, true, true), (8000, cage9 false, true, false),
        (8001, cage9 false, true, true), (8001, { cage9 false with limitMa := 9000 }, false, true), (8001, cage0, false, false)],
      let v := smGet cage0 (sensed rail0 x.2.1).sx.cages 9
      let on := v.state = 1 ∨ v.state = 3
      let above := on ∧ v.limitMa < x.1
      decide above = x.2.2.1 ∧ decide ((above ∧ v.lastOver = true) ∨ (on ∧ 8000 < x.1)) = x.2.2.2) ∧
    (smGet cage0 (sensed rail0 (cage9 false)).sx.cages 9).heldOff = false ∧ (smGet cage0 (sensed rail0 (cage9 false)).sx.cages 9).state = 1 ∧
    (smGet cage0 (sensed rail0 { cage9 false with state := 2, heldOff := true }).sx.cages 9).heldOff = true ∧ 10 ≤ 10 ∧
    9 < 10 := by decide +kernel

/-- Both phases of the control loop; a clock below, above and at the lowest target, and the hub before and after RHUMB_READY. -/
theorem witness_clocks :
    (∀ ph ∈ [Phase.firmware, .hostReady], let d := { awake with pow := { awake.pow with phase := ph } }
      d.pow.phase = .firmware ∨ d.pow.phase = .hostReady) ∧
    awake.fab.ready = false ∧
    (∀ x ∈ [(1200, 0), (3600, 1), (3450, 2)],
      let d := { awake with sx := { awake.sx with groups := [⟨x.1, if x.2 = 2 then 3450 else 3600, 3600, 3600, 3600⟩], power := [] } }
      let w := nextGroup d 0
      let low := min (min w.hostCap w.thermal) (min w.current w.power)
      (x.2 = 0 → (groupAt d 0).clock < low) ∧ (x.2 ≠ 0 → low = (groupAt d 0).clock)) ∧
    (let d := { awake with sx := { awake.sx with groups := [⟨3600, 1200, 3600, 3600, 3600⟩], power := [] } }
     let w := nextGroup d 0
     min (min w.hostCap w.thermal) (min w.current w.power) < (groupAt d 0).clock) := by decide +kernel

/-! ### Start-up and resets -/

/-- The module without its input. -/
def unpowered : Dev := powerGone awake false false
/-- Strap samples of site 0 in a machine of one module, with even parity and with odd. -/
theorem witness_power :
    unpowered.pow.vin = false ∧ unpowered.pow.phase = .off ∧ railOn Otp.reset 27 = true ∧ railOn Otp.reset 28 = false ∧
    ({ awake with pow := { awake.pow with shutdownPending := true } } : Dev).pow.shutdownPending = true := by decide +kernel

theorem witness_starts :
    awake.pow.phase ≠ .off ∧ awake.act = none ∧
    (let d := { awake with host := { awake.host with counting := true, dlUp := false } }
     d.host.counting = true ∧ d.host.dlUp = false ∧ pcieRuns d = true) ∧
    ({ awake with pow := { awake.pow with fwResetPending := true } } : Dev).pow.fwResetPending = true ∧
    (State.reset.dev.pow.pwrGood = true ∧ State.reset.dev.pow.phase = .inReset ∧ State.reset.dev.pow.shutdownPending = false) ∧
    (let d := { awake with pow := { awake.pow with phase := .firmware } }
     d.pow.phase = .firmware ∧ d.pow.shutdownPending = false ∧ d.flash.fits = true ∧ fwRuns d = true ∧ d.pow.sighted = false) ∧
    fwRuns awake = true ∧ awake.pow.sighted = false ∧ siteBad awake 0 = false ∧ siteBad awake 1 = true := by decide +kernel

/-- R528: with no signed manifest in the flash the boot ROM goes into recovery. -/
theorem test_recovery :
    (settle (resetReleaseDev 0 true) State.reset).dev.pow.phase = .recovery := by decide +kernel

/-! ### Every step -/

theorem test_reset_queue : State.reset.pending = [] := rfl
/-- A step from the state after reset, and a state that meets the invariants. -/
theorem witness_steps : Steps State.reset State.reset ∧ State.reset.otp.Fits ∧ State.reset.memOk := by
  refine ⟨rfl, ?_, rfl⟩
  unfold Otp.Fits; decide
theorem witness_goesOn : GoesOn .hotReset ∧ ¬GoesOn (.debugWindowAccess 0 0 4 none) := by simp [GoesOn]
/-- The control range stops a released window only. -/
theorem test_controlRange :
    exec (.debugWindowAccess 0 0x2000000 4 none) (on { awake with sec := { awake.sec with locked := false } }) =
      .refused .controlRange := by rfl
/-- Bytes before, in and behind a write, and a canonical memory. -/
theorem witness_memory :
    Memory.wf awake.mem = true ∧ byteAt (memWrite awake 5 [1, 0, 2]) 4 = 0 ∧ byteAt (memWrite awake 5 [1, 0, 2]) 7 = 2 ∧
    (memWrite awake 5 [1, 0, 2]).mem = [(5, 1), (7, 2)] ∧ (memWrite (memWrite awake 5 [1, 0, 2]) 5 [0]).mem = [(7, 2)] ∧
    (memRead (memMix awake 5 2 []) 5 2).length = 2 := by decide +kernel

end Sys2Proof.Tests
end

section
/-! Device memory reads as written (R29, and R18 for bytes left undefined): the architecture statement O59. -/
namespace Sys2Proof.Machine

/-- A byte outside a range left free (log 85) is as before. -/
theorem byteAt_memLoose_out (d : Dev) (a n : Nat) (x : Nat) (h : x < a ∨ a + n ≤ x) :
    byteAt (memLoose d a n) x = byteAt d x := by
  rw [byteAt, memLoose_mem, smGet_smSetList_out 0 _ d.mem a x (by simpa using h), byteAt]

/-- A zeroed range said by its inside: the same bytes as `byteAt_memZero` says by their outside. -/
theorem byteAt_memZero_of_range (d : Dev) (a n x : Nat) :
    byteAt (memZero d a n) x = if a ≤ x ∧ x < a + n then 0 else byteAt d x := by
  rw [byteAt_memZero]
  by_cases hin : a ≤ x ∧ x < a + n
  · rw [if_pos hin, if_neg (by omega)]
  · rw [if_neg hin, if_pos (by omega)]

/-- Settles O59: writing, zeroing and the two kinds of undefined ranges each change one range of the sorted map, so the range
reads as the operation says, the rest as before, and the map stays canonical. -/
theorem memoryIsReadAsWritten : Obligations.MemoryIsReadAsWritten := by
  intro d a n bs vs
  refine ⟨memRead_memWrite d a bs, byteAt_memWrite_out d a bs, byteAt_memZero_of_range d a n, ?mixed, ?outside, ?canonical⟩
  case mixed => exact fun i hi => byteAt_memMix_in d a n vs i hi
  case outside => exact fun x hx => ⟨byteAt_memMix_out d a n vs x hx, byteAt_memLoose_out d a n x hx⟩
  case canonical =>
    exact fun hwf => ⟨memWrite_wf d a bs hwf, memZero_wf d a n hwf, memMix_wf d a n vs hwf, memLoose_wf d a n hwf⟩

end Sys2Proof.Machine
end

section
/-! The layout commands and DC_COPY run through their stages (chapter 3, R139): the statement O37. The meaning of each command
is one nest of stages, each ending the command with a status or going on; here each stage has a name, and the
lemmas say when a stage goes on to the next. -/
namespace Sys2Proof.Machine

/-- What an effect makes of the state's own module is all that settling it needs. -/
theorem runDev_eq_settle {f : Otp → Dev → Dev} {s : State} {d : Dev} (h : f s.otp s.dev = d) :
    runDev f s = .next (settle (fun _ _ => d) s) := by
  subst h; rfl

/-! ### Commands that await their turn, and their reads -/

theorem onActive_of_awaits {d : Dev} {q : Nat} {v : Queue} {r : Running} {p : Running → Bool} (h : Awaits d q v r p)
    (f : Dev → Queue → Running → Dev) : onActive d q p f = f d v r := by
  obtain ⟨hq, hr⟩ := h
  simp only [onActive, hq, hr]

section
variable {d : Dev} {q : Nat} {r : Running} {rs : List (Nat × Nat)}

theorem cmdNeed_here (h : gaMissing d r.rbuf rs = []) (k : Dev) : cmdNeed d q r rs k = k := if_pos h

theorem cmdOnce_here (h : gaMissing (cmdHold d q r rs) (cmdOwn d r rs).rbuf rs = []) (k : Dev → Running → Dev) :
    cmdOnce d q r rs k = k (cmdHold d q r rs) (cmdOwn d r rs) := cmdNeed_here h _

/-- A stage whose check passes and whose records are at hand goes on with its copies of them. -/
theorem stage_goesOn {st : Nat} (hst : st = stOk)
    (h : gaMissing (cmdHold d q r rs) (cmdOwn d r rs).rbuf rs = []) (x : Dev) (k : Dev → Running → Dev) :
    (if st ≠ stOk then x else cmdOnce d q r rs k) = k (cmdHold d q r rs) (cmdOwn d r rs) := by
  rw [if_neg (not_not_intro hst), cmdOnce_here h]

end

/-- A stage whose records keep a wrong CRC ends the command. -/
theorem crcStage_ends {good : Bool} (h : good = false) (x y : Dev) : (if !good then x else y) = x := if_pos (congrArg not h)

/-- A stage whose records pass their CRCs goes on. -/
theorem crcStage_goesOn {good : Bool} (h : good = true) (x y : Dev) : (if !good then x else y) = y := by rw [h]; rfl

/-! ### The stages of a layout command -/

/-- The last stage: the data bytes, then the writes. -/
def lyData (op q sq : Nat) (a : LyArgs) (d : Dev) (r : Running) : Dev :=
  cmdNeed d q r (lyReads d r a op)
    (cmdWritten (lyRun d r a op (.cmd q sq)).1 q r (lyRun d r a op (.cmd q sq)).2)

/-- The stage before it: the number of entries is known, and the list is judged and read. -/
def lyEntries (op q sq fn : Nat) (a : LyArgs) (blk : Bool) (d : Dev) (r : Running) : Dev :=
  if lyListChecks d fn r a op blk ≠ stOk then cmdFinal d q sq (lyListChecks d fn r a op blk) 0
  else cmdOnce d q r (lyListReads d r a op blk) (lyData op q sq a)

/-- Every descriptor is at hand, and its CRC is judged. -/
def lyJudge (op q sq rr fn : Nat) (o : Otp) (d : Dev) (r : Running) : Dev :=
  if !(lyRead o d r op rr).2 then cmdFinal (lyRead o d r op rr).1 q sq stTdCrc 0
  else lyGo op q fn (cmdJudged (lyRead o d r op rr).1 q r) r

/-- The tensor descriptors are at hand, and the block-list descriptor that they name is read. -/
def lyBlockList (op q sq rr fn : Nat) (o : Otp) (d : Dev) (r : Running) : Dev :=
  if recStatus d fn (lyBldRec d r op) ≠ stOk then cmdFinal d q sq (recStatus d fn (lyBldRec d r op)) 0
  else cmdOnce d q r (lyBldRec d r op) (lyJudge op q sq rr fn o)

section
variable {op q rr fn : Nat} {o : Otp} {d : Dev} {v : Queue} {r : Running}

theorem layoutDev_of_awaits (hw : Awaits d q v r (lyIs op)) :
    layoutDev op q rr o d =
      if recStatus d v.owner (lyRecs r op) ≠ stOk then
        cmdFinal d q r.cmd.cseq.toNat (recStatus d v.owner (lyRecs r op)) 0
      else cmdOnce d q r (lyRecs r op) (lyBlockList op q r.cmd.cseq.toNat rr v.owner o) := by
  rw [layoutDev, onActive_of_awaits hw]; rfl

theorem lyGo_eq_stages :
    lyGo op q fn d r =
      if lyChecks d fn r (lyArgs d r op) (lyBlk d r op) ≠ stOk then
        cmdFinal d q r.cmd.cseq.toNat (lyChecks d fn r (lyArgs d r op) (lyBlk d r op)) 0
      else cmdOnce d q r (lyCnt (lyArgs d r op) op (lyBlk d r op))
        (lyEntries op q r.cmd.cseq.toNat fn (lyArgs d r op) (lyBlk d r op)) := rfl

end

/-- What each of the five commands of the layout engine does is the one effect `layoutDev` of its operation. -/
theorem exec_layout {op q rr : Nat} {i : Instr} (s : State)
    (h : (i, op) ∈ [(Instr.lyCopy q rr, 1), (.lyGather q rr, 2), (.lyScatter q rr, 3), (.lyList q rr, 4), (.lyFill q rr, 5)]) :
    exec i s = runDev (layoutDev op q rr) s := by
  simp only [List.mem_cons, List.not_mem_nil, or_false, Prod.mk.injEq] at h
  rcases h with ⟨rfl, rfl⟩ | ⟨rfl, rfl⟩ | ⟨rfl, rfl⟩ | ⟨rfl, rfl⟩ | ⟨rfl, rfl⟩
  · exact exec_lyCopy q rr s
  · exact exec_lyGather q rr s
  · exact exec_lyScatter q rr s
  · exact exec_lyList q rr s
  · exact exec_lyFill q rr s

/-! ### The stages of DC_COPY -/

/-- The records that DC_COPY names. -/
def copyRecs (r : Running) : List (Nat × Nat) := [(fld r.cmd.body 8 8, 128), (fld r.cmd.body 16 8, 128)]

/-- Read the two descriptors of DC_COPY; they are judged once. -/
def copyRead (o : Otp) (recs : List (Nat × Nat)) (d : Dev) (r : Running) (rr : Nat) : Dev × Bool :=
  if r.work = [1] then (d, true) else recsRead o d r recs 0 rr

/-- What DC_COPY writes: destination position i with the element of source position i. -/
def copyItems (d : Dev) (r : Running) : List (List Int × Nat) :=
  (tdAll (lyDst d r)).map (fun i => (i, tdRead d r.rbuf (lySrc d r) i))

/-- The descriptors have passed their CRCs: the checks, the data bytes, then the writes. -/
def copyGo (q sq fn : Nat) (d : Dev) (r : Running) : Dev :=
  if copyChecks d fn r (lySrc d r) (lyDst d r) ≠ stOk then
    cmdFinal d q sq (copyChecks d fn r (lySrc d r) (lyDst d r)) 0
  else cmdNeed d q r (tdRanges (lySrc d r) (tdAll (lySrc d r)))
    (pcAdd (cmdWritten (tdWrite d (lyDst d r) (copyItems d r) (.cmd q sq)) q r 0) (kEng r.engine + 3)
      (itemBytes (lyDst d r) (copyItems d r)))

/-- The two descriptors are at hand, and their CRCs are judged. -/
def copyJudge (q sq rr fn : Nat) (o : Otp) (recs : List (Nat × Nat)) (d : Dev) (r : Running) : Dev :=
  if !(copyRead o recs d r rr).2 then cmdFinal (copyRead o recs d r rr).1 q sq stTdCrc 0
  else copyGo q sq fn (cmdJudged (copyRead o recs d r rr).1 q r) r

section
variable {q sq rr fn : Nat} {o : Otp} {d : Dev} {v : Queue} {r : Running}

theorem dcCopyDev_of_awaits (hw : Awaits d q v r (fun r => r.cmd.op == 0x02)) :
    dcCopyDev q rr o d =
      if recStatus d v.owner (copyRecs r) ≠ stOk then cmdFinal d q r.cmd.cseq.toNat (recStatus d v.owner (copyRecs r)) 0
      else cmdOnce d q r (copyRecs r) (copyJudge q r.cmd.cseq.toNat rr v.owner o (copyRecs r)) := by
  rw [dcCopyDev, onActive_of_awaits hw]; rfl

theorem copyGo_runs (hst : copyChecks d fn r (lySrc d r) (lyDst d r) = stOk)
    (h : gaMissing d r.rbuf (tdRanges (lySrc d r) (tdAll (lySrc d r))) = []) :
    copyGo q sq fn d r =
      pcAdd (cmdWritten (tdWrite d (lyDst d r) (copyItems d r) (.cmd q sq)) q r 0) (kEng r.engine + 3)
        (itemBytes (lyDst d r) (copyItems d r)) := by
  rw [copyGo, if_neg (not_not_intro hst), cmdNeed_here h]

end

/-- Settles O37: the command's effect is its stages in a row, so a status other than ST_OK ends it at its stage, and records at
hand hand it on to the next. -/
theorem layoutCommandsRun : Obligations.LayoutCommandsRun := by
  refine ⟨?layout, ?copy⟩
  case layout =>
    intro op q rr i s v r hi hw
    have ends {x : Dev} (h : layoutDev op q rr s.otp s.dev = x) : exec i s = .next (settle (fun _ _ => x) s) :=
      (exec_layout s hi).trans (runDev_eq_settle h)
    have atRecs := layoutDev_of_awaits (rr := rr) (o := s.otp) hw
    refine ⟨fun bad => ends (atRecs.trans (if_pos bad)), fun ok here => ?_⟩
    have atList := atRecs.trans (stage_goesOn ok here _ _)
    refine ⟨fun bad => ends (atList.trans (if_pos bad)), fun ok here => ?_⟩
    have atJudge := atList.trans (stage_goesOn ok here _ _)
    refine ⟨fun bad => ends (atJudge.trans (crcStage_ends bad _ _)), fun ok => ?_⟩
    have atChecks := (atJudge.trans (crcStage_goesOn ok _ _)).trans lyGo_eq_stages
    refine ⟨fun bad => ends (atChecks.trans (if_pos bad)), fun ok here => ?_⟩
    have atEntries := atChecks.trans (stage_goesOn ok here _ _)
    refine ⟨fun bad => ends (atEntries.trans (if_pos bad)), fun ok here data => ?_⟩
    have atData := atEntries.trans (stage_goesOn ok here _ _)
    exact ends (atData.trans (cmdNeed_here data _))
  case copy =>
    intro q rr s v r hw
    have ends {x : Dev} (h : dcCopyDev q rr s.otp s.dev = x) : exec (.dcCopy q rr) s = .next (settle (fun _ _ => x) s) :=
      (exec_dcCopy q rr s).trans (runDev_eq_settle h)
    have atRecs := dcCopyDev_of_awaits (rr := rr) (o := s.otp) hw
    refine ⟨fun bad => ends (atRecs.trans (if_pos bad)), fun ok here => ?_⟩
    have atJudge := atRecs.trans (stage_goesOn ok here _ _)
    refine ⟨fun bad => ends (atJudge.trans (crcStage_ends bad _ _)), fun ok => ?_⟩
    have atChecks := atJudge.trans (crcStage_goesOn ok _ _)
    exact ⟨fun bad => ends (atChecks.trans (if_pos bad)), fun ok here => ends (atChecks.trans (copyGo_runs ok here))⟩

end Sys2Proof.Machine
end

section
/-! Engine programs (chapter 4): slots, signals, bundles and their waits, code fills, the start of a stream and its retirement: the
statements O1 to O7. Each effect is followed along the branch that its hypotheses pick; a lemma says once what a shared
operation does on that branch. -/
namespace Sys2Proof.Machine

/-- Two effects that agree on the state's own module settle to the same state. -/
theorem runDev_of_agree {f g : Otp → Dev → Dev} {s : State} (h : f s.otp s.dev = g s.otp s.dev) :
    runDev f s = .next (settle g s) := runDev_eq_settle h

/-! ### Scalar and sync slots -/

theorem isScalar_of {sl : Slot} {op : Nat} (hk : sl.kind = 6) (hop : bits sl.w 28 4 = op) : isScalar op sl = true := by
  simp [isScalar, hk, hop]

/-- An effect that is one slot's, on an engine that has the slot at its front, is what the slot does. -/
theorem runDev_onSlot {e : Nat} {s : State} {v : Stream} {sl : Slot} {rest : List Slot} {p : Slot → Bool}
    {f : Dev → Stream → Slot → Dev} (h : Fronts s.otp s.dev e v sl rest) (hp : p sl = true) :
    runDev (fun o d => onSlot o d e p f) s = .next (settle (fun _ d => f d v sl) s) := runDev_of_agree (onSlot_fronts h hp)

/-- A code block that the cache holds is used, and is then the first of its set. -/
theorem withBlock_held {d : Dev} {e cache blk : Nat} {v : Stream} {bs : List Byte}
    (h : icFind d cache v.handle v.gen blk = some bs) (k : Dev → List Byte → Dev) :
    withBlock d e v cache blk k = k (icPut d cache v.handle v.gen blk bs) bs := by
  simp only [withBlock, h]

@[simp] theorem icPut_sccSlots (d : Dev) (cache handle gen blk : Nat) (bs : List Byte) :
    (icPut d cache handle gen blk bs).sccSlots = d.sccSlots := rfl

/-- Settles O1: each scalar slot is at the front, and S_CHOOSE finds its SCC allowed, its block held and a rule that matches. -/
theorem scalarSlotsComplete : Obligations.ScalarSlotsComplete := by
  refine ⟨fun cls inst s v sl rest hfr hk => ⟨?loop, ?ends, ?adve, ?summ⟩, ?choose⟩
  case loop => exact fun hop => (exec_sLoop ..).trans (runDev_onSlot hfr (isScalar_of hk hop))
  case ends => exact fun hop => (exec_sEnd ..).trans (runDev_onSlot hfr (isScalar_of hk hop))
  case adve => exact fun hop => (exec_sAdve ..).trans (runDev_onSlot hfr (isScalar_of hk hop))
  case summ =>
    intro hop hden
    refine (exec_sSumm ..).trans (runDev_of_agree ?_)
    simp only [sSummDev, onSlot_fronts hfr (isScalar_of hk hop), hden, Bool.false_eq_true, if_false]
  case choose =>
    intro cls inst s v sl rest g blk r hfr hk hop n off hden hgen hblk ent y hrule
    refine (exec_sChoose ..).trans (runDev_of_agree ?_)
    simp only [n, off, ent, y] at hden hblk hrule
    simp only [sChooseDev, onSlot_fronts hfr (isScalar_of hk hop), hden, Bool.false_eq_true, if_false, hgen,
      withBlock_held hblk, icPut_sccSlots, hrule]
    rfl

/-- Settles O2: the wait of SY_WAIT replaces the bundle's waits and the signal of SY_SIGNAL joins its signals. -/
theorem syncSlotsComplete : Obligations.SyncSlotsComplete := by
  intro cls inst s v sl rest hfr hk
  have ⟨_, hslots, _⟩ := hfr
  have sync {op : Nat} (hop : bits sl.w 30 2 = op) : (sl.kind == 0 && bits sl.w 30 2 == op) = true := by simp [hk, hop]
  refine ⟨fun hop => (exec_syWait ..).trans (runDev_of_agree ?wait), fun hop => (exec_sySignal ..).trans ?signal⟩
  case wait =>
    rw [syWaitDev, onSlot_fronts hfr (sync hop), hslots, List.drop_one, List.tail_cons]
  case signal => exact runDev_onSlot hfr (sync hop)

/-! ### Signals -/

/-- The signal is armed and every access that it waits for has completed (R110). -/
def sigReady (v : Stream) (g : SigReq) : Bool := g.armed && g.tags.all (fun t => !(v.remote.any (fun r => r.tag == t)))

theorem sigReady_of {v : Stream} {g : SigReq} (ha : g.armed = true) (ht : ∀ t ∈ g.tags, ∀ r ∈ v.remote, r.tag ≠ t) :
    sigReady v g = true := by
  simpa [sigReady, ha] using ht

theorem sigReady_eq_false {v : Stream} {g : SigReq} (h : g.armed = false ∨ ∃ t ∈ g.tags, ∃ r ∈ v.remote, r.tag = t) :
    sigReady v g = false := by
  rcases h with h | h
  · simp [sigReady, h]
  · simpa [sigReady] using fun _ => h

/-- The first signal that is ready is added to its tally, and the stream keeps the others. -/
theorem signalFireDev_of_first {cls inst : Nat} {o : Otp} {d : Dev} {v : Stream} {pre post : List SigReq} {g : SigReq}
    (hv : stGet d (ek cls inst) = some v) (hs : v.sigs = pre ++ g :: post) (hg : sigReady v g = true)
    (hp : ∀ p ∈ pre, sigReady v p = false) :
    signalFireDev cls inst o d = tallyAdd (stSet d (ek cls inst) { v with sigs := pre ++ post }) g.tally g.inc := by
  have hfind : v.sigs.find? (sigReady v) = some g := by
    rw [hs, List.find?_append, List.find?_eq_none.mpr (by simpa using hp), Option.none_or, List.find?_cons_of_pos hg]
  have hpre : ∀ p ∈ pre, (!sigReady v p) = true := by simpa using hp
  have htake : v.sigs.takeWhile (fun p => !sigReady v p) = pre := by
    rw [hs, List.takeWhile_append_of_pos hpre, List.takeWhile_cons_of_neg (by simp [hg]), List.append_nil]
  have hdrop : v.sigs.dropWhile (fun p => !sigReady v p) = g :: post := by
    rw [hs, List.dropWhile_append_of_pos hpre, List.dropWhile_cons_of_neg (by simp [hg])]
  unfold sigReady at hfind htake hdrop
  simp only [signalFireDev, hv, hfind, htake, hdrop, List.drop_one, List.tail_cons]

theorem smGet_none_map {V : Type} (f : V → V) (m : SMap (Option V)) (k : Nat) :
    smGet none (m.map (fun p => (p.1, p.2.map f))) k = (smGet none m k).map f := by
  induction m with
  | nil => rfl
  | cons p t ih => by_cases h : p.1 = k <;> simp [smGet, h, ih]

theorem stGet_tallyStore (d : Dev) (k : Nat) (y : TallyV) (e : Nat) :
    stGet (tallyStore d k y) e = (stGet d e).map (streamSees k y) := smGet_none_map _ _ _

theorem qGet_tallyStore (d : Dev) (k : Nat) (y : TallyV) (q : Nat) :
    qGet (tallyStore d k y) q = (qGet d q).map (queueSees k y) := smGet_none_map _ _ _

theorem planGet_tallyStore (d : Dev) (k : Nat) (y : TallyV) (x : Nat) :
    planGet (tallyStore d k y) x = (planGet d x).map (planSees k y) := smGet_none_map _ _ _

theorem tallyGet_tallyStore_self (d : Dev) (r : Nat) (y : TallyV) : tallyGet (tallyStore d (tallyKey r) y) r = y :=
  smGet_smSet_self _ _ _ _

theorem tallyGet_tallyStore_ne (d : Dev) {k r : Nat} (y : TallyV) (h : tallyKey r ≠ k) :
    tallyGet (tallyStore d k y) r = tallyGet d r := smGet_smSet_ne _ _ _ h

theorem dev_clearBurns {d : Dev} (h : d.burns = []) : { d with burns := [] } = d := by rw [← h]

/-- An act on a tally, after a stream has changed, leaves all but the streams, the tallies and the waits of queues and plans. -/
theorem tallyStore_stSet_restored {d t : Dev} (e k : Nat) (v : Stream) (y : TallyV)
    (ht : t = { tallyStore (stSet d e v) k y with burns := [] }) :
    { t with streams := d.streams, tallies := d.tallies, queues := d.queues, plans := d.plans } = { d with burns := [] } := by
  subst ht; rfl

/-- Settles O3: the signal leaves its stream, and one act on its tally is all else that happens. -/
theorem signalFires : Obligations.SignalFires := by
  intro cls inst s v pre post g hv hs ha ht hp hburns hu k y
  let e := ek cls inst
  let d := stSet s.dev e { v with sigs := pre ++ post }
  have hfire : signalFireDev cls inst s.otp s.dev = tallyStore d k y :=
    (signalFireDev_of_first hv hs (sigReady_of ha ht) (fun p hpre => sigReady_eq_false (hp p hpre))).trans (tallyAdd_unharmed hu)
  refine ⟨settle (fun _ _ => tallyStore d k y) s, (exec_signalFire ..).trans (runDev_of_agree hfire), ?tally, ?tallies, ?own,
    ?others, ?queues, ?plans, ?frame, ?fuses⟩
  case tally => exact tallyGet_tallyStore_self d g.tally y
  case tallies => exact fun r hr => tallyGet_tallyStore_ne d y hr
  case own => exact (stGet_tallyStore d k y e).trans (congrArg _ (stGet_stSet _ _ _))
  case others => exact fun x hx => (stGet_tallyStore d k y x).trans (congrArg _ (stGet_stSet_ne _ _ hx))
  case queues => exact qGet_tallyStore d k y
  case plans => exact planGet_tallyStore d k y
  case frame => exact (tallyStore_stSet_restored e k _ y (settle_dev _ s)).trans (dev_clearBurns hburns)
  case fuses => exact congrArg (settleOtp s.otp) hburns

/-! ### Bundles and waits -/

/-- The engine has taken its next bundle, whose block its cache holds. -/
theorem bundleIssueDev_held {cls inst : Nat} {o : Otp} {d : Dev} {v : Stream} {bs : List Byte}
    (hv : stGet d (ek cls inst) = some v) (hi : canIssue v = true)
    (hb : icFind d (ek cls inst) v.handle v.gen (v.pos / 1024) = some bs) :
    bundleIssueDev cls inst o d =
      let e := ek cls inst
      let held := icPut d e v.handle v.gen (v.pos / 1024) bs
      let rd := fun off n => fld bs (off % 1024) n
      let h := rd v.pos 4
      if v.skip ≠ 0 then
        let opens := (bundleSlots rd h v.pos).any (fun s => s.kind == 6 && bits s.w 28 4 == 1)
        stSet held e { v with pos := v.pos + bundleLen h, skip := v.skip + opens.toNat - (h.testBit 4).toNat }
      else
        let waits : List WaitReq := if bits h 23 2 = 0 then [] else [⟨bits h 19 4, bits h 23 2, bits h 15 4, 0⟩]
        advance (pcAdd (stSet held e { v with head := some h, waits := waits, slots := bundleSlots rd h v.pos }) (kEng e) 1) e := by
  simp only [bundleIssueDev, hv, hi, withBlock_held hb, Bool.not_true, Bool.false_eq_true, if_false]

/-- The cycles that a wait has stalled its engine are counted, a free value (R108). -/
def stalled (d : Dev) (e : Nat) : Dev := bump (pcAdd d (kEng e + 2) (Config.freeCount d.freeIdx).toNat)

/-- The stream once wait `w` is met and `rest` remains: its expectation moves as the condition says (R108). -/
def waitPassed (v : Stream) (w : WaitReq) (rest : List WaitReq) : Stream :=
  { v with waits := rest, exps := setAt v.exps w.binding (waitExp (nth v.exps w.binding) w.cond w.value) }

section
variable {d : Dev} {e : Nat} {v : Stream} {w : WaitReq} {rest : List WaitReq}

/-- What a stream does with its first wait, once its tally has been read without loss: it stays, faults, or goes on. -/
theorem advance_wait (hv : stGet d e = some v) (hw : v.waits = w :: rest) (hu : Unharmed d 0 (tallyKey (nth v.tallies w.binding))) :
    advance d e =
      if stWait d v w = 0 then d
      else if stWait d v w = 2 then stFault d e stTallySat
      else match v.head, v.slots with
        | some h, [] => stSet d e (bundleEnd (waitPassed v w rest) h)
        | _, _ => stSet d e (waitPassed v w rest) := by
  simp only [advance, hv, hw, tallyLook_none hu] <;> rfl

theorem advance_saturated (hv : stGet d e = some v) (hw : v.waits = w :: rest)
    (hu : Unharmed d 0 (tallyKey (nth v.tallies w.binding))) (hx : stWait d v w = 2) : advance d e = stFault d e stTallySat := by
  rw [advance_wait hv hw hu, hx]; rfl

theorem advance_met_inside (hv : stGet d e = some v) (hw : v.waits = w :: rest)
    (hu : Unharmed d 0 (tallyKey (nth v.tallies w.binding))) (hx : stWait d v w = 1) (hin : v.head = none ∨ v.slots ≠ []) :
    advance d e = stSet d e (waitPassed v w rest) := by
  rw [advance_wait hv hw hu, hx, if_neg (by decide), if_neg (by decide)]
  split
  · next h hh hs => simp [hh, hs] at hin
  · rfl

theorem advance_met_last (hv : stGet d e = some v) (hw : v.waits = w :: rest)
    (hu : Unharmed d 0 (tallyKey (nth v.tallies w.binding))) (hx : stWait d v w = 1) {h : Nat} (hh : v.head = some h)
    (hs : v.slots = []) : advance d e = stSet d e (bundleEnd (waitPassed v w rest) h) := by
  rw [advance_wait hv hw hu, hx, if_neg (by decide), if_neg (by decide), hh, hs]

end

/-- A wait with a verdict is met or saturated now, and its stall counted. -/
theorem bundleWaitMetDev_judged {cls inst : Nat} {o : Otp} {d : Dev} {v : Stream} {w : WaitReq} {rest : List WaitReq}
    (hv : stGet d (ek cls inst) = some v) (hw : v.waits = w :: rest) (hx : stWait d v w ≠ 0) :
    bundleWaitMetDev cls inst o d = advance (stalled d (ek cls inst)) (ek cls inst) := by
  simp only [bundleWaitMetDev, hv, hw, hx, if_false]
  rfl

/-- A pending wait whose limit expires faults its stream. -/
theorem spWaitLimitDev_pending {cls inst : Nat} {o : Otp} {d : Dev} {v : Stream} {w : WaitReq} {rest : List WaitReq}
    (hv : stGet d (ek cls inst) = some v) (hw : v.waits = w :: rest) (hx : stWait d v w = 0) :
    spWaitLimitDev cls inst o d = stFault (stalled d (ek cls inst)) (ek cls inst) stWaitLimit := by
  simp only [spWaitLimitDev, hv, hw, hx, if_true]
  rfl

/-- Settles O4: the held block gives the bundle, and the verdict on the first wait picks the branch; counting the stall changes
neither streams nor tallies. -/
theorem bundlesIssueAndWait : Obligations.BundlesIssueAndWait := by
  refine ⟨?issue, ?wait⟩
  case issue =>
    intro cls inst s v bs hv hi hb
    have issued := bundleIssueDev_held (o := s.otp) hv hi hb
    exact ⟨fun hskip => (exec_bundleIssue ..).trans (runDev_of_agree (issued.trans (if_neg (not_not_intro hskip)))),
      fun hskip => (exec_bundleIssue ..).trans (runDev_of_agree (issued.trans (if_pos hskip)))⟩
  case wait =>
    intro cls inst s v w rest hv hw
    have met {x : Nat} (hx : stWait s.dev v w = x) (h0 : x ≠ 0) {d : Dev}
        (h : advance (stalled s.dev (ek cls inst)) (ek cls inst) = d) :
        exec (.bundleWaitMet cls inst) s = .next (settle (fun _ _ => d) s) :=
      (exec_bundleWaitMet ..).trans (runDev_of_agree ((bundleWaitMetDev_judged hv hw (hx ▸ h0)).trans h))
    have hv' : stGet (stalled s.dev (ek cls inst)) (ek cls inst) = some v := hv
    refine ⟨?inside, ?last, ?saturated, ?expired⟩
    case inside => exact fun hu hx hin => met hx (by decide) (advance_met_inside hv' hw hu hx hin)
    case last => exact fun hu hx h hh hs => met hx (by decide) (advance_met_last hv' hw hu hx hh hs)
    case saturated => exact fun hu hx => met hx (by decide) (advance_saturated hv' hw hu hx)
    case expired => exact fun hx => (exec_spWaitLimitExpiry ..).trans (runDev_of_agree (spWaitLimitDev_pending hv hw hx))

/-! ### Code fills -/

/-- A record is good when its bytes are and no more than three reads fail (R412). -/
theorem readRecord_snd (o : Otp) (d : Dev) (a : Nat) (good : Bool) (rr : Nat) :
    (readRecord o d a good rr).2 = (good && decide (rr < 4)) := by
  unfold readRecord
  by_cases h4 : 4 ≤ rr
  · simp [h4]
  · cases good
    · rfl
    · by_cases h0 : rr = 0 <;> simp [h4, Nat.lt_of_not_le h4, h0]

theorem isPrefetch_iff {e cache blk : Nat} {v : Stream} {p : Prefetch} :
    isPrefetch e v cache blk p = true ↔ p = ⟨e, cache, v.handle, v.gen, blk⟩ := by
  obtain ⟨pe, pc, ph, pg, pb⟩ := p
  simp [isPrefetch, and_assoc]

/-- The block after `blk` is one of the body, and is neither held nor on its way (R117). -/
def LacksNext (d : Dev) (e : Nat) (v : Stream) (cache blk : Nat) (g : Gen) : Prop :=
  blk + 1 < g.bodyLen / 1024 ∧ icFind d cache v.handle v.gen (blk + 1) = none ∧
    ¬∃ p ∈ d.prefetches, p = ⟨e, cache, v.handle, v.gen, blk + 1⟩

theorem lacksNext_iff {d : Dev} {e cache blk : Nat} {v : Stream} {g : Gen} :
    (decide (blk + 1 < g.bodyLen / 1024) && icFind d cache v.handle v.gen (blk + 1) == none &&
      !d.prefetches.any (isPrefetch e v cache (blk + 1))) = true ↔ LacksNext d e v cache blk g := by
  simp only [LacksNext, Bool.and_eq_true, decide_eq_true_eq, beq_iff_eq, Bool.not_eq_true', ← Bool.not_eq_true,
    List.any_eq_true, isPrefetch_iff, and_assoc]

section
variable {cls inst rr x : Nat} {o : Otp} {d d' : Dev} {v : Stream} {bs : List Byte} {g : Gen}

theorem demandFillDev_fails (hv : stGet d (ek cls inst) = some v) (hx : v.missing = some x)
    (hfill : codeFill o d v.handle v.gen (x % 65536) rr = (d', none)) :
    demandFillDev cls inst rr o d = stFault d' (ek cls inst) stCodeCrc := by
  simp only [demandFillDev, hv, hx, hfill]

/-- A demand fill that passes keeps the block and asks for the next one of the body, if that is lacking (R117). -/
theorem demandFillDev_asks (hv : stGet d (ek cls inst) = some v) (hx : v.missing = some x)
    (hfill : codeFill o d v.handle v.gen (x % 65536) rr = (d', some bs)) (hg : stGen d' v = some g)
    (h : LacksNext (icPut d' (x / 65536) v.handle v.gen (x % 65536) bs) (ek cls inst) v (x / 65536) (x % 65536) g) :
    demandFillDev cls inst rr o d =
      let held := icPut d' (x / 65536) v.handle v.gen (x % 65536) bs
      stMod { held with prefetches := held.prefetches ++ [⟨ek cls inst, x / 65536, v.handle, v.gen, x % 65536 + 1⟩] }
        (ek cls inst) (fun v => { v with missing := none }) := by
  have hg' : stGen (icPut d' (x / 65536) v.handle v.gen (x % 65536) bs) v = some g := hg
  simp only [demandFillDev, hv, hx, hfill, hg', lacksNext_iff.mpr h, if_true]

/-- With that next block at hand, it keeps the block and asks for none. -/
theorem demandFillDev_keeps (hv : stGet d (ek cls inst) = some v) (hx : v.missing = some x)
    (hfill : codeFill o d v.handle v.gen (x % 65536) rr = (d', some bs)) (hg : stGen d' v = some g)
    (h : ¬LacksNext (icPut d' (x / 65536) v.handle v.gen (x % 65536) bs) (ek cls inst) v (x / 65536) (x % 65536) g) :
    demandFillDev cls inst rr o d =
      stMod (icPut d' (x / 65536) v.handle v.gen (x % 65536) bs) (ek cls inst) (fun v => { v with missing := none }) := by
  have hg' : stGen (icPut d' (x / 65536) v.handle v.gen (x % 65536) bs) v = some g := hg
  simp only [demandFillDev, hv, hx, hfill, hg', eq_false_of_ne_true (mt lacksNext_iff.mp h), Bool.false_eq_true, if_false,
    List.append_nil]

end

/-- The engine's oldest prefetch is taken off the list; what its fill gives decides the rest. -/
theorem prefetchFillDev_oldest {cls inst rr : Nat} {o : Otp} {d : Dev} {pre post : List Prefetch} {p : Prefetch}
    (hl : d.prefetches = pre ++ p :: post) (hp : p.engine = ek cls inst) (hpre : ∀ x ∈ pre, x.engine ≠ ek cls inst) :
    prefetchFillDev cls inst rr o d =
      let r := codeFill o { d with prefetches := pre ++ post } p.handle p.gen p.blk rr
      match r.2 with
      | some bs => icPut r.1 p.cache p.handle p.gen p.blk bs
      | none => r.1 := by
  have hfind : d.prefetches.find? (fun x => x.engine == ek cls inst) = some p := by
    rw [hl, List.find?_append, List.find?_eq_none.mpr (by simpa using hpre), Option.none_or,
      List.find?_cons_of_pos (by simpa using hp)]
  have herase : d.prefetches.erase p = pre ++ post := by
    rw [hl, List.erase_append_right _ (fun h => hpre p h hp), List.erase_cons_head]
  simp only [prefetchFillDev, hfind, herase] <;> rfl

/-- Settles O5: a fill passes or fails by its CRC, its failed reads and nothing else; both kinds of fill follow that verdict. -/
theorem codeFills : Obligations.CodeFills := by
  refine ⟨?crc, ?demand, ?prefetch⟩
  case crc =>
    intro d o h n x rr g hg
    simp [codeFill, hg, readRecord_snd]
  case demand =>
    intro cls inst rr x s v d' bs hv hx e fill
    have run {y : Dev} (h : demandFillDev cls inst rr s.otp s.dev = y) :
        exec (.icacheDemandFill cls inst rr) s = .next (settle (fun _ _ => y) s) :=
      (exec_icacheDemandFill ..).trans (runDev_of_agree h)
    exact ⟨fun hfill => run (demandFillDev_fails hv hx hfill), fun g hfill hg =>
      ⟨fun h => run (demandFillDev_asks hv hx hfill hg h), fun h => run (demandFillDev_keeps hv hx hfill hg h)⟩⟩
  case prefetch =>
    intro cls inst rr s pre post p d' hl hp hpre fill
    have taken := prefetchFillDev_oldest (rr := rr) (o := s.otp) hl hp hpre
    refine ⟨fun bs hfill => ?_, fun hfill => ?_⟩ <;>
      exact (exec_icachePrefetchFill ..).trans (runDev_of_agree (taken.trans (by simp only [fill] at hfill; simp only [hfill])))

/-! ### Retirement -/

/-- Settles O6: nothing holds the stream back, and no statistics record is written. -/
theorem streamRetires : Obligations.StreamRetires := by
  intro cls inst s v hv hend hsigs hremote hstats
  have hdone : (v.final.isSome || (v.ending && v.head.isNone)) = true := by simpa using hend
  refine (exec_streamRetire ..).trans (runDev_of_agree ?_)
  simp [streamRetireDev, hv, hdone, hsigs, hremote, hstats]

/-! ### Start of a stream -/

/-- A stage with two checks, the first of them by its own status, is a stage for each. -/
theorem firstBad_pair_stage {st bad : Nat} {ok : Bool} (hbad : bad ≠ stOk) (f : Nat → Dev) (y : Dev) :
    (if firstBad [(st == stOk, st), (ok, bad)] ≠ stOk then f (firstBad [(st == stOk, st), (ok, bad)]) else y) =
      if st ≠ stOk then f st else if !ok then f bad else y := by
  by_cases hst : st = stOk <;> cases ok <;> simp [firstBad, hst, hbad]

/-- The parameter block is at hand: its CRC, the checks of Table 4-12 and the window of the code object, then the pin. -/
def runJudge (q sq rr a : Nat) (o : Otp) (v : Queue) (d : Dev) (r : Running) : Dev :=
  let x := recRead o d a (recAt d r a 512) (rrOf rr 0)
  if !x.2 then cmdFinal x.1 q sq stSpCrc 0
  else
    let sp := recAt x.1 r a 512
    let h := fld sp 0 2 % 1024
    let st := firstBad [(spChecks x.1 v.owner (r.engine / 32) sp == stOk, spChecks x.1 v.owner (r.engine / 32) sp),
      (spWindow x.1 v.owner h, stRrWindow)]
    if st ≠ stOk then cmdFinal x.1 q sq st 0
    else
      let g := (handleGet x.1 h).current
      let r := { r with started := true, work := [h, g] }
      startTds o (runMod (pinMod x.1 h g (· + 1)) q sq (fun _ => r)) q v r sp h g rr

section
variable {q rr : Nat} {o : Otp} {d : Dev} {v : Queue} {r : Running}

theorem dcRunDev_of_awaits (hw : Awaits d q v r (fun r => r.cmd.op == 0x01 && (stGet d r.engine).isNone)) :
    dcRunDev q rr o d =
      if !windowOk d v.owner (fld r.cmd.body 8 8) 512 false then cmdFinal d q r.cmd.cseq.toNat stRrWindow 0
      else if !isMul (fld r.cmd.body 8 8) 512 || !gaMapped d (fld r.cmd.body 8 8) 512 then
        cmdFinal d q r.cmd.cseq.toNat stAddrUnmapped 0
      else match r.work with
        | [h, g] => startTds o d q v r (recAt d r (fld r.cmd.body 8 8) 512) h g rr
        | _ => cmdOnce d q r [(fld r.cmd.body 8 8, 512)] (runJudge q r.cmd.cseq.toNat rr (fld r.cmd.body 8 8) o v) := by
  rw [dcRunDev, onActive_of_awaits hw]; rfl

/-- A block that passes its CRC is checked, then the window of its code object, and the current generation is pinned. -/
theorem runJudge_passes {sq a : Nat} (hcrc : (recRead o d a (recAt d r a 512) (rrOf rr 0)).2 = true) :
    runJudge q sq rr a o v d r =
      let d := (recRead o d a (recAt d r a 512) (rrOf rr 0)).1
      let sp := recAt d r a 512
      let h := fld sp 0 2 % 1024
      let st := spChecks d v.owner (r.engine / 32) sp
      let g := (handleGet d h).current
      let r := { r with started := true, work := [h, g] }
      if st ≠ stOk then cmdFinal d q sq st 0
      else if !spWindow d v.owner h then cmdFinal d q sq stRrWindow 0
      else startTds o (runMod (pinMod d h g (· + 1)) q sq (fun _ => r)) q v r sp h g rr := by
  simp only [runJudge, hcrc, Bool.not_true, Bool.false_eq_true, if_false]
  exact firstBad_pair_stage (by decide) (fun st => cmdFinal _ q sq st 0) _

/-- With its block in place, a command that has pinned nothing yet reads the block. -/
theorem dcRunDev_reads (hw : Awaits d q v r (fun r => r.cmd.op == 0x01 && (stGet d r.engine).isNone))
    (hwin : windowOk d v.owner (fld r.cmd.body 8 8) 512 false = true) (hmul : isMul (fld r.cmd.body 8 8) 512 = true)
    (hmap : gaMapped d (fld r.cmd.body 8 8) 512 = true) (hwork : r.work.length ≠ 2) :
    dcRunDev q rr o d =
      cmdOnce d q r [(fld r.cmd.body 8 8, 512)] (runJudge q r.cmd.cseq.toNat rr (fld r.cmd.body 8 8) o v) := by
  rw [dcRunDev_of_awaits hw, hwin, hmul, hmap]
  simp only [Bool.not_true, Bool.or_self, Bool.false_eq_true, if_false]
  split
  · next h g hpair => simp [hpair] at hwork
  · rfl

end

/-- Settles O7: the place of the block, its CRC, its checks and the code object's window are judged in this order, and the first
that fails gives the status. -/
theorem engineRunStarts : Obligations.EngineRunStarts := by
  intro q rr s v r hw sq a
  have run {d : Dev} (h : dcRunDev q rr s.otp s.dev = d) : exec (.dcRun q rr) s = .next (settle (fun _ _ => d) s) :=
    (exec_dcRun ..).trans (runDev_of_agree h)
  have begun := dcRunDev_of_awaits (rr := rr) (o := s.otp) hw
  refine ⟨fun hwin => ?outside, fun hwin hbad => ?stray, fun hwin hmul hmap hwork => ?inPlace⟩
  case outside => exact run (begun.trans (if_pos (congrArg not hwin)))
  case stray =>
    have stray : (!isMul a 512 || !gaMapped s.dev a 512) = true := by simpa using hbad
    exact run ((begun.trans (crcStage_goesOn hwin _ _)).trans (if_pos stray))
  case inPlace =>
    intro d r' hhere x
    have judged := (dcRunDev_reads (rr := rr) (o := s.otp) hw hwin hmul hmap hwork).trans (cmdOnce_here hhere _)
    refine ⟨fun hcrc => run (judged.trans (crcStage_ends hcrc _ _)), fun hcrc => ?_⟩
    have atChecks := judged.trans (runJudge_passes hcrc)
    refine ⟨fun hbad => run (atChecks.trans (if_pos hbad)), fun hok hwin => ?window, fun hok hwin => ?starts⟩
    all_goals have atWindow := atChecks.trans (if_neg (not_not_intro hok))
    case window => exact run (atWindow.trans (crcStage_ends hwin _ _))
    case starts => exact (exec_dcRun ..).trans (runDev_of_agree (atWindow.trans (crcStage_goesOn hwin _ _)))

end Sys2Proof.Machine
end

section
/-! Command queues (chapter 5): doorbells and the fetch of a ring's units, then dispatch, the two commands of the hub without an
engine, and the end of a command: the statements O35 and O36. A lemma follows each effect along the branch that its hypotheses
pick. -/
namespace Sys2Proof.Machine

/-! ### Doorbells -/

/-- How far the doorbell held reaches: 0 when none is held (R144). -/
def heldDist (v : Queue) : Nat :=
  match v.bell with
  | some (b, _) => bellDist v b
  | none => 0

/-- A producer index reaches further than the doorbell held when it is neither at DQ_CONS nor at most as far. -/
theorem heldDist_lt_iff {v : Queue} {n : Nat} :
    heldDist v < n ↔ 0 < n ∧ ∀ b sq, v.bell = some (b, sq) → bellDist v b < n := by
  rcases hb : v.bell with _ | ⟨b, sq⟩
  · simp [heldDist, hb]
  · simpa [heldDist, hb] using Nat.zero_lt_of_lt

section
variable {fn q : Nat} {val : W64} {o : Otp} {d : Dev} {v : Queue} {data : List Byte}

/-- A doorbell of the queue's owner that reaches further is out of range, or is held and its units are read. -/
theorem doorbellDev_of_further (hc : claimed d fn = true) (hq : bits val.toNat 56 8 = q) (hv : qGet d q = some v)
    (ho : v.owner = fn) (hf : heldDist v < bellDist v (BitVec.ofNat 24 (bits val.toNat 32 24))) :
    doorbellDev fn val o d =
      let prod := BitVec.ofNat 24 (bits val.toNat 32 24)
      let w := { v with bell := some (prod, BitVec.ofNat 32 val.toNat) }
      if 2 ^ v.k < bellDist v prod then if v.run = 1 then qHaltNoCmd d q v stDbRange 0 else d
      else fetchMore (qSet d q w) v w := by
  have further : ¬(bellDist v (BitVec.ofNat 24 (bits val.toNat 32 24)) = 0 ∨
      bellDist v (BitVec.ofNat 24 (bits val.toNat 32 24)) ≤ heldDist v) := by omega
  simp only [doorbellDev, hc, hq, hv, ho, Bool.not_true, Bool.false_eq_true, ne_eq, not_true_eq_false, if_false]
  exact if_neg further

/-- A completion doorbell of 1 to the records outstanding frees their entries, which lets a queue that had none fetch. -/
theorem cqDoorbellDev_of_range (hc : claimed d fn = true) (hq : bits val.toNat 56 8 = q) (hv : qGet d q = some v)
    (ho : v.owner = fn) (hlo : 1 ≤ subMod (2 ^ 24) (BitVec.ofNat 24 val.toNat).toNat v.cqCons.toNat)
    (hhi : subMod (2 ^ 24) (BitVec.ofNat 24 val.toNat).toNat v.cqCons.toNat ≤ subMod (2 ^ 24) v.cqIdx.toNat v.cqCons.toNat) :
    cqDoorbellDev fn val o d =
      let cons := BitVec.ofNat 24 val.toNat
      let w := { v with cqCons := cons, cqFull := v.cqFull && cqFree { v with cqCons := cons } == 0 }
      if cqFree v = 0 then fetchFrom (qSet d q w) w else qSet d q w := by
  simp only [cqDoorbellDev, hc, hq, hv, ho, Bool.not_true, Bool.false_eq_true, ne_eq, not_true_eq_false, if_false]
  exact if_pos ⟨hlo, hhi⟩

/-! ### Fetch -/

/-- A counter bears on no parse check. -/
theorem parseCmd_pcAdd (o : Otp) (d : Dev) (k n q : Nat) (v : Queue) (data : List Byte) :
    parseCmd o (pcAdd d k n) q v data = parseCmd o d q v data := rfl

theorem breakHits_pcAdd (d : Dev) (k n : Nat) (v : Queue) (q : Nat) (cnt : W64) (tag : Nat) (sq : W32) :
    breakHits (pcAdd d k n) v q cnt tag sq = breakHits d v q cnt tag sq := rfl

/-- Units that arrive while the queue may fetch and has a completion entry free are checked. -/
theorem commandFetchDev_of_fetchable (hv : qGet d q = some v) (hp : d.pow.phase = .hostReady) (hf : fetchable v = true)
    (hfree : cqFree v ≠ 0) :
    commandFetchDev q data o d =
      let d' := pcAdd d kHostRx data.length
      if !fetchOk v data then
        if v.refetch < 8 then qSet d' q { v with refetch := v.refetch + 1, backoff := true }
        else qHaltNoCmd d' q v stStaleRing 9
      else
        let c := parseCmd o d q v data
        let w := { v with refetch := 0, parsed := v.parsed ++ [c], count := v.count + 1, reserved := v.reserved + 1,
                          parsePt := v.parsePt + BitVec.ofNat 24 (bits c.ctl 0 2 + 1), parseSeq := v.parseSeq + 1 }
        settleHead (qSet ((breakHits d v q v.count c.tag c.cseq).foldl breakFire d') q { w with cqFull := cqFree w == 0 }) q := by
  have serves : ¬(d.pow.phase ≠ .hostReady ∨ (!fetchable v) = true) := by simp [hp, hf]
  simp only [commandFetchDev, hv, if_neg serves, if_neg hfree, parseCmd_pcAdd, breakHits_pcAdd]

end

/-- Settles O35: a doorbell's reach, a completion doorbell's range and the checks on the units that arrive pick the branch. -/
theorem ringsAreFetched : Obligations.RingsAreFetched := by
  intro q s v hv
  refine ⟨fun fn val hc hq ho => ?doorbells, fun data hp hf hfree => ?fetch, fun hrun hback => ?refetch⟩
  case doorbells =>
    refine ⟨fun further hin => ?held, fun further hout hrun => ?beyond, fun hlo hhi => ?completion⟩
    case held =>
      refine (exec_hubDqDoorbell ..).trans (runDev_of_agree ?_)
      exact (doorbellDev_of_further hc hq hv ho (heldDist_lt_iff.mpr further)).trans (if_neg (Nat.not_lt.mpr hin))
    case beyond =>
      refine (exec_hubDqDoorbell ..).trans (runDev_of_agree ?_)
      exact (doorbellDev_of_further hc hq hv ho (heldDist_lt_iff.mpr further)).trans ((if_pos hout).trans (if_pos hrun))
    case completion =>
      exact (exec_hubDqCqDoorbell ..).trans (runDev_of_agree (cqDoorbellDev_of_range hc hq hv ho hlo hhi))
  case fetch =>
    have judged := commandFetchDev_of_fetchable (data := data) (o := s.otp) hv hp hf hfree
    refine ⟨fun hok => ?parsed, fun hbad hfew => ?again, fun hbad hlast => ?stale⟩ <;>
      refine (exec_commandFetch ..).trans (runDev_of_agree (judged.trans ?_))
    case parsed => exact crcStage_goesOn hok _ _
    case again => exact (crcStage_ends hbad _ _).trans (if_pos hfew)
    case stale => exact (crcStage_ends hbad _ _).trans (if_neg (Nat.not_lt.mpr hlast))
  case refetch =>
    refine (exec_refetchBackoffExpiry ..).trans (runDev_of_agree ?_)
    simp only [backoffExpiryDev, hv]
    exact if_pos ⟨hrun, hback⟩

/-! ### Dispatch and the wait limit -/

section
variable {q : Nat} {o : Otp} {d : Dev} {v : Queue} {c : Cmd} {rest : List Cmd}

/-- The head of the queue that the front end serves fails for its tally, waits for its own command, or is dispatched. -/
theorem commandDispatchDev_of_next (hn : nextQueue d = some q) (hv : qGet d q = some v) (hc : v.parsed = c :: rest) :
    commandDispatchDev o d =
      if cmdWait d v c = 2 then holdFail d q v c stTallySat
      else if c.op = 0x20 ∨ c.op = 0x22 then d
      else dispatchHead d q v c rest := by
  simp only [commandDispatchDev, hn, hv, hc]

/-- A RUNNING queue whose next command waits for its tally or its bind slot is held at the limit. -/
theorem waitLimitDev_of_waiting (hv : qGet d q = some v) (hc : v.parsed = c :: rest) (hrun : v.run = 1)
    (hw : cmdWait d v c = 0 ∨ cmdWait d v c = 1 ∧ bindReady d v c = false) :
    waitLimitDev q o d = holdFail d q v c stWaitLimit := by
  simp only [waitLimitDev, hv, hc]
  exact if_pos ⟨hrun, by simpa using hw⟩

end

/-! ### DC_INLINE -/

section
variable {q : Nat} {o : Otp} {d d' : Dev} {v : Queue} {r : Running}

theorem QueuesOnly.windowOk (h : QueuesOnly d d') (fn ga n : Nat) (wr : Bool) :
    windowOk d' fn ga n wr = Machine.windowOk d fn ga n wr := by
  obtain ⟨m, rfl⟩ := h; rfl

theorem QueuesOnly.ownMapped (h : QueuesOnly d d') (ga n : Nat) : ownMapped d' ga n = Machine.ownMapped d ga n := by
  obtain ⟨m, rfl⟩ := h; rfl

/-- A fresh DC_INLINE is begun; the windows and the map that judge its destination are those from before. -/
theorem dcInlineDev_of_fresh (h : fresh d q (· == 0x03) = some (v, r)) :
    dcInlineDev q o d =
      let begun := runMod d q r.cmd.cseq.toNat (fun r => { r with started := true })
      let dst := fld r.cmd.body 0 8
      let n := fld r.cmd.body 8 2
      if !windowOk d v.owner dst n true then cmdFinal begun q r.cmd.cseq.toNat stRrWindow 0
      else if !ownMapped d dst n then cmdFinal begun q r.cmd.cseq.toNat stAddrUnmapped 0
      else cmdFinal (memWrite begun (localOf dst) ((r.cmd.body.drop 16).take n)) q r.cmd.cseq.toNat stOk 0 := by
  have frame := runMod_frame d q r.cmd.cseq.toNat (fun r => { r with started := true })
  simp only [dcInlineDev, onFresh_fresh h, frame.windowOk, frame.ownMapped]

end

/-! ### The end of a command -/

/-- A command whose status is final ends when it is done; before that its record is written when it is due. -/
theorem commandEnd_of_final {q : Nat} {sq : W32} {d : Dev} {v : Queue} {r : Running} (hv : qGet d q = some v)
    (hr : runGet v sq.toNat = some r) (hf : r.final ≠ none) :
    commandEnd q sq d =
      if runDone r then runEnd d q v r
      else if !r.recorded && (r.final != some stOk || bits r.cmd.ctl 2 2 == 0) then runRecord d q r
      else d := by
  simp only [commandEnd, hv, hr, if_neg hf]

/-- Settles O36: the queue served and its head's wait decide the dispatch; the windows and the map decide DC_INLINE; the final
status and what is still outstanding decide the record and the end. -/
theorem commandsRunAndEnd : Obligations.CommandsRunAndEnd := by
  refine ⟨fun q s v c rest hv hc => ?dispatch, fun q s v r => ⟨fun h => ?nop, fun h => ?inlined⟩,
    fun q sq s v r hv hr hf => ?ends⟩
  case dispatch =>
    have served {d : Dev} (h : commandDispatchDev s.otp s.dev = d) :
        exec .commandDispatch s = .next (settle (fun _ _ => d) s) :=
      (exec_commandDispatch s).trans (runDev_of_agree h)
    have atHead (hn : nextQueue s.dev = some q) := commandDispatchDev_of_next (o := s.otp) hn hv hc
    refine ⟨fun hn hw hbind hswitch => ?goes, fun hn hw hown => ?waits, fun hn hsat => ?fails, fun hrun hw => ?limit⟩
    case goes => exact served ((atHead hn).trans ((if_neg hw).trans (if_neg (not_or.mpr ⟨hbind, hswitch⟩))))
    case waits => exact served ((atHead hn).trans ((if_neg hw).trans (if_pos hown)))
    case fails => exact served ((atHead hn).trans (if_pos hsat))
    case limit => exact (exec_dqWaitLimitExpiry ..).trans (runDev_of_agree (waitLimitDev_of_waiting hv hc hrun hw))
  case nop => exact (exec_dcNop ..).trans (runDev_of_agree (onFresh_fresh h))
  case inlined =>
    have judged := dcInlineDev_of_fresh (o := s.otp) h
    refine ⟨fun hwin => ?window, fun hwin hmap => ?unmapped, fun hwin hmap => ?written⟩ <;>
      refine (exec_dcInline ..).trans (runDev_of_agree (judged.trans ?_))
    case window => exact crcStage_ends hwin _ _
    case unmapped => exact (crcStage_goesOn hwin _ _).trans (crcStage_ends hmap _ _)
    case written => exact (crcStage_goesOn hwin _ _).trans (crcStage_goesOn hmap _ _)
  case ends =>
    have atEnd := commandEnd_of_final hv hr hf
    refine ⟨fun hdone => ?done, fun hwait hdue hnow => ?record⟩ <;>
      refine (exec_commandDone ..).trans (runDev_of_agree (congrArg releaseDead (atEnd.trans ?_)))
    case done => exact if_pos hdone
    case record =>
      have due : (!r.recorded && (r.final != some stOk || bits r.cmd.ctl 2 2 == 0)) = true := by simpa [hdue] using hnow
      exact (if_neg (Bool.eq_false_iff.mp hwait)).trans (if_pos due)

end Sys2Proof.Machine
end

section
/-! Embedding lookup (chapter 6): the lookup and its outputs, row reads at their owner, the switches and binds of the Catalog, and
the Hot-Row Directory: the statements O15 to O19. A lemma follows each effect along the branch that its hypotheses pick. -/
namespace Sys2Proof.Machine

/-! ### DC_CAT_SWITCH and DC_EMB_BIND -/

/-- A command that is dispatched and carried out in one act is carried out on the device that its dispatch has left. -/
theorem onDispatch_dispatches {d d' : Dev} {q op : Nat} {c : Cmd} {v : Queue} {r : Running} {f : Dev → Queue → Running → Dev}
    (h : Dispatches d q op c d' v r) :
    onDispatch d q op f = f (runMod d' q r.cmd.cseq.toNat (fun r => { r with started := true })) v r := by
  obtain ⟨hnext, u, rest, hu, hparsed, hop, hwait, rfl, hfresh⟩ := h
  rw [← onFresh_fresh (f := f) hfresh]
  simp only [onDispatch, hnext, hu, hparsed, ne_eq, not_true_eq_false, if_false]
  exact if_pos ⟨hop, hwait⟩

/-- Settles O18: the step, the target and CAT_LAST_STEP pick what DC_CAT_SWITCH does, the owner and CAT_LAST_STEP what
DC_EMB_BIND does. -/
theorem switchesAndBinds : Obligations.SwitchesAndBinds := by
  intro q s c d' v r
  refine ⟨fun h => ?switch, fun h => ?bind⟩
  case switch =>
    have run {d : Dev} (hd : dcCatSwitchDev q s.otp s.dev = d) : exec (.dcCatSwitch q) s = .next (settle (fun _ _ => d) s) :=
      (exec_dcCatSwitch ..).trans (runDev_eq_settle hd)
    have judged : dcCatSwitchDev q s.otp s.dev = _ := onDispatch_dispatches h
    refine ⟨fun hall => ?disarms, fun hstep hbad => ?fails, fun hstep hok hlate => ?late, fun hstep hok hdue => ?arms⟩
    case disarms => exact run (judged.trans (if_pos hall))
    all_goals have atTarget := judged.trans (if_neg hstep)
    case fails => exact run (atTarget.trans (if_pos hbad))
    all_goals have atStep := atTarget.trans (if_neg (not_not_intro hok))
    case late => exact run (atStep.trans (if_pos hlate))
    case arms => exact run (atStep.trans (if_neg (Nat.not_le.mpr hdue)))
  case bind =>
    have run {d : Dev} (hd : dcEmbBindDev q s.otp s.dev = d) : exec (.dcEmbBind q) s = .next (settle (fun _ _ => d) s) :=
      (exec_dcEmbBind ..).trans (runDev_eq_settle hd)
    have judged : dcEmbBindDev q s.otp s.dev = _ := onDispatch_dispatches h
    refine ⟨fun hvirtual => ?records, fun hown hearly => ?early, fun hown hdue => ?takes⟩
    case records => exact run (judged.trans (if_pos hvirtual))
    all_goals have atStep := judged.trans (if_neg (not_not_intro hown))
    case early => exact run (atStep.trans (if_pos hearly))
    case takes => exact run (atStep.trans (if_neg (Nat.not_lt.mpr hdue)))

/-! ### DC_HRD_WRITE -/

theorem QueuesOnly.isOwn {d d' : Dev} (h : QueuesOnly d d') (ga : Nat) : isOwn d' ga = Machine.isOwn d ga := by
  obtain ⟨m, rfl⟩ := h; rfl

theorem QueuesOnly.mapped {d d' : Dev} (h : QueuesOnly d d') (a n : Nat) : mapped d' a n = Machine.mapped d a n := by
  obtain ⟨m, rfl⟩ := h; rfl

theorem QueuesOnly.hrdOp {d d' : Dev} (h : QueuesOnly d d') (list : Nat) : hrdOp d' list = Machine.hrdOp d list := by
  obtain ⟨m, rfl⟩ := h; rfl

/-- A fresh DC_HRD_WRITE is begun; the checks and the list are those of the device from before. -/
theorem dcHrdWriteDev_of_fresh {d : Dev} {q : Nat} {o : Otp} {v : Queue} {r : Running}
    (h : fresh d q (· == 0x21) = some (v, r)) :
    dcHrdWriteDev q o d =
      let b := r.cmd.body
      let sq := r.cmd.cseq.toNat
      let begun := runMod d q sq (fun r => { r with started := true })
      let n := fld b 8 4
      if !(isMul (fld b 0 8) 16 && isMul (fld b 16 8) 32 && isOwn d (fld b 0 8) && isOwn d (fld b 16 8) &&
          decide (1 ≤ n ∧ n ≤ 2 ^ 20)) then cmdFinal begun q sq stHrdList 0
      else if !(mapped d (localOf (fld b 0 8)) (16 * n) && mapped d (localOf (fld b 16 8)) 32) then
        cmdFinal begun q sq stAddrUnmapped 0
      else
        let x := (((List.range n).map (hrdOp d (fld b 0 8))).filter (fun x => bits x 56 2 == 2)).foldl hrdRemoveOp (begun, 0, 0)
        runMod x.1 q sq (fun r => { r with work := [x.2.1, x.2.2] }) := by
  have frame := runMod_frame d q r.cmd.cseq.toNat (fun r => { r with started := true })
  simp only [dcHrdWriteDev, onFresh_fresh h, frame.isOwn, frame.mapped, frame.hrdOp]

/-- Settles O19: the form of the list and the map judge the removals; the insert stage is one act of the begun command. -/
theorem hotRowsAreRewritten : Obligations.HotRowsAreRewritten := by
  intro q s v r
  refine ⟨fun h => ?write, fun h => ?insert⟩
  case write =>
    have judged := dcHrdWriteDev_of_fresh (o := s.otp) h
    refine ⟨fun hbad => ?list, fun hok hbad => ?unmapped, fun hok hthere => ?removed⟩ <;>
      refine (exec_dcHrdWrite ..).trans (runDev_of_agree (judged.trans ?_))
    case list => exact crcStage_ends hbad _ _
    case unmapped => exact (crcStage_goesOn hok _ _).trans (crcStage_ends hbad _ _)
    case removed => exact (crcStage_goesOn hok _ _).trans (crcStage_goesOn hthere _ _)
  case insert => exact (exec_hrdInsertStage ..).trans (runDev_of_agree (onActive_of_awaits h _))

/-! ### Row reads at their owner -/

section
variable {o : Otp} {d : Dev} {r : RowReq}

theorem rowArrive_noSide (h : catByGen (catGet d r.table) r.gen = none) : rowArrive o d r = rowRefuse d r stEmbGen := if_pos h

/-- A read of a generation that a side holds is held at closed gates, and served at open ones. -/
theorem rowArrive_side (h : (catByGen (catGet d r.table) r.gen).isSome) :
    rowArrive o d r = if rowPasses o d r then rowServe d r else { d with rowReqs := d.rowReqs ++ [{ r with held := true }] } :=
  if_neg (Option.isSome_iff_ne_none.mp h)

/-- A read of a row in place gives its lookup, which still waits, the row with its side entry; a hot slot is counted. -/
theorem rowServe_local {sd en : Nat} (hsd : catByGen (catGet d r.table) r.gen = some sd) (hen : r.engine = some en)
    (hclean : d.int.injects = []) (hrow : r.row < ceRows (catSide (catGet d r.table) sd))
    (hmap : mapped d (rowHome (catSide (catGet d r.table) sd) (cePlace (catSide (catGet d r.table) sd) r.row).2)
      (ceStride (catSide (catGet d r.table) sd)) = true) :
    rowServe d r =
      let ent := catSide (catGet d r.table) sd
      let got := rowBytes d r.table sd r.row ent (cePlace ent r.row).2
      let hit := if got.2 then pcAdd d (kEng en + 5) 1 else d
      if rowWanted d en r then lookGot hit en r.row (rowReply d ent got.1) else hit := by
  have inPlace : (!decide (r.row < ceRows (catSide (catGet d r.table) sd)) ||
      !mapped d (rowHome (catSide (catGet d r.table) sd) (cePlace (catSide (catGet d r.table) sd) r.row).2)
        (ceStride (catSide (catGet d r.table) sd))) = false := by simp [hrow, hmap]
  have wanted (n : Nat) : rowWanted (pcAdd d (kEng en + 5) n) en r = rowWanted d en r := rfl
  simp only [rowServe, catUse_clean hclean, hrdUse_clean hclean, hsd, inPlace, hen, Bool.false_eq_true, if_false,
    apply_ite (fun d => rowWanted d en r), wanted, ite_self]

/-- The bytes of a reply are judged by how far they reach from the start of the row. -/
theorem rowDataDev_of_wanted {port e row : Nat} {p : Pkt} {x : Req} {v : Stream} {l : Look}
    (hp : inboxFind d 0x11 = some (port, p)) (hx : reqGet d p.tag = some x) (hi : x.issuer = .stream e)
    (hv : stGet d e = some v) (hl : v.look = some l) (ht : l.tags.find? (fun t => t.1 == p.tag) = some (p.tag, row)) :
    rowDataDev o d =
      let ps := smGet [] l.parts p.tag ++ [(fld p.body 8 2, p.payload)]
      let bs := joinParts ps (ps.length + 1) []
      let keep := fun (d : Dev) parts =>
        stMod d e (fun v => { v with look := some { l with parts := smSet [] l.parts p.tag parts } })
      if replyLen l.entry bs ≤ bs.length then
        lookGot (reqSet (keep (takePkt d port p) []) p.tag none) e row (bs.take (replyLen l.entry bs))
      else keep (takePkt d port p) ps := by
  obtain ⟨pkt, issuer, off, resends, waiting⟩ := x
  subst hi
  have hx' : reqGet (takePkt d port p) p.tag = some ⟨pkt, .stream e, off, resends, waiting⟩ := by
    rw [← hx, reqGet, reqGet, takePkt_reqs]
  have hv' : stGet (takePkt d port p) e = some v := by rw [← hv, stGet, stGet, takePkt_streams]
  simp only [rowDataDev, onPacket, hp, hx', hv', hl, ht, Option.bind_some, Option.map_some]

end

/-- Settles O17: the side, the gates and the place of the row judge a read that comes to its gates; a held one is found by its
gates, and a ROW_DATA packet by its tag. -/
theorem rowReadsAreServed : Obligations.RowReadsAreServed := by
  refine ⟨fun s r => ⟨fun hfirst => ?own, fun port p hp => ?packet, fun hopen => ?passes, fun n hshut => ?expires⟩,
    fun s port p x e row v l hp hx hi hv hl ht => ?data⟩
  case own =>
    have arrives : rowReadDev true s.otp s.dev = rowArrive s.otp { s.dev with rowReqs := s.dev.rowReqs.erase r } r := by
      simp only [rowReadDev, hfirst, if_true]
    have run {d : Dev} (hd : rowArrive s.otp { s.dev with rowReqs := s.dev.rowReqs.erase r } r = d) :
        exec (.rowRead true) s = .next (settle (fun _ _ => d) s) :=
      (exec_rowRead ..).trans (runDev_eq_settle (arrives.trans hd))
    have atGates := rowArrive_side (o := s.otp) (d := { s.dev with rowReqs := s.dev.rowReqs.erase r }) (r := r)
    refine ⟨fun hnone => run (rowArrive_noSide hnone), fun hside hshut => ?held, fun sd en hside hopen hen hclean => ?served⟩
    case held => exact run ((atGates hside).trans (if_neg (Bool.eq_false_iff.mp hshut)))
    case served =>
      intro ent l hrow hmap got hit
      have reached := (atGates (Option.isSome_of_eq_some hside)).trans
        ((if_pos hopen).trans (rowServe_local hside hen hclean hrow hmap))
      exact ⟨fun hwant => run (reached.trans (if_pos hwant)),
        fun hwant => run (reached.trans (if_neg (Bool.eq_false_iff.mp hwant)))⟩
  case packet =>
    refine (exec_rowRead ..).trans (runDev_of_agree ?_)
    simp only [rowReadDev, onPacket, hp, Bool.false_eq_true, if_false]
  case passes =>
    refine (exec_rowGatePass ..).trans (runDev_of_agree ?_)
    simp only [rowGatePassDev, hopen]
  case expires =>
    refine (exec_rowGateTimeout ..).trans (runDev_of_agree ?_)
    simp only [rowGateTimeoutDev, hshut]
  case data =>
    have judged := rowDataDev_of_wanted (o := s.otp) hp hx hi hv hl ht
    exact ⟨fun hall => (exec_rowData ..).trans (runDev_of_agree (judged.trans (if_pos hall))),
      fun hpart => (exec_rowData ..).trans (runDev_of_agree (judged.trans (if_neg (Nat.not_le.mpr hpart))))⟩

/-! ### The outputs of a lookup, on the duplicate lane -/

section
variable (o : Otp) (d : Dev) (e : Nat) (key : Option Nat) (k : Dev → Dev)

theorem laneRun_agrees : laneRun o d e key 0 k = k (laneOp d e key) := rfl

/-- One mismatch is an event of the engine, and its recomputed result goes on. -/
theorem laneRun_recovers : laneRun o d e key 1 k = k (unitEvent o (laneNote (laneOp d e key) e key false) e 4 1) := rfl

/-- A second mismatch retires the engine, and nothing goes on. -/
theorem laneRun_retires (n : Nat) :
    laneRun o d e key (n + 2) k =
      let d := laneNote (laneNote (laneOp d e key) e key false) e key false
      stFault (if retired d e then d else retireUnit o d e) e stEngineRetired := by
  simp only [laneRun, laneTry]
  rfl

end

/-- A lookup whose rows are all there, none of its output bytes being written, runs its outputs on the duplicate lane. -/
theorem eRowsDev_of_arrived {inst mm : Nat} {o : Otp} {d : Dev} {v : Stream} {l : Look} (hv : stGet d (ek 3 inst) = some v)
    (hl : v.look = some l) (hneed : l.need = [])
    (hown : ownPending v (tdSpan (elTd v (elOut l.word)) ((elOutputs d v l).1.map (·.1))) = false) :
    eRowsDev inst mm o d = laneRun o d (ek 3 inst) none mm (fun d =>
      slotWrote (tdWrite (stMod (stFlags d (ek 3 inst) (elOutputs d v l).2) (ek 3 inst) (fun v => { v with look := none }))
        (elTd v (elOut l.word)) (elOutputs d v l).1 (.stream (ek 3 inst))) (ek 3 inst)) := by
  simp only [eRowsDev, hv, hl, hneed, hown, ne_eq, not_true_eq_false, Bool.false_eq_true, if_false]

/-- Settles O16: the outputs run on the duplicate lane, whose mismatches decide whether they go on. -/
theorem lookupWritesItsOutputs : Obligations.LookupWritesItsOutputs := by
  intro inst s v l hv hl hneed hown
  have arrived (mm : Nat) := eRowsDev_of_arrived (mm := mm) (o := s.otp) hv hl hneed hown
  refine ⟨?agrees, ?recovers, fun n => ?retires⟩ <;>
    refine (exec_eLookupRowsArrived ..).trans (runDev_of_agree ((arrived _).trans ?_))
  case agrees => exact laneRun_agrees ..
  case recovers => exact laneRun_recovers ..
  case retires => exact laneRun_retires ..

/-! ### E_LOOKUP -/

/-- The device once a slot has used its table, its bind slot and its output binding. -/
def elUsed (d : Dev) (e : Nat) (v : Stream) (w : Nat) : Dev :=
  markChecked (elMarkBind (catUse d (elTable w)) e v w) e (elOut w)

/-- The status of the checks of Table 6-13, on the device that has used what the slot names. -/
def elStatus (d : Dev) (v : Stream) (w : Nat) : Nat :=
  firstBad ((!modeStoch (elMode w) || tdStochOk (elTd v (elOut w)), stTdShape) :: elChecks d v w)

/-- The row that an index's class names, if it names one. -/
def elRow : Option Nat → Option Nat
  | some (c + 2) => some c
  | _ => none

/-- The rows that an execution's indices name, in order and with repeats. -/
def elNamed (d : Dev) (v : Stream) (w : Nat) : List Nat :=
  (elPositions d v w).filterMap (fun p => elRow (elClass (elEntry d v w) (elIndex d v w p.2)).1)

/-- With its indices classified, an execution asks for its rows, unless one of them has an owner out of reach. -/
def elAsk (e : Nat) (v : Stream) (w : Nat) (ent : List Byte) (rows : List Nat) (bar : Option Nat) (d : Dev)
    (pos : List (Nat × Nat × Nat)) (any : Bool) : Dev :=
  match bar with
  | some st => stFault d e st
  | none =>
    let d := pcAdd d (kEng e + 4) (elReads rows).length
    let d := elSummary d e w ⟨(pos.filter (fun p => decide (2 ≤ p.2.2))).length, elLongest d v w, any⟩
    let x := elIssue d e v w ent (elReads rows)
    stMod x.1 e (fun v => { v with look := some ⟨w, ent, pos, elReads rows, x.2, [], []⟩ })

theorem elAsk_inReach {e : Nat} {v : Stream} {w : Nat} {ent : List Byte} {rows : List Nat} {bar : Option Nat} {d : Dev}
    {pos : List (Nat × Nat × Nat)} {any : Bool} (h : bar = none) :
    elAsk e v w ent rows bar d pos any =
      let d := pcAdd d (kEng e + 4) (elReads rows).length
      let d := elSummary d e w ⟨(pos.filter (fun p => decide (2 ≤ p.2.2))).length, elLongest d v w, any⟩
      let x := elIssue d e v w ent (elReads rows)
      stMod x.1 e (fun v => { v with look := some ⟨w, ent, pos, elReads rows, x.2, [], []⟩ }) := by
  subst h; rfl

section
variable {inst : Nat} {o : Otp} {d : Dev} {v : Stream} {sl : Slot} {rest : List Slot}

/-- An E_LOOKUP with its bindings bound and its output writable is checked; then it reads its offsets, its indices and its
weights. -/
theorem eLookupDev_of_fronts (h : Fronts o d (ek 3 inst) v sl rest) (hop : isEbe 0x20 sl = true)
    (hbound : (elBindings sl.w).all (fun b => (stTd v b).isSome) = true)
    (hout : writeCheck (catUse d (elTable sl.w)) v (elOut sl.w) = stOk) :
    eLookupDev inst o d =
      let e := ek 3 inst
      let w := sl.w
      let d := elUsed d e v w
      let ent := elEntry d v w
      let ps := elPositions d v w
      if elStatus d v w ≠ stOk then stFault d e (elStatus d v w)
      else slotNeed d e v (elOfsRanges v w) <|
        slotNeed d e v (elRanges v (elIdx w) ps ++ (if elPool w = 4 then elRanges v (elWgt w) ps else [])) <|
          elClassify d e v w ent (elAsk e v w ent (elNamed d v w) (elBar d ent (elNamed d v w))) := by
  simp only [eLookupDev, onSlot_fronts h hop, hbound, hout, Bool.not_true, Bool.false_eq_true, ne_eq, not_true_eq_false, if_false]
  rfl

end

section
variable {d : Dev} {e : Nat} {v : Stream} {w : Nat} {ent : List Byte} {k : Dev → List (Nat × Nat × Nat) → Bool → Dev}

/-- The first index out of range under FAULT leaves its position in EBE_RANGE_POS and faults the stream. -/
theorem elClassify_faults {p : Nat × Nat}
    (hp : (elPositions d v w).find? (fun p => (elClass ent (elIndex d v w p.2)).1.isNone) = some p) :
    elClassify d e v w ent k =
      stFault (pcAdd { d with rangePos := smSet 0 d.rangePos (e % 32) p.2 } (kEng e + 3) (elPositions d v w).length) e
        stEmbRange := by
  simp only [elClassify, List.find?_map, Function.comp_def, hp, Option.map_some]

/-- Indices that all have a class are counted, the rows of zeros among them at their table. -/
theorem elClassify_classes (h : ∀ p ∈ elPositions d v w, (elClass ent (elIndex d v w p.2)).1.isSome) :
    elClassify d e v w ent k =
      let ps := elPositions d v w
      let cls := fun p : Nat × Nat => elClass ent (elIndex d v w p.2)
      let zeros := (ps.filter (fun p => (cls p).1 == some 1)).length
      k (catMod (pcAdd d (kEng e + 3) ps.length) (elTable w) (fun c =>
          { c with zeroHits := satAdd 32 c.zeroHits zeros, zeroSat := c.zeroSat || decide (2 ^ 32 ≤ c.zeroHits + zeros) }))
        (ps.map (fun p => (p.1, p.2, (cls p).1.getD 0)))
        ((elBags v w).any (fun b => (elSpan d v w b).2.2) || ps.any (fun p => (cls p).2)) := by
  have hnone : (elPositions d v w).find? (fun p => (elClass ent (elIndex d v w p.2)).1.isNone) = none :=
    List.find?_eq_none.mpr (fun p hp => by simpa [Option.isSome_iff_ne_none] using h p hp)
  simp only [elClassify, List.find?_map, Function.comp_def, hnone, Option.map_none, List.filter_map, List.length_map, List.map_map,
    List.any_map]
  rfl

end

/-- Settles O15: the checks, then the class of each index, decide how far the lookup goes; with every index classed and every
owner in reach it asks for its rows. -/
theorem lookupIssues : Obligations.LookupIssues := by
  intro inst s v sl rest hfr hop e w used d1 st ent ps cls hbound hout
  have judged := eLookupDev_of_fronts hfr hop hbound hout
  refine ⟨fun hbad => ?fails, fun hok hofs hidx => ?_⟩
  case fails => exact (exec_eLookup ..).trans (runDev_of_agree (judged.trans (if_pos hbad)))
  have classified := (judged.trans (if_neg (not_not_intro hok))).trans ((slotNeed_local hofs).trans (slotNeed_local hidx))
  refine ⟨fun p hp => ?outOfRange, fun hcls hbar => ?asks⟩ <;>
    refine (exec_eLookup ..).trans (runDev_of_agree (classified.trans ?_))
  case outOfRange => exact elClassify_faults hp
  case asks => exact (elClassify_classes hcls).trans (elAsk_inReach hbar)

end Sys2Proof.Machine
end

section
/-! Sparse gradients and row updates (chapter 7): E_ACCUM and the combiner that it folds into, DC_ROUTE_ROWS, fragments of rows
and their acknowledgements, and the apply of PUB entries: the statements O20 to O24. A lemma says once what a contribution can
do to a combiner; the effects are followed along the branch that their hypotheses pick. -/
namespace Sys2Proof.Machine

/-! ### The combiner -/

theorem recsUsed_eq_sum (l : List MRow) : recsUsed l = (l.map (fun r => recBytes r.cols.length)).sum := List.sum_eq_foldl.symm

theorem recsUsed_concat (l : List MRow) (r : MRow) : recsUsed (l ++ [r]) = recsUsed l + recBytes r.cols.length := by
  simp [recsUsed_eq_sum]

/-- A record that takes the place of one with as many columns uses the same bytes. -/
theorem recsUsed_setAt {l : List MRow} {i : Nat} {r : MRow} (hi : i < l.length) (h : r.cols.length = l[i].cols.length) :
    recsUsed (setAt l i r) = recsUsed l := by
  have same : (l.map (fun r => recBytes r.cols.length)).set i (recBytes r.cols.length) =
      l.map (fun r => recBytes r.cols.length) := by
    rw [h, ← List.getElem_map (fun r : MRow => recBytes r.cols.length) (h := by simpa using hi), List.set_getElem_self]
  rw [recsUsed_eq_sum, recsUsed_eq_sum, setAt, List.map_set, same]

theorem recAdd_cols_length (r : MRow) (xs : List Nat) : (recAdd r xs).1.cols.length = xs.length := by
  simp [recAdd]

/-- The place of a row's key in the directory. -/
def keyPlace (t row : Nat) (c : Combiner) : Option Nat := c.keys.findIdx? (fun r => r.table == t && r.row == row)

theorem keyPlace_isSome {t row : Nat} {c : Combiner} (h : ∃ r ∈ c.keys, r.table = t ∧ r.row = row) :
    (keyPlace t row c).isSome := by
  simpa [keyPlace, List.findIdx?_isSome] using h

theorem keyPlace_some {t row i : Nat} {c : Combiner} (h : keyPlace t row c = some i) :
    ∃ hi : i < c.keys.length, c.keys[i].table = t ∧ c.keys[i].row = row := by
  obtain ⟨hi, hkey, _⟩ := List.findIdx?_eq_some_iff_getElem.mp h
  exact ⟨hi, by simpa using hkey⟩

section
variable {t gen row : Nat} {xs : List Nat} {f : Fold}

theorem foldOne_held {i : Nat} (hfull : f.full = false) (h : keyPlace t row f.comb = some i) :
    (foldOne t gen f row xs).comb =
      let c := f.comb
      { c with keys := setAt c.keys i (recAdd (c.keys.getD i ⟨t, row, 0, gen, 0, c.step, []⟩) xs).1 } := by
  rw [keyPlace] at h
  simp only [foldOne, hfull, h, Bool.false_eq_true, if_false]

/-- A row that the directory lacks gets a key, a spill record, or neither, as the areas have room (R198, R199). -/
theorem foldOne_lacking (hfull : f.full = false) (h : keyPlace t row f.comb = none) :
    (foldOne t gen f row xs).comb =
      let c := f.comb
      if c.keys.length < 1048576 ∧ recsUsed c.keys + recBytes xs.length ≤ c.areaSize then
        { c with keys := c.keys ++ [(recAdd ⟨t, row, 0, gen, 0, c.step, xs.map (fun _ => (0, 0))⟩ xs).1] }
      else if recsUsed c.spills + recBytes xs.length ≤ c.spillSize then
        { c with spills := c.spills ++ [⟨t, row, 1, gen, 1, c.step, xs.map (fun x => (x, 0))⟩], spilled := true }
      else { c with state := 2 } := by
  rw [keyPlace] at h
  simp only [foldOne, hfull, h, Bool.false_eq_true, if_false, apply_ite Fold.comb]

end

/-- All that a contribution can do to the combiner: nothing, once a record did not fit; add to the record that the directory
holds; else a new key, a spill record, or the loss of the fold. -/
theorem foldOne_comb_cases (t gen row : Nat) (xs : List Nat) (f : Fold) :
    let c := f.comb
    let g := (foldOne t gen f row xs).comb
    (f.full = true ∧ g = c) ∨
    (∃ i r, keyPlace t row c = some i ∧ r.cols.length = xs.length ∧ g = { c with keys := setAt c.keys i r }) ∨
    keyPlace t row c = none ∧
      ((c.keys.length < 1048576 ∧ recsUsed c.keys + recBytes xs.length ≤ c.areaSize ∧
          ∃ r, r.cols.length = xs.length ∧ g = { c with keys := c.keys ++ [r] }) ∨
        (recsUsed c.spills + recBytes xs.length ≤ c.spillSize ∧
          ∃ r, r.cols.length = xs.length ∧ g = { c with spills := c.spills ++ [r], spilled := true }) ∨
        g = { c with state := 2 }) := by
  intro c g
  cases hfull : f.full with
  | true => exact .inl ⟨rfl, by simp only [g, c, foldOne, hfull, if_true]⟩
  | false =>
    right
    cases hplace : keyPlace t row c with
    | some i => exact .inl ⟨i, _, rfl, recAdd_cols_length .., foldOne_held hfull hplace⟩
    | none =>
      have lacking : g = _ := foldOne_lacking hfull hplace
      refine .inr ⟨rfl, ?_⟩
      by_cases hkey : c.keys.length < 1048576 ∧ recsUsed c.keys + recBytes xs.length ≤ c.areaSize
      · exact .inl ⟨hkey.1, hkey.2, _, recAdd_cols_length .., lacking.trans (if_pos hkey)⟩
      · right
        by_cases hspill : recsUsed c.spills + recBytes xs.length ≤ c.spillSize
        · exact .inl ⟨hspill, _, List.length_map .., lacking.trans ((if_neg hkey).trans (if_pos hspill))⟩
        · exact .inr (lacking.trans ((if_neg hkey).trans (if_neg hspill)))

/-- Settles O21: a held row keeps the sizes of the directory, and a new record is taken only where its bytes fit. -/
theorem combinerStaysInItsAreas : Obligations.CombinerStaysInItsAreas := by
  intro t gen row xs f hkeys harea hspill hcols g
  have lacks (hnone : keyPlace t row f.comb = none) : ¬∃ r ∈ f.comb.keys, r.table = t ∧ r.row = row :=
    fun h => by simpa [hnone] using keyPlace_isSome h
  rcases foldOne_comb_cases t gen row xs f with
    ⟨hfull, hg⟩ | ⟨i, r, hplace, hr, hg⟩ | ⟨hnone, ⟨hroom, hfits, r, hr, hg⟩ | ⟨hfits, r, hr, hg⟩ | hg⟩ <;>
    rw [show g = _ from hg]
  case inl => exact ⟨hkeys, harea, hspill, rfl, rfl, fun h => by simp [hfull] at h⟩
  case inr.inl =>
    obtain ⟨hi, htable, hrow⟩ := keyPlace_some hplace
    have keysLength : (setAt f.comb.keys i r).length = f.comb.keys.length := List.length_set
    have keysUsed := recsUsed_setAt hi (hr.trans (hcols _ (List.getElem_mem hi) htable hrow).symm)
    exact ⟨Nat.le_trans (Nat.le_of_eq keysLength) hkeys, Nat.le_trans (Nat.le_of_eq keysUsed) harea, hspill, rfl, rfl,
      fun _ _ => ⟨keysLength, rfl⟩⟩
  case inr.inr.inl =>
    refine ⟨?_, ?_, hspill, rfl, rfl, fun _ h => absurd h (lacks hnone)⟩
    · rw [List.length_append, List.length_singleton]
      exact hroom
    · rwa [recsUsed_concat, hr]
  case inr.inr.inr.inl =>
    refine ⟨hkeys, harea, ?_, rfl, rfl, fun _ h => absurd h (lacks hnone)⟩
    rwa [recsUsed_concat, hr]
  case inr.inr.inr.inr => exact ⟨hkeys, harea, hspill, rfl, rfl, fun _ h => absurd h (lacks hnone)⟩

/-! ### E_ACCUM -/

/-- With its indices classified, an execution folds its contributions on the duplicate lane, into the combiner `c` of its
engine or, when that is EMPTY, into one opened for `step`. -/
def eaLand (inst mm : Nat) (o : Otp) (v : Stream) (w : Nat) (ent : List Byte) (c : Combiner) (step : Nat) (d : Dev)
    (pos : List (Nat × Nat × Nat)) (_any : Bool) : Dev :=
  let e := ek 3 inst
  laneRun o d e none mm (fun d =>
    let frozen := cuRule ent == 0
    let c0 := if frozen || c.state != 0 then c else { c with state := 1, step := step }
    let f := eaFold d v w (ceGen ent) (ceDim ent) c0 (if frozen then [] else pos)
    let d := combPut (combSet d inst f.comb) c f.comb
    let d := pcAdd (pcAdd (stFlags d e f.fl) (kEng e + 7) f.contrib) (kEng e + 8) f.spilled
    if f.full then stFault d e stCombFull
    else slotDone (elSummary d e w ⟨f.added, f.comb.keys.length, f.comb.spilled⟩) e)

/-- An E_ACCUM reads its combiner, is judged, reads its records, and classifies its indices. -/
theorem eAccumDev_of_fronts {inst mm : Nat} {o : Otp} {d : Dev} {v : Stream} {sl : Slot} {rest : List Slot}
    (h : Fronts o d (ek 3 inst) v sl rest) (hop : isEbe 0x30 sl = true) :
    eAccumDev inst mm o d =
      let e := ek 3 inst
      let w := sl.w
      let d := combUse d inst
      let c := combGet d inst
      let step := (smGet bind0 d.binds (elBindKey v w)).step
      let d1 := elMarkBind d e v w
      let st := firstBad (elChecks d1 v w ++ [(c.state == 0 || c.step == step, stCombStep)])
      let ent := elEntry d1 v w
      let ps := elPositions d1 v w
      if v.fn ≠ 0 then stFault d e stRrResource
      else if !(elBindings w).all (fun b => (stTd v b).isSome) then stFault d e stSpUnbound
      else if st ≠ stOk then stFault d1 e st
      else slotNeed d1 e v (elOfsRanges v w) <|
        slotNeed d1 e v (elRanges v (elIdx w) ps ++ (if elPool w = 4 then elRanges v (elWgt w) ps else []) ++
            eaRanges v w (ps.map (·.1)).eraseDups) <|
          elClassify d1 e v w ent (eaLand inst mm o v w ent c step) := by
  simp only [eAccumDev, onSlot_fronts h hop]
  rfl

/-- Settles O20: the function, the bindings and the checks are judged in this order; with its records at hand the execution
classifies and folds, no mismatch holding up the duplicate lane. -/
theorem accumulateFolds : Obligations.AccumulateFolds := by
  intro inst s v sl rest hfr hop e w use c step d1 ent ps st
  have run {d : Dev} (h : eAccumDev inst 0 s.otp s.dev = d) :
      exec (.eAccum inst 0) s = .next (settle (fun _ _ => d) s) := (exec_eAccum ..).trans (runDev_eq_settle h)
  have begun := eAccumDev_of_fronts (mm := 0) hfr hop
  refine ⟨fun hvirtual => run (begun.trans (if_pos hvirtual)), fun hown hbound => ?_⟩
  have atChecks := (begun.trans (if_neg (not_not_intro hown))).trans (crcStage_goesOn hbound _ _)
  refine ⟨fun hbad => run (atChecks.trans (if_pos hbad)), fun hok hofs hall => ?_⟩
  have atFold := (atChecks.trans (if_neg (not_not_intro hok))).trans ((slotNeed_local hofs).trans (slotNeed_local hall))
  exact (exec_eAccum ..).trans (runDev_of_agree atFold)

/-! ### DC_ROUTE_ROWS -/

theorem firstBad_fails {ok : Bool} {st : Nat} {t : List (Bool × Nat)} (h : ok = false) : firstBad ((ok, st) :: t) = st := by
  rw [h]; rfl

theorem firstBad_passes {ok : Bool} {st : Nat} {t : List (Bool × Nat)} (h : ok = true) :
    firstBad ((ok, st) :: t) = firstBad t := by
  rw [h]; rfl

/-- A stage whose checks have failed ends with the status of the first failure. -/
theorem statusStage_ends {st bad : Nat} (h : st = bad) (hbad : bad ≠ stOk) (f : Nat → Dev) (y : Dev) :
    (if st ≠ stOk then f st else y) = f bad := by
  rw [h, if_pos hbad]

/-- What bars the first of the records whose owner is another module (R369, R374); a discarding route sends none. -/
def routeBar (d : Dev) (discard : Bool) (recs : List MRow) : Option Nat :=
  if discard then none else recs.findSome? (fun r =>
    let e := catEntry d r.table r.gen
    if e = [] ∨ ceOwner d e r.row = ownCoord d then none else remoteBar d (ceOwner d e r.row))

theorem routeBar_eq_none {d : Dev} {discard : Bool} {recs : List MRow}
    (h : discard = true ∨ ∀ x ∈ recs, let e := catEntry d x.table x.gen
      e = [] ∨ ceOwner d e x.row = ownCoord d ∨ remoteBar d (ceOwner d e x.row) = none) :
    routeBar d discard recs = none := by
  rcases h with h | h
  · exact if_pos h
  · rw [routeBar, List.findSome?_eq_none_iff.mpr, ite_self]
    intro x hx
    rcases h x hx with hgone | hown | hopen
    · exact if_pos (.inl hgone)
    · exact if_pos (.inr hown)
    · exact ite_eq_left_iff.mpr fun _ => hopen

/-- The status of the checks of DC_ROUTE_ROWS, on the device that has begun it. -/
def routeStatus (d : Dev) (fn : Nat) (b : List Byte) : Nat :=
  let c := combGet d (fld b 0 1 % 32)
  let res := fld b 16 8
  firstBad [((fld b 1 1).testBit 0 || !(c.state == 2 || (c.state == 1 && c.step != fld b 8 8)), stCombState),
    (isMul res 32 && isOwn d res, stCombResult), (windowOk d fn res 32 true, stRrWindow),
    (mapped d (localOf res) 32, stAddrUnmapped)]

/-- With its checks passed and every owner in reach, a route sends or discards the records, and ends when it awaits nobody. -/
def routeGo (o : Otp) (q sq : Nat) (mms : List Nat) (discard : Bool) (recs : List MRow) (d : Dev) : Dev :=
  let d := runMod d q sq (fun v => { v with work := [0, 0, 0, 0, 0] })
  let d := if discard then d else ((List.range recs.length).zip recs).foldl (routeOne o q sq mms) d
  match (qGet d q).bind (fun v => runGet v sq) with
  | some r => if r.remote = [] then routeFinish d q r else d
  | none => d

/-- A route one of whose owners is out of reach fails, and sends nothing. -/
def routeReach (bar : Option Nat) (q sq : Nat) (d : Dev) (go : Dev → Dev) : Dev :=
  match bar with
  | some st => cmdFinal d q sq st 0
  | none => go d

theorem routeReach_none {bar : Option Nat} (h : bar = none) (q sq : Nat) (d : Dev) (go : Dev → Dev) :
    routeReach bar q sq d go = go d := by
  subst h; rfl

theorem dcRouteRowsDev_of_fresh {q : Nat} {mms : List Nat} {o : Otp} {d : Dev} {v : Queue} {r : Running}
    (h : fresh d q (· == 0x28) = some (v, r)) :
    dcRouteRowsDev q mms o d =
      let b := r.cmd.body
      let sq := r.cmd.cseq.toNat
      let d := combUse (runMod d q sq (fun r => { r with started := true })) (fld b 0 1 % 32)
      let c := combGet d (fld b 0 1 % 32)
      let discard := (fld b 1 1).testBit 0
      if routeStatus d v.owner b ≠ stOk then cmdFinal d q sq (routeStatus d v.owner b) 0
      else routeReach (routeBar d discard (c.keys ++ c.spills)) q sq d (routeGo o q sq mms discard (c.keys ++ c.spills)) :=
  onFresh_fresh h

/-- Settles O22: the directory's state, the result address, its window and the map are judged in this order; then, with no owner
out of reach, the records are sent or discarded. -/
theorem routeSendsRecords : Obligations.RouteSendsRecords := by
  intro q mms s v r h b sq begun d0 c res discard okState okRes okWin okMap fail recs
  have judged := dcRouteRowsDev_of_fresh (mms := mms) (o := s.otp) h
  have fails {st : Nat} (hst : routeStatus d0 v.owner b = st) (hbad : st ≠ stOk) : fail st :=
    (exec_dcRouteRows ..).trans (runDev_of_agree (judged.trans (statusStage_ends hst hbad (cmdFinal d0 q sq · 0) _)))
  refine ⟨fun h1 => ?state, fun h1 h2 => ?result, fun h1 h2 h3 => ?window, fun h1 h2 h3 h4 => ?unmapped,
    fun h1 h2 h3 h4 hbar => ?sent⟩
  case state => exact fails (firstBad_fails h1) (by decide)
  all_goals have atResult : routeStatus d0 v.owner b = firstBad [(okRes, stCombResult), (okWin, stRrWindow),
    (okMap, stAddrUnmapped)] := firstBad_passes h1
  case result => exact fails (atResult.trans (firstBad_fails h2)) (by decide)
  all_goals have atWindow := atResult.trans (firstBad_passes h2)
  case window => exact fails (atWindow.trans (firstBad_fails h3)) (by decide)
  all_goals have atMap := atWindow.trans (firstBad_passes h3)
  case unmapped => exact fails (atMap.trans (firstBad_fails h4)) (by decide)
  case sent =>
    have ok : routeStatus d0 v.owner b = stOk := atMap.trans (firstBad_passes h4)
    have inReach : routeBar d0 discard recs = none := routeBar_eq_none hbar
    exact (exec_dcRouteRows ..).trans
      (runDev_of_agree ((judged.trans (if_neg (not_not_intro ok))).trans (routeReach_none inReach ..)))

/-! ### Fragments and their acknowledgements -/

/-- The first packet of a kind is taken and acted on. -/
theorem onPacket_found {d : Dev} {kind port : Nat} {p : Pkt} (h : inboxFind d kind = some (port, p))
    (f : Dev → Nat → Pkt → Dev) : onPacket d kind f = f (takePkt d port p) port p := by
  simp only [onPacket, h]

section
variable {o : Otp} {d : Dev} {port : Nat} {p : Pkt}

/-- At a relay, an acknowledgement goes on to both senders, unless the entry is lost. -/
theorem mrowAckDev_relayed {r : Relay} (hp : inboxFind d 0x31 = some (port, p)) (hr : smGet none d.fab.relay p.tag = some r) :
    mrowAckDev o d =
      let d := takePkt d port p
      let u := ctlUse { d with fab := { d.fab with relay := smSet none d.fab.relay p.tag none } } 8 (16 + p.tag)
      if u.2 then u.1 else sendNew (sendNew u.1 0x31 r.to1 r.tag1 p.body []) 0x31 r.to2 r.tag2 p.body [] := by
  simp only [mrowAckDev, onPacket_found hp, takePkt_relay, hr]

/-- One of a route is taken off the command. -/
theorem mrowAckDev_routed {x : Req} {q sq : Nat} (hp : inboxFind d 0x31 = some (port, p))
    (hr : smGet none d.fab.relay p.tag = none) (hx : reqGet d p.tag = some x) (hi : x.issuer = .cmd q sq) :
    mrowAckDev o d = routeAck (reqSet (takePkt d port p) p.tag none) q sq p.tag (fld p.body 0 1 == 2) := by
  obtain ⟨pkt, issuer, off, resends, waiting⟩ := x
  subst hi
  have hx' : reqGet (takePkt d port p) p.tag = some ⟨pkt, .cmd q sq, off, resends, waiting⟩ := by
    rw [← hx, reqGet, reqGet, takePkt_reqs]
  simp only [mrowAckDev, onPacket_found hp, takePkt_relay, hr, hx']

end

/-- Settles O23: a fragment is taken from the inbox; the relay table and the requests say whom an acknowledgement is for. -/
theorem fragmentsAreAcknowledged : Obligations.FragmentsAreAcknowledged := by
  intro s port p
  refine ⟨fun hp => ?fragment, fun hp => ⟨fun r hr => ?relayed, fun x q sq hr hx hi => ?routed⟩⟩
  case fragment => exact (exec_mrow ..).trans (runDev_of_agree (onPacket_found hp _))
  case relayed =>
    intro look
    have relayed := mrowAckDev_relayed (o := s.otp) hp hr
    exact ⟨fun hkept => (exec_mrowAck ..).trans (runDev_of_agree (relayed.trans (if_neg (Bool.eq_false_iff.mp hkept)))),
      fun hlost => (exec_mrowAck ..).trans (runDev_of_agree (relayed.trans (if_pos hlost)))⟩
  case routed => exact (exec_mrowAck ..).trans (runDev_of_agree (mrowAckDev_routed hp hr hx hi))

/-! ### The apply of PUB entries -/

/-- The hub and the Hot-Row Directory are read for the row of a record (R413). -/
def pubArraysRead (d : Dev) (r : MRow) : Dev :=
  match catByGen (catGet d r.table) r.gen with
  | some side => hrdUse (catUse d r.table) r.table side r.row
  | none => catUse d r.table

theorem pubArraysRead_clean {d : Dev} (h : d.int.injects = []) (r : MRow) : pubArraysRead d r = d := by
  rw [pubArraysRead]
  split
  · rw [catUse_clean h, hrdUse_clean h]
  · exact catUse_clean h r.table

/-! Counters, flags and journal entries bear on no place of a row, and on no entry of the Catalog. -/

theorem recPlaces_pcAdd (d : Dev) (k n : Nat) (r : MRow) : recPlaces (pcAdd d k n) r = recPlaces d r := rfl

theorem spansRead_pcAdd (d : Dev) (k n : Nat) (l : List (Nat × Nat)) : spansRead (pcAdd d k n) l = spansRead d l := rfl

theorem catEntry_pcAdd (d : Dev) (k n t g : Nat) : catEntry (pcAdd d k n) t g = catEntry d t g := rfl

theorem catEntry_raiseFlags (d : Dev) (e fl t g : Nat) : catEntry (raiseFlags d e fl) t g = catEntry d t g := rfl

theorem catEntry_journalPut (d : Dev) (base je cap : Nat) (parts : List Byte) (t g : Nat) :
    catEntry (journalPut d base je cap parts) t g = catEntry d t g := by
  obtain ⟨_, _, written⟩ := memWrite_frame d (base + je * freePick d.freeIdx 0 cap)
    ((List.range 64).map (fun j => Config.freeByte (d.freeIdx * 4294967296 + j)) ++ parts)
  rw [journalPut, written]
  rfl

/-- Entry `e` of a pair is applied for the act `a`, once the arrays have been read (R215 to R218, R292). -/
def pubApplyRow (n : Nat) (bad : Bool) (o : Otp) (a : Act) (e : PubEntry) (p : Pair) (units : Nat × Nat) (d : Dev) : Dev :=
  let r := (pubRecord e).1
  let undo := spansRead d (recPlaces d r)
  let ent := catEntry d r.table r.gen
  let d := journalPut (raiseFlags d (ek 3 units.1) (pubRecord e).2) p.jBase p.je (pairCap p) (rowImage d r)
  let x := rowApply d r a.step a.clip
  let audit := cuHasMaster ent && (cePlace ent r.row).2 % 64 == a.step % 64
  let d := raiseFlags x.1 (ek 4 units.2) x.2
  let d := if audit then unitOp d (ek 4 units.2) (2 ^ 24) 1 else d
  let d := if audit && bad then auditFault o d units.2 else d
  let left := p.entries.erase e
  pcAdd (pairMod d n (fun p =>
    if left.any (fun x => (pubKey x).2.2.2 == a.step) then { p with entries := left, rowsDone := p.rowsDone ++ undo }
    else { p with entries := left, rowsDone := [], applied := a.step, applying := false })) (kPair n + 1) 1

/-- An entry whose pair applies the step, has a journal and waits for no reservation is applied, or lost with its pair's rows. -/
theorem pubApplyDev_of_entry {n i recov : Nat} {bad lost : Bool} {o : Otp} {d : Dev} {a : Act} {e : PubEntry}
    (hact : d.act = some a) (hentry : (pubOf (pairGet d n) a.step)[i]? = some e) (happly : (pairGet d n).applying = true)
    (hkind : a.kind ≠ 2) (hjournal : 0 < pairCap (pairGet d n)) (hresv : allReserved d = true) :
    pubApplyDev n i recov bad lost o d =
      let d' := pcAdd d (kPair n + 3) recov
      if lost then pairLost d' n a.step a.clip
      else pubApplyRow n bad o a e (pairGet d n) (pairServe o d n) (pubArraysRead d' (pubRecord e).1) := by
  have goesOn :
      ¬((!(pairGet d n).applying) = true ∨ a.kind = 2 ∨ pairCap (pairGet d n) = 0 ∨ (!allReserved d) = true) := by
    simp [happly, hkind, hresv, Nat.ne_of_gt hjournal]
  simp only [pubApplyDev, hact, hentry, if_neg goesOn, catEntry_journalPut, catEntry_raiseFlags]
  rfl

/-- Settles O24: no injected flip strikes the arrays that an entry reads, so it is applied to the module as it stands; a second
fault loses the pair's rows before any is read. -/
theorem entriesAreApplied : Obligations.EntriesAreApplied := by
  intro n i recov bad s a e hact hentry happly hkind hjournal hresv p count r units undo left fin
  have judged (lost : Bool) := pubApplyDev_of_entry (recov := recov) (bad := bad) (lost := lost) (o := s.otp) hact hentry happly
    hkind hjournal hresv
  refine ⟨fun hclean => ?applied, ?lost⟩
  case applied =>
    have clean : (count s.dev).int.injects = [] := hclean
    have read : pubArraysRead (count s.dev) r = count s.dev := pubArraysRead_clean clean r
    have atRow := (judged false).trans ((if_neg Bool.false_ne_true).trans (congrArg (pubApplyRow n bad s.otp a e p units) read))
    refine (exec_pubEntryApply ..).trans (runDev_of_agree (atRow.trans ?_))
    simp only [count, pubApplyRow, recPlaces_pcAdd, spansRead_pcAdd, catEntry_pcAdd]
    rfl
  case lost => exact (exec_pubEntryApply ..).trans (runDev_of_agree ((judged true).trans (if_pos rfl)))

end Sys2Proof.Machine
end

section
/-! Verdicts (chapter 11): those that arrive, the requests for them, and the commands that wait for one: the statement O31. A
lemma follows each effect along the branch that its hypotheses pick. -/
namespace Sys2Proof.Machine

/-! ### Verdicts that arrive -/

section
variable (d : Dev) (port : Nat) (p : Pkt)

theorem guardChildren_takePkt (c : GuardCfg) : guardChildren (takePkt d port p) c = guardChildren d c := by
  obtain ⟨_, _, h⟩ := takePkt_frame d port p; rw [h]; rfl

theorem guardParent_takePkt (c : GuardCfg) : guardParent (takePkt d port p) c = guardParent d c := by
  obtain ⟨_, _, h⟩ := takePkt_frame d port p; rw [h]; rfl

theorem verdictFor_takePkt (step : Nat) : verdictFor (takePkt d port p) step = verdictFor d step := by
  rw [verdictFor, takePkt_guard, verdictFor]

theorem guardPacket_takePkt (x : Pkt) : guardPacket (takePkt d port p) x = guardPacket d x := by
  simp only [guardPacket, takePkt_guard]

end

section
variable {o : Otp} {d : Dev} {v : List Byte}

/-- The verdict of an abandoned step is dropped, and logged if it is no SKIP (R305). -/
theorem takeVerdict_abandoned (h : d.guard.abandoned.contains (vdStep v) = true) :
    takeVerdict o d v = if vdKind v = 2 then d else log6 d stGuardDropped 0 0 := if_pos h

/-- A second copy is compared with the first. -/
theorem takeVerdict_again {w : List Byte} (h : d.guard.abandoned.contains (vdStep v) = false)
    (hw : verdictFor d (vdStep v) = some w) :
    takeVerdict o d v = if w = v then d else logRec d 3 3 11 0 0 stCtlLost 0 false [] := by
  simp only [takeVerdict, h, hw, Bool.false_eq_true, if_false]

/-- A first copy goes to the children and is kept. -/
theorem takeVerdict_first {c : GuardCfg} (h : d.guard.abandoned.contains (vdStep v) = false)
    (hw : verdictFor d (vdStep v) = none) (hc : d.guard.cfg = some c) :
    takeVerdict o d v =
      keepVerdict o ((guardChildren d c).foldl (fun d x => sendNew d 0x39 x 0 (natLe 2 c.group) v) d) v := by
  simp only [takeVerdict, h, hw, hc, Bool.false_eq_true, if_false]

end

/-- A VERDICT packet of the guard brings a verdict; another is dropped. -/
theorem verdictDev_found {o : Otp} {d : Dev} {port : Nat} {p : Pkt} (hp : inboxFind d 0x39 = some (port, p)) :
    verdictDev o d =
      if guardPacket d p then takeVerdict o (takePkt d port p) (p.payload.take 32) else takePkt d port p := by
  rw [verdictDev, onPacket_found hp, guardPacket_takePkt]

/-! ### Requests -/

section
variable {o : Otp} {d : Dev} {c : GuardCfg}

/-- A module that lacks the verdict of its step asks its parent. -/
theorem verdictTimerDev_asks {x : Nat} (hc : d.guard.cfg = some c) (hm : verdictMissing d = true)
    (hx : guardParent d c = some x) :
    verdictTimerDev o d =
      sendNew (pcAdd d (kGuard + 4) 1) 0x3A x 0 (natLe 2 c.group ++ zeros 2 ++ natLe 8 d.guard.submitted) [] := by
  simp only [verdictTimerDev, hc, hm, hx, Bool.not_true, Bool.false_eq_true, if_false]

theorem verdictTimerDev_root (hc : d.guard.cfg = some c) (hroot : guardParent d c = none) : verdictTimerDev o d = d := by
  simp only [verdictTimerDev, hc, hroot, ite_self]

/-- The limit logs the late verdict once, and sends the vector when one is set. -/
theorem verdictLimitDev_missing (hm : verdictMissing d = true) (hlate : d.guard.late = false) :
    verdictLimitDev o d =
      let logged := log6 (guardMod d (fun g => { g with late := true })) stGuardLate 0 0
      if d.int.vector = 0xFFFF then logged else msixSend logged 0 d.int.vector.toNat := by
  simp only [verdictLimitDev, hm, hlate, Bool.not_true, Bool.or_self, Bool.false_eq_true, if_false]
  rfl

end

section
variable {o : Otp} {d : Dev} {c : GuardCfg} {port : Nat} {p : Pkt} (hp : inboxFind d 0x3A = some (port, p))
  (hc : d.guard.cfg = some c)
include hp hc

/-- The verdict that a node holds answers the request. -/
theorem verdictReqDev_answers {w : List Byte}
    (hw : (d.guard.verdicts ++ d.guard.computed).find? (fun r => vdStep r == fld p.body 4 8) = some w) :
    verdictReqDev o d = sendNew (takePkt d port p) 0x39 p.src 0 (natLe 2 c.group) w := by
  simp only [verdictReqDev, onPacket_found hp, takePkt_guard, hc, hw]

variable (hnone : (d.guard.verdicts ++ d.guard.computed).find? (fun r => vdStep r == fld p.body 4 8) = none)
include hnone

/-- A node that holds none passes the request on to its parent. -/
theorem verdictReqDev_passes {x : Nat} (hx : guardParent d c = some x) :
    verdictReqDev o d =
      sendNew (takePkt d port p) 0x3A x 0 (natLe 2 c.group ++ zeros 2 ++ natLe 8 (fld p.body 4 8)) [] := by
  simp only [verdictReqDev, onPacket_found hp, takePkt_guard, hc, hnone, guardParent_takePkt, hx]

theorem verdictReqDev_ends (hroot : guardParent d c = none) : verdictReqDev o d = takePkt d port p := by
  simp only [verdictReqDev, onPacket_found hp, takePkt_guard, hc, hnone, guardParent_takePkt, hroot]

end

/-! ### DC_VERDICT_WAIT -/

theorem QueuesOnly.verdictFor {d d' : Dev} (h : QueuesOnly d d') (step : Nat) :
    verdictFor d' step = Machine.verdictFor d step := by
  obtain ⟨m, rfl⟩ := h; rfl

theorem QueuesOnly.verLastStep {d d' : Dev} (h : QueuesOnly d d') : d'.verLastStep = d.verLastStep := by
  obtain ⟨m, rfl⟩ := h; rfl

/-- The status of the checks of R306. -/
def verdictWaitStatus (d : Dev) (fn : Nat) (b : List Byte) : Nat :=
  let step := fld b 0 8
  let res := fld b 16 8
  let last := d.verLastStep.toNat
  firstBad [(decide (step ≤ last + 1) && (decide (last < step) || (verdictFor d step).isSome), stGuardStep),
    (res == 0 || windowOk d fn res 32 true, stRrWindow), (res == 0 || mapped d (localOf res) 32, stAddrUnmapped)]

/-- A fresh DC_VERDICT_WAIT is begun; the checks and the kept verdicts are those of the device from before. -/
theorem dcVerdictWaitDev_of_fresh {q : Nat} {o : Otp} {d : Dev} {v : Queue} {r : Running}
    (h : fresh d q (· == 0x31) = some (v, r)) :
    dcVerdictWaitDev q o d =
      let begun := runMod d q r.cmd.cseq.toNat (fun r => { r with started := true })
      let st := verdictWaitStatus d v.owner r.cmd.body
      if st ≠ stOk then cmdFinal begun q r.cmd.cseq.toNat st 0
      else (verdictFor d (fld r.cmd.body 0 8)).elim begun (verdictDone begun q r) := by
  have frame := runMod_frame d q r.cmd.cseq.toNat (fun r => { r with started := true })
  simp only [dcVerdictWaitDev, onFresh_fresh h, verdictWaitStatus, frame.verdictFor, frame.verLastStep, frame.windowOk,
    frame.mapped]
  refine ite_congr rfl (fun _ => rfl) (fun _ => ?_)
  cases verdictFor d (fld r.cmd.body 0 8) <;> rfl

/-- Settles O31: a verdict is judged by its packet, its step and the copy kept; a request by the verdict kept and the tree; a
wait by the checks of R306 and the verdict kept. -/
theorem verdictsAreDelivered : Obligations.VerdictsAreDelivered := by
  refine ⟨fun s port p hp => ?arrives, fun q port s v r c p => ?asked⟩
  case arrives =>
    intro vd aside
    have run {d : Dev} (h : verdictDev s.otp s.dev = d) : exec .verdict s = .next (settle (fun _ _ => d) s) :=
      (exec_verdict ..).trans (runDev_eq_settle h)
    have found := verdictDev_found (o := s.otp) hp
    refine ⟨fun hforeign => run (found.trans (if_neg (Bool.eq_false_iff.mp hforeign))), fun hguard => ?_⟩
    have taken := found.trans (if_pos hguard)
    have aside' {b : Bool} (h : aside = b) : (takePkt s.dev port p).guard.abandoned.contains (vdStep vd) = b := by
      rw [takePkt_guard]; exact h
    have kept {w : Option (List Byte)} (h : verdictFor s.dev (vdStep vd) = w) :
        verdictFor (takePkt s.dev port p) (vdStep vd) = w := (verdictFor_takePkt ..).trans h
    refine ⟨fun c hc haside hnone => ?first, fun haside hsame => ?same, fun w haside hw hne => ?differs,
      fun haside hskip => ?skip, fun haside hother => ?dropped⟩
    case first =>
      have hc' : (takePkt s.dev port p).guard.cfg = some c := by rw [takePkt_guard]; exact hc
      have atKeep := taken.trans (takeVerdict_first (aside' haside) (kept hnone) hc')
      rw [guardChildren_takePkt] at atKeep
      exact (exec_verdict ..).trans (runDev_of_agree atKeep)
    case same => exact run (taken.trans ((takeVerdict_again (aside' haside) (kept hsame)).trans (if_pos rfl)))
    case differs => exact run (taken.trans ((takeVerdict_again (aside' haside) (kept hw)).trans (if_neg hne)))
    case skip => exact run (taken.trans ((takeVerdict_abandoned (aside' haside)).trans (if_pos hskip)))
    case dropped => exact run (taken.trans ((takeVerdict_abandoned (aside' haside)).trans (if_neg hother)))
  case asked =>
    intro sq begun step res last held ask
    refine ⟨fun hc hm => ?timer, fun hlate => ?already, fun hm hlate => ?limit, fun hp hc => ?request, fun h => ?wait,
      fun hw => ?expiry⟩
    case timer =>
      exact ⟨fun x hx => (exec_verdictRequestTimer ..).trans (runDev_of_agree (verdictTimerDev_asks hc hm hx)),
        fun hroot => (exec_verdictRequestTimer ..).trans (runDev_of_agree (verdictTimerDev_root hc hroot))⟩
    case already =>
      exact (exec_verdictLimitExpiry ..).trans (runDev_of_agree (if_pos (by rw [hlate, Bool.or_true])))
    case limit =>
      have missing := verdictLimitDev_missing (o := s.otp) hm hlate
      exact ⟨fun hnone => (exec_verdictLimitExpiry ..).trans (runDev_of_agree (missing.trans (if_pos hnone))),
        fun hset => (exec_verdictLimitExpiry ..).trans (runDev_of_agree (missing.trans (if_neg hset)))⟩
    case request =>
      intro asked kept
      exact ⟨fun w hw => (exec_verdictReq ..).trans (runDev_of_agree (verdictReqDev_answers hp hc hw)),
        fun x hnone hx => (exec_verdictReq ..).trans (runDev_of_agree (verdictReqDev_passes hp hc hnone hx)),
        fun hnone hroot => (exec_verdictReq ..).trans (runDev_of_agree (verdictReqDev_ends hp hc hnone hroot))⟩
    case wait =>
      intro st
      have judged := dcVerdictWaitDev_of_fresh (o := s.otp) h
      refine ⟨fun hbad => (exec_dcVerdictWait ..).trans (runDev_of_agree (judged.trans (if_pos hbad))), fun hok => ?_⟩
      have atKept := judged.trans (if_neg (not_not_intro hok))
      have onHeld {w : Option (List Byte)} (hw : held = w) :
          dcVerdictWaitDev q s.otp s.dev = w.elim (begun s.dev) (verdictDone (begun s.dev) q r) := by rw [← hw]; exact atKept
      exact ⟨fun x hx => (exec_dcVerdictWait ..).trans (runDev_of_agree (onHeld hx)),
        fun hnone => (exec_dcVerdictWait ..).trans (runDev_of_agree (onHeld hnone))⟩
    case expiry => exact (exec_verdictWaitExpiry ..).trans (runDev_of_agree (onActive_of_awaits hw _))

end Sys2Proof.Machine
end

section
/-! The matrix engine and the Collator (chapters 8 and 15): limit and scale registers, products, drains and the check of a tile: the
statements O10 to O13. A slot of the engine is followed from the front of its bundle through its access patterns and its checks to
the stage that its hypotheses pick. -/
namespace Sys2Proof.Machine

/-- Checks that all pass give ST_OK. -/
theorem firstBad_eq_stOk {cs : List (Bool × Nat)} (h : ∀ c ∈ cs, c.1 = true) : firstBad cs = stOk := by
  induction cs with
  | nil => rfl
  | cons c cs ih => exact (firstBad_passes (h c List.mem_cons_self)).trans (ih (fun x hx => h x (List.mem_cons_of_mem c hx)))

/-- Changing the stream of an engine that runs one sets it to what the change makes of it. -/
theorem stMod_of_runs {d : Dev} {e : Nat} {v : Stream} (h : stGet d e = some v) (f : Stream → Stream) :
    stMod d e f = stSet d e (f v) := by
  simp only [stMod, h]

/-! ### Limits and scales -/

section
variable {inst : Nat} {o : Otp} {d : Dev} {v : Stream} {sl : Slot} {rest : List Slot}

theorem mLimitDev_misaligned (h : Fronts o d (ek 1 inst) v sl rest) (hop : isCompute 3 sl = true)
    (hmul : isMul (param64 v (bits sl.w 50 6)) 8 = false) : mLimitDev inst o d = stFault d (ek 1 inst) stMxLimit := by
  rw [mLimitDev, onSlot_fronts h hop]
  exact statusStage_ends (firstBad_fails hmul) (by decide) (stFault d (ek 1 inst)) _

/-- A count record in its place sets the limit register to the smaller bound. -/
theorem mLimitDev_sets (h : Fronts o d (ek 1 inst) v sl rest) (hop : isCompute 3 sl = true)
    (hmul : isMul (param64 v (bits sl.w 50 6)) 8 = true)
    (hwin : windowOk d v.fn (param64 v (bits sl.w 50 6)) 4 false = true) (hmap : gaMapped d (param64 v (bits sl.w 50 6)) 4 = true)
    (hhere : gaMissing d v.rbuf [(param64 v (bits sl.w 50 6), 4)] = []) :
    mLimitDev inst o d = slotDone (stMod d (ek 1 inst) (fun u =>
      { u with lims := smSet 0 u.lims (bits sl.w 48 2)
                 (min (leNat (gaRead d v.rbuf (param64 v (bits sl.w 50 6)) 4)) (param v (bits sl.w 50 6 + 2))) })) (ek 1 inst) := by
  have passes : firstBad [(isMul (param64 v (bits sl.w 50 6)) 8, stMxLimit),
      (windowOk d v.fn (param64 v (bits sl.w 50 6)) 4 false, stRrWindow),
      (gaMapped d (param64 v (bits sl.w 50 6)) 4, stAddrUnmapped)] = stOk := firstBad_eq_stOk (by simp [hmul, hwin, hmap])
  rw [mLimitDev, onSlot_fronts h hop]
  dsimp only
  have ⟨hv, _⟩ := h
  rw [if_neg (not_not_intro passes), slotNeed_local hhere, stMod_of_runs hv, stMod_of_runs hv]

/-- A scale load with its access pattern at hand: the shape of the tile is judged, then its positions fill the registers. -/
def scaleLoadAt (inst : Nat) (v : Stream) (w : Nat) (t : Td) (d : Dev) (ap : List Byte) : Dev :=
  let is := apTile ap (loopCtrs v) t.ndim
  if t.etype ≠ 7 ∨ apFits ap t.ndim = false ∨ 256 < is.length then stFault d (ek 1 inst) stMxShape
  else slotNeed d (ek 1 inst) v (tdRanges t is)
    (slotDone (scaleWrites d inst (256 * (bits w 8 8 - 0x20)) (is.map (tdRead d v.rbuf t))) (ek 1 inst))

theorem mxeScaleLoadDev_bound {t : Td} (h : Fronts o d (ek 1 inst) v sl rest) (hk : sl.kind = 1 ∨ sl.kind = 2)
    (hlo : 0x20 ≤ bits sl.w 8 8) (hhi : bits sl.w 8 8 ≤ 0x2F) (ht : stTd v (bits sl.w 24 4) = some t) :
    mxeScaleLoadDev inst o d = withAp d (ek 1 inst) v (bits sl.w 16 8) (scaleLoadAt inst v sl.w t) := by
  rw [mxeScaleLoadDev, onSlot_fronts h]
  · simp only [ht]
    rfl
  · simp [hk, hlo, hhi]

end

/-- Settles O10: the place of the count record decides M_LIMIT, a stream starts with no limit set, and the shape of its tile
decides a scale load. -/
theorem limitsAndScalesLoad : Obligations.LimitsAndScalesLoad := by
  refine ⟨⟨fun inst s v sl rest hfr hop => ⟨fun hmul => ?misaligned, fun hmul hwin hmap hhere => ?limit⟩, ?fresh⟩, ?scales⟩
  case misaligned => exact (exec_mLimit ..).trans (runDev_of_agree (mLimitDev_misaligned hfr hop hmul))
  case limit => exact (exec_mLimit ..).trans (runDev_of_agree (mLimitDev_sets hfr hop hmul hwin hmap hhere))
  case fresh => exact fun d q fn h g pos k r sp tds => rfl
  case scales =>
    intro inst s v sl rest t g blk hfr hk hlo hhi ht hg e off ap is held hblk
    have atTile := (mxeScaleLoadDev_bound hfr hk hlo hhi ht).trans (withAp_held hg hblk)
    refine ⟨fun hbad => ?shape, fun htype hfit hlen hhere => ?fills⟩ <;>
      refine (exec_mxeScaleLoad ..).trans (runDev_of_agree (atTile.trans ?_))
    case shape => exact if_pos hbad
    case fills =>
      have fits : ¬(t.etype ≠ 7 ∨ apFits ap t.ndim = false ∨ 256 < is.length) := by simp [htype, hfit, hlen]
      exact (if_neg fits).trans (slotNeed_local hhere)

/-! ### Products -/

/-- A product with its operands bound: the checks of Table 8-6, the saturated-position bits, then the operand bytes. -/
def mmaJudge (inst : Nat) (v : Stream) (x : MSet) (word : Nat) (d : Dev) : Dev :=
  if mStatus d v x ≠ stOk then stFault d (ek 1 inst) (mStatus d v x)
  else if (satLook d inst v x).2 then stFault (satLook d inst v x).1 (ek 1 inst) stCtlLost
  else slotNeed (satLook d inst v x).1 (ek 1 inst) v (mRanges v x) (mForm (satLook d inst v x).1 (ek 1 inst) v x word)

/-- An M_MMA with its access patterns at hand: skipped, or its bindings looked up and judged. -/
def mmaAt (inst : Nat) (v : Stream) (word : Nat) (apA : List Byte) (d : Dev) (apB : List Byte) : Dev :=
  let q := mmaParse word
  if mSkips v q then
    slotDone (pcAdd (stMod d (ek 1 inst) (fun v => if q.clr then accVoid v q.acc else v)) (kEng (ek 1 inst) + 4)
      (apExt apA 0 * apExt apA 1 * apExt apB (if q.tb then 1 else 0))) (ek 1 inst)
  else match stTd v q.a, stTd v q.b with
    | some ta, some tb =>
      let x := mSetOf v q ta tb apA apB
      if ((q.s24 || tb.esc) && (stTd v q.md).isNone) || (q.occ && x.mskT.isNone) then stFault d (ek 1 inst) stSpUnbound
      else mmaJudge inst v x word d
    | _, _ => stFault d (ek 1 inst) stSpUnbound

section
variable {inst word : Nat} {d : Dev} {v : Stream} {apA apB : List Byte}

theorem mMmaDev_of_fronts {o : Otp} {sl : Slot} {rest : List Slot} (h : Fronts o d (ek 1 inst) v sl rest)
    (hop : isCompute 1 sl = true) :
    mMmaDev inst o d = withAp d (ek 1 inst) v (bits sl.w 40 8) (fun d apA =>
      withAp d (ek 1 inst) v (bits sl.w 32 8) (mmaAt inst v sl.w apA)) := by
  rw [mMmaDev, onSlot_fronts h hop]
  rfl

theorem mmaAt_bound {ta tb : Td} (hskip : mSkips v (mmaParse word) = false) (ha : stTd v (mmaParse word).a = some ta)
    (hb : stTd v (mmaParse word).b = some tb)
    (hbound : ((((mmaParse word).s24 || tb.esc) && (stTd v (mmaParse word).md).isNone) ||
      ((mmaParse word).occ && (stTd v (mmaParse word).ob).isNone)) = false) :
    mmaAt inst v word apA d apB = mmaJudge inst v (mSetOf v (mmaParse word) ta tb apA apB) word d := by
  have mask : ((mmaParse word).occ && (mSetOf v (mmaParse word) ta tb apA apB).mskT.isNone) =
      ((mmaParse word).occ && (stTd v (mmaParse word).ob).isNone) := by
    cases hocc : (mmaParse word).occ <;> simp [mSetOf, hocc]
  simp only [mmaAt, hskip, ha, hb, mask, hbound, Bool.false_eq_true, if_false]

end

/-- Settles O11: the gate or the freeze group, the checks of Table 8-6 and the saturated-position bits decide in this order; past
them, with its operands at hand, the product forms. -/
theorem productsForm : Obligations.ProductsForm := by
  intro inst s v sl rest g ba bb hfr hop hg e q offA offB heldA held apA apB hA hB
  have run {f : Otp → Dev → Dev} (h : mmaAt inst v sl.w apA (held s.dev) apB = f s.otp s.dev) :
      exec (.mMma inst) s = .next (settle f s) :=
    (exec_mMma ..).trans (runDev_of_agree
      ((mMmaDev_of_fronts hfr hop).trans ((withAp_held hg hA).trans ((withAp_held (d := heldA s.dev) hg hB).trans h))))
  refine ⟨fun hskip => run (if_pos hskip), fun ta tb hskip ha hb hbound => ?_⟩
  have judged : mmaAt inst v sl.w apA (held s.dev) apB = mmaJudge inst v (mSetOf v q ta tb apA apB) sl.w (held s.dev) :=
    mmaAt_bound hskip ha hb hbound
  refine ⟨fun hbad => run (judged.trans (if_pos hbad)), fun hok hlost => ?lost, fun hok hkept hhere => ?forms⟩
  all_goals have atBits := judged.trans (if_neg (not_not_intro hok))
  case lost => exact run (atBits.trans (if_pos hlost))
  case forms => exact run ((atBits.trans (if_neg (Bool.eq_false_iff.mp hkept))).trans (slotNeed_local hhere))

/-! ### Drains -/

/-- A slot of an engine that awaits nothing, once done, has changed nothing but the streams. -/
theorem slotDone_frame {d : Dev} {e : Nat} {v : Stream} (h : stGet d e = some v) (hw : v.waits = []) :
    StreamsOnly d (slotDone d e) := by
  rw [slotDone, stMod_of_runs h]
  exact (stSet_frame d e _).trans (advance_frame_met (stGet_stSet d e _) hw)

/-- A binding that has passed its write checks passes them again. -/
theorem writeChecks_checked {d : Dev} {v : Stream} {b : Nat} (h : v.checked.contains b = true) : writeChecks d v [b] = stOk := by
  have pass : writeCheck d v b = stOk := if_pos h
  simp only [writeChecks, List.map_cons, List.map_nil, pass]
  decide

/-- The status of the checks of a drain's types, shape, accumulator, scales and hash (R239, R240, R248). -/
def drainVerdict (v : Stream) (q : Drain) (t : Td) (aux : Option Td) (ap : List Byte) : Nat :=
  firstBad [(drainTypes q (accGet v q.acc) t aux, stMxType),
    (drainShape q t ap (((apTile ap (loopCtrs v) t.ndim).headD []).getD 0 0), stMxShape),
    ((accGet v q.acc).typ != 3 || q.acc % 2 == 0, stMxAcc), (q.mode != 1 || decide (q.sbase + nth t.ext 0 ≤ 4096), stMxScale),
    (!modeStoch q.nm || q.mode == 1 || q.mode == 2 || tdStochOk t, stTdShape)]

theorem drainVerdict_passes {v : Stream} {q : Drain} {t : Td} {aux : Option Td} {ap : List Byte}
    (htype : drainTypes q (accGet v q.acc) t aux = true)
    (hshape : drainShape q t ap (((apTile ap (loopCtrs v) t.ndim).headD []).getD 0 0) = true)
    (hacc : (accGet v q.acc).typ ≠ 3 ∨ q.acc % 2 = 0) (hscale : q.mode = 1 → q.sbase + nth t.ext 0 ≤ 4096)
    (hstoch : modeStoch q.nm = false ∨ q.mode = 1 ∨ q.mode = 2 ∨ tdStochOk t = true) : drainVerdict v q t aux ap = stOk := by
  refine firstBad_eq_stOk ?_
  have hscale' : q.mode ≠ 1 ∨ q.sbase + nth t.ext 0 ≤ 4096 := Decidable.imp_iff_not_or.mp hscale
  simpa only [List.forall_mem_cons, htype, hshape, Bool.or_eq_true, Bool.not_eq_true', bne_iff_ne, beq_iff_eq, decide_eq_true_eq,
    or_assoc, true_and, List.not_mem_nil, false_imp_iff, implies_true, and_true] using ⟨hacc, hscale', hstoch⟩

section
variable {inst : Nat} {o : Otp} {d : Dev} {v : Stream} {sl : Slot} {rest : List Slot} {t : Td}

theorem mDrainDev_void (h : Fronts o d (ek 1 inst) v sl rest) (hop : isCompute 2 sl = true)
    (hvoid : (accGet v (drainParse sl.w).acc).valid = false) : mDrainDev inst o d = slotDone d (ek 1 inst) := by
  rw [mDrainDev, onSlot_fronts h hop]
  exact if_pos (congrArg not hvoid)

/-- A drain to memory without block scales, its output checked, reads its access pattern, is judged and stores. -/
theorem mDrainDev_mem (h : Fronts o d (ek 1 inst) v sl rest) (hop : isCompute 2 sl = true)
    (hvalid : (accGet v (drainParse sl.w).acc).valid = true) (ht : stTd v (drainParse sl.w).out = some t)
    (hfab : (drainParse sl.w).fab = false) (haux : ((drainParse sl.w).grad && (drainParse sl.w).gfmt == 3) = false)
    (hchk : v.checked.contains (drainParse sl.w).out = true) :
    mDrainDev inst o d =
      let e := ek 1 inst
      let q := drainParse sl.w
      withAp (markChecked d e q.out) e v (bits sl.w 44 8) (fun d ap =>
        let items := drainItems ap (loopCtrs v) t (accGet v q.acc)
        if drainVerdict v q t none ap ≠ stOk then stFault d e (drainVerdict v q t none ap)
        else slotStore d e v t (items.map (·.1)) (drainMem (if q.mode = 3 then bump d else d) e inst v q t items)) := by
  rw [mDrainDev, onSlot_fronts h hop]
  simp only [hvalid, hfab, haux, ht, writeChecks_checked hchk, Bool.false_and, Bool.not_true, Bool.false_eq_true, if_false, ne_eq,
    not_true_eq_false]
  rfl

/-- A drain to a collective reads its access pattern, is judged, and hands over where its channel takes it. -/
theorem mDrainDev_fab (h : Fronts o d (ek 1 inst) v sl rest) (hop : isCompute 2 sl = true)
    (hvalid : (accGet v (drainParse sl.w).acc).valid = true) (ht : stTd v (drainParse sl.w).out = some t)
    (hfab : (drainParse sl.w).fab = true) :
    mDrainDev inst o d =
      let e := ek 1 inst
      let q := drainParse sl.w
      withAp d e v (bits sl.w 44 8) (fun d ap =>
        let items := drainItems ap (loopCtrs v) t (accGet v q.acc)
        if drainVerdict v q t none ap ≠ stOk then stFault d e (drainVerdict v q t none ap)
        else if drainChan d v q t ap items ≠ stOk then stFault d e (drainChan d v q t ap items)
        else drainFab d e inst v q t items) := by
  rw [mDrainDev, onSlot_fronts h hop]
  simp only [hvalid, hfab, ht, Option.isNone_some, Bool.and_false, Bool.not_true, Bool.false_eq_true, if_true, if_false, ne_eq,
    not_true_eq_false]
  rfl

end

section
variable {d : Dev} {e b cache blk : Nat} {v : Stream}

theorem stGen_markChecked : stGen (markChecked d e b) v = stGen d v := by
  obtain ⟨m, h⟩ := markChecked_frame d e b
  rw [h]; rfl

theorem icFind_markChecked {handle gen : Nat} : icFind (markChecked d e b) cache handle gen blk = icFind d cache handle gen blk := by
  obtain ⟨m, h⟩ := markChecked_frame d e b
  rw [h]; rfl

/-- A store goes on when no byte of it waits for an acknowledgement and the halves that it keeps are at hand. -/
theorem slotStore_local {t : Td} {is : List (List Int)} {k : Dev} (hown : ownPending v (tdSpan t is) = false)
    (hhere : gaMissing d v.rbuf (tdHalves d t is) = []) : slotStore d e v t is k = k :=
  (if_neg (Bool.eq_false_iff.mp hown)).trans (slotNeed_local hhere)

end

/-- Settles O12: a VOID accumulator ends the slot; a drain that passes its checks stores, or hands over to its channel. -/
theorem drainsComplete : Obligations.DrainsComplete := by
  intro inst s v sl rest hfr hop e q a
  refine ⟨fun hvoid => ?void, fun t g blk hvalid ht hg => ?_⟩
  case void =>
    have ⟨hv, _, _, hwaits, _⟩ := hfr
    obtain ⟨m, hm⟩ := slotDone_frame hv hwaits
    refine ⟨_, (exec_mDrain ..).trans (runDev_of_agree (mDrainDev_void hfr hop hvoid)), rfl, ?_⟩
    simp only [settle, e, hm]
  intro off ap items org hblk hshape hacc hscale hstoch
  have verdict (htype : drainTypes q a t none = true) : drainVerdict v q t none ap = stOk :=
    drainVerdict_passes htype hshape hacc hscale hstoch
  refine ⟨fun hfab haux hchk htype => ?memory, fun hfab htype => ?fabric⟩
  case memory =>
    intro store is hown hhere
    have atAp := (mDrainDev_mem hfr hop hvalid ht hfab haux hchk).trans
      (withAp_held (stGen_markChecked.trans hg) (icFind_markChecked.trans hblk))
    exact (exec_mDrain ..).trans (runDev_of_agree
      ((atAp.trans (if_neg (not_not_intro (verdict htype)))).trans (slotStore_local hown hhere)))
  case fabric =>
    intro held hchan
    have atAp := (mDrainDev_fab hfr hop hvalid ht hfab).trans (withAp_held hg hblk)
    exact (exec_mDrain ..).trans (runDev_of_agree
      ((atAp.trans (if_neg (not_not_intro (verdict htype)))).trans (if_neg (not_not_intro hchan))))

/-! ### The check of a tile -/

/-- Two readings of a plane that agree leave the result as it is. -/
theorem mixPlane_same (seed base : Nat) (a res : SMap Nat) : mixPlane seed base a a res = res := by
  have agree : ((a ++ a).map (·.1)).eraseDups.filter (fun k => smGet 0 a k != smGet 0 a k) = [] :=
    List.filter_eq_nil_iff.mpr (fun k _ => by simp only [bne_self_eq_false, Bool.false_eq_true, not_false_eq_true])
  rw [mixPlane, agree, List.foldl_nil]

/-- While its operands stand as they were read, a tile is seen as it was formed, with what a fault has changed (R245). -/
theorem tileSeen_undisturbed {d : Dev} {v : Stream} {t : TileSt} (wrong : List (Nat × Nat))
    (h : (tileAgain d v t).after = t.after) : tileSeen d v t wrong = (d, accWrong t.after wrong) := by
  simp only [tileSeen, tileMix, h, if_true, mixPlane_same]

/-- A tile before its Collator, whose engine serves no other, is accepted or begins its rerun. -/
theorem collatorTileCheckDev_waits {inst : Nat} {wrong : List (Nat × Nat)} {flip : List Nat} {o : Otp} {d : Dev} {v : Stream}
    {t : TileSt} (hv : stGet d (ek 1 inst) = some v) (ht : v.tile = some t) (hrerun : t.rerun = false)
    (hserves : mxeServes d inst = false) :
    collatorTileCheckDev inst wrong flip o d =
      let e := ek 1 inst
      let x := tileSeen d v t wrong
      let d := unitOp (unitOp x.1 e (2 ^ 24) 1) (collKey (dieOf 1 inst)) (2 ^ 24) 1
      let bad := tileStrikes d t (tileBad t x.2 flip)
      if bad = ([], []) then tileAccept d e t x.2
      else stMod (pcAdd (pcAdd (bump d) (kEng e + 6) 1) kDisagree 1) e (fun u =>
        { u with tile := some { t with rerun := true, rows := bad.1, cols := bad.2, server := otherMxe o d inst } }) := by
  simp only [collatorTileCheckDev, hv, ht, hrerun, hserves, Bool.or_self, Bool.false_eq_true, if_false]

/-- Settles O13: the checks as an injected fault leaves them decide between acceptance and rerun. -/
theorem collatorDecides : Obligations.CollatorDecides := by
  intro inst wrong flip s v t hv ht hrerun hserves e x d bad
  have judged := collatorTileCheckDev_waits (wrong := wrong) (flip := flip) (o := s.otp) hv ht hrerun hserves
  refine ⟨tileSeen_undisturbed wrong, fun hagree => ?accepts, fun hdisagree => ?reruns⟩ <;>
    refine (exec_collatorTileCheck ..).trans (runDev_of_agree (judged.trans ?_))
  case accepts => exact if_pos hagree
  case reruns => exact if_neg hdisagree

end Sys2Proof.Machine
end

section
/-! The vector engine (chapter 9): the compute slots of Table 9-3 and the transfers of tiles and function tables: the statements
O8 and O9. A slot is followed from the front of its bundle through its checks to the duplicate lane that its results come from. -/
namespace Sys2Proof.Machine

/-! ### The lane of a vector engine -/

section
variable {o : Otp} {d : Dev} {e mm : Nat} {v : Stream} {k : Dev → Dev}

theorem vxLane_uncollated (h : v.uncollated = true) : vxLane o d e v mm k = k d := if_pos h

theorem vxLane_collated (h : v.uncollated = false) : vxLane o d e v mm k = laneRun o d e (some (kEng e + 5)) mm k :=
  if_neg (Bool.eq_false_iff.mp h)

/-- With no mismatch seen, the lane goes on; in collated mode it has counted one operation (R266, R267). -/
theorem vxLane_agrees (h : v.uncollated = true ∨ mm = 0) :
    vxLane o d e v mm k = k (if v.uncollated then d else laneOp d e (some (kEng e + 5))) := by
  cases hu : v.uncollated with
  | true => exact vxLane_uncollated hu
  | false =>
    obtain rfl : mm = 0 := h.resolve_left (Bool.eq_false_iff.mp hu)
    exact (vxLane_collated hu).trans (laneRun_agrees ..)

end

/-! ### Compute slots -/

/-- A compute slot with its result: written to the stream, counted and done (R256, R270). -/
def vxResult (op e : Nat) (v : Stream) (w : Nat) (f : Dev → Stream → Nat → Stream × Nat × Nat) (d : Dev) : Dev :=
  let r := f d v w
  let free := if op ∈ [0x30, 0x31, 0x38, 0x39] then bump d else d
  slotDone (vxCount (stFlags (stSet free e r.1) e r.2.2) e r.2.1 (vxCycles v w)) e

/-- A compute slot judged by Table 9-7, and computed on the lane if it passes. -/
def vxJudge (op inst mm : Nat) (v : Stream) (w : Nat) (f : Dev → Stream → Nat → Stream × Nat × Nat) (o : Otp) (d : Dev) : Dev :=
  if vxCheck v w ≠ stOk then stFault d (ek 2 inst) (vxCheck v w)
  else vxLane o d (ek 2 inst) v mm (vxResult op (ek 2 inst) v w f)

theorem onVx_fronts {op inst mm : Nat} {o : Otp} {d : Dev} {v : Stream} {sl : Slot} {rest : List Slot}
    (h : Fronts o d (ek 2 inst) v sl rest) (hk : sl.kind = 3 ∨ sl.kind = 4) (hop : vxOpc sl.w = op)
    (f : Dev → Stream → Nat → Stream × Nat × Nat) : onVx op inst mm o d f = vxJudge op inst mm v sl.w f o d := by
  have front : ((sl.kind == 3 || sl.kind == 4) && vxOpc sl.w == op) = true := by
    rw [Bool.and_eq_true_iff, Bool.or_eq_true_iff, beq_iff_eq, beq_iff_eq, beq_iff_eq]
    exact ⟨hk, hop⟩
  rw [onVx, onSlot_fronts h front]
  simp only [List.contains_iff_mem]
  rfl

/-- Each row of Table 9-3 is a compute slot of its opcode with its operation. -/
theorem exec_vxRow : ∀ row ∈ vxRows, ∀ inst mm s,
    exec (row.1 inst mm) s = runDev (fun o d => onVx row.2.1 inst mm o d row.2.2) s := by
  simp only [vxRows, List.forall_mem_cons]
  exact ⟨exec_vAdd, exec_vSub, exec_vMul, exec_vFma, exec_vDiv, exec_vMax, exec_vMin, exec_vSqrt, exec_vAbs, exec_vNeg,
    exec_vCmp, exec_vSel, exec_vAnd, exec_vOr, exec_vCvt, exec_vRsum, exec_vRmax, exec_vFn, exec_vFnd, exec_vCompress,
    exec_vExpand, exec_vSumm, exec_vSmov, List.forall_mem_nil _⟩

/-- A compute slot at the front of its engine is judged. -/
theorem exec_vxRow_fronts {row : (Nat → Nat → Instr) × Nat × (Dev → Stream → Nat → Stream × Nat × Nat)} {inst mm : Nat} {s : State}
    {v : Stream} {sl : Slot} {rest : List Slot} (hrow : row ∈ vxRows) (hfr : Fronts s.otp s.dev (ek 2 inst) v sl rest)
    (hk : sl.kind = 3 ∨ sl.kind = 4) (hop : vxOpc sl.w = row.2.1) :
    exec (row.1 inst mm) s = runDev (vxJudge row.2.1 inst mm v sl.w row.2.2) s :=
  (exec_vxRow row hrow inst mm s).trans (runDev_of_agree (onVx_fronts hfr hk hop row.2.2))

/-- Settles O8: the checks of Table 9-7 come first; past them the lane decides, by its mode and its mismatches, whether the result
is written. -/
theorem vectorSlotsComplete : Obligations.VectorSlotsComplete := by
  refine ⟨fun row hrow inst mm s v sl rest _ hfr hk hop =>
      ⟨fun hbad => ?fails, fun hok hmode => ?once, fun hok hmode => ?agrees⟩,
    fun row hrow inst s v sl rest _ hfr hk hop hok hmode => ⟨?recovers, fun n => ?retires⟩⟩
  all_goals refine (exec_vxRow_fronts hrow hfr hk hop).trans (runDev_of_agree ?_)
  case fails => exact if_pos hbad
  all_goals refine (if_neg (not_not_intro hok)).trans ?_
  case once => exact vxLane_uncollated hmode
  all_goals refine (vxLane_collated hmode).trans ?_
  case agrees => exact laneRun_agrees ..
  case recovers => exact laneRun_recovers ..
  case retires => exact laneRun_retires ..

/-! ### Tile loads -/

/-- The status of a tile load's checks of type and shape (R252). -/
def tileLoadVerdict (t : Td) (ap : List Byte) : Nat :=
  firstBad [(t.etype != 3 && t.etype != 7, stVxType),
    (apFits ap t.ndim && decide (2 ≤ t.ndim) && decide (apExt ap 0 ≤ 64 ∧ apExt ap 1 ≤ 64) &&
      (List.range 6).all (fun k => decide (k < 2) || decide (t.ndim ≤ k) || apExt ap k == 1), stVxShape)]

theorem tileLoadVerdict_passes {t : Td} {ap : List Byte} (h3 : t.etype ≠ 3) (h7 : t.etype ≠ 7) (hfit : apFits ap t.ndim = true)
    (hdim : 2 ≤ t.ndim) (h0 : apExt ap 0 ≤ 64) (h1 : apExt ap 1 ≤ 64)
    (hflat : ∀ k, 2 ≤ k → k < t.ndim → k < 6 → apExt ap k = 1) : tileLoadVerdict t ap = stOk := by
  have typed : (t.etype != 3 && t.etype != 7) = true := Bool.and_eq_true_iff.mpr ⟨bne_iff_ne.mpr h3, bne_iff_ne.mpr h7⟩
  have flat : (List.range 6).all (fun k => decide (k < 2) || decide (t.ndim ≤ k) || apExt ap k == 1) = true := by
    refine List.all_eq_true.mpr (fun k hk => ?_)
    by_cases hin : 2 ≤ k ∧ k < t.ndim
    · exact Bool.or_eq_true_iff.mpr (.inr (beq_iff_eq.mpr (hflat k hin.1 hin.2 (List.mem_range.mp hk))))
    · have outer : k < 2 ∨ t.ndim ≤ k := by omega
      exact Bool.or_eq_true_iff.mpr (.inl (Bool.or_eq_true_iff.mpr (outer.imp decide_eq_true decide_eq_true)))
  have shaped : (apFits ap t.ndim && decide (2 ≤ t.ndim) && decide (apExt ap 0 ≤ 64 ∧ apExt ap 1 ≤ 64) &&
      (List.range 6).all (fun k => decide (k < 2) || decide (t.ndim ≤ k) || apExt ap k == 1)) = true := by
    rw [Bool.and_eq_true_iff, Bool.and_eq_true_iff, Bool.and_eq_true_iff, decide_eq_true_iff, decide_eq_true_iff]
    exact ⟨⟨⟨hfit, hdim⟩, h0, h1⟩, flat⟩
  exact (firstBad_passes typed).trans (firstBad_passes shaped)

section
variable {inst mm : Nat} {o : Otp} {d : Dev} {v : Stream} {sl : Slot} {rest : List Slot} {t : Td}

/-- A bound tile load reads its access pattern, is judged, and widens its elements on the lane. -/
theorem vxeTileLoadDev_bound (h : Fronts o d (ek 2 inst) v sl rest) (hbuf : isBuf [1, 2] 0x00 0x1F sl = true)
    (ht : stTd v (bits sl.w 24 4) = some t) :
    vxeTileLoadDev inst mm o d =
      let e := ek 2 inst
      withAp d e v (bits sl.w 16 8) (fun d ap =>
        let is := apTile ap (loopCtrs v) t.ndim
        if tileLoadVerdict t ap ≠ stOk then stFault d e (tileLoadVerdict t ap)
        else slotNeed d e v (tdRanges t is) <| vxLane o d e v mm (fun d =>
          let raw := is.map (fun i => vxWiden t.etype (tdRead d v.rbuf t i))
          let reg := tregMake (tregGet v (bits sl.w 8 5)) (vxRegType t.etype) (apExt ap 1) (apExt ap 0)
            (fun r c => nth raw (r * apExt ap 0 + c))
          slotDone (vxCount (stMod d e (fun v => tregSet v (bits sl.w 8 5) reg)) e 0
            (vxXfer (is.length * etBits t.etype / 8))) e)) := by
  rw [vxeTileLoadDev, onSlot_fronts h hbuf]
  simp only [ht]
  rfl

/-! ### Table loads -/

/-- A bound table load reads its access pattern and, if it is one of 2,064 words, puts them into the slot (R254). -/
theorem vxeFtabLoadDev_bound (h : Fronts o d (ek 2 inst) v sl rest) (hbuf : isBuf [1, 2] 0x40 0x47 sl = true)
    (ht : stTd v (bits sl.w 24 4) = some t) :
    vxeFtabLoadDev inst o d =
      let e := ek 2 inst
      withAp d e v (bits sl.w 16 8) (fun d ap =>
        let is := apTile ap (loopCtrs v) t.ndim
        let st := firstBad [(t.etype == 4 && apFits ap t.ndim && is.length == 2064, stVxShape)]
        if st ≠ stOk then stFault d e st
        else slotNeed d e v (tdRanges t is) <|
          slotDone (vxCount (stMod d e (fun u =>
            { u with ftabs := smSet [] u.ftabs (bits sl.w 8 3) (is.map (tdRead d v.rbuf t)) })) e 0 (vxXfer 8256)) e) := by
  rw [vxeFtabLoadDev, onSlot_fronts h hbuf]
  simp only [ht]

/-! ### Tile stores -/

/-- A store narrows: an FP32 register goes to FP16 or BF16 (R253). -/
def tileNarrows (reg : TileReg) (t : Td) : Bool := reg.typ == 0 && (t.etype == 1 || t.etype == 2)

theorem bool_not_or_of_imp {a b : Bool} (h : a = true → b = true) : (!a || b) = true := by
  cases a with
  | false => rfl
  | true => exact h rfl

/-- The status of a tile store's checks of types, shape, register and hash (R253). -/
def tileStoreVerdict (v : Stream) (reg : TileReg) (t : Td) (ap : List Byte) : Nat :=
  firstBad [(!reg.full || (vxStores reg.typ t.etype && (!tileNarrows reg t || modeOk (param v 53))), stVxType),
    (apFits ap t.ndim, stVxShape), (reg.full, stVxReg),
    (!tileNarrows reg t || !modeStoch (param v 53) || tdStochOk t, stTdShape)]

theorem tileStoreVerdict_passes {reg : TileReg} {ap : List Byte} (hfit : apFits ap t.ndim = true) (hfull : reg.full = true)
    (htype : vxStores reg.typ t.etype = true) (hmode : tileNarrows reg t = true → modeOk (param v 53) = true)
    (hstoch : tileNarrows reg t = true → modeStoch (param v 53) = true → tdStochOk t = true) :
    tileStoreVerdict v reg t ap = stOk := by
  have types : (!reg.full || (vxStores reg.typ t.etype && (!tileNarrows reg t || modeOk (param v 53)))) = true :=
    Bool.or_eq_true_iff.mpr (.inr (Bool.and_eq_true_iff.mpr ⟨htype, bool_not_or_of_imp hmode⟩))
  have hash : (!tileNarrows reg t || !modeStoch (param v 53) || tdStochOk t) = true :=
    (Bool.or_assoc ..).trans (bool_not_or_of_imp (fun hn => bool_not_or_of_imp (hstoch hn)))
  exact (firstBad_passes types).trans ((firstBad_passes hfit).trans ((firstBad_passes hfull).trans (firstBad_passes hash)))

/-- A store through a checked binding reads its access pattern, is judged, and narrows its elements on the lane. -/
theorem vxeTileStoreDev_checked (h : Fronts o d (ek 2 inst) v sl rest) (hbuf : isBuf [5] 0x00 0x1F sl = true)
    (ht : stTd v (bits sl.w 24 4) = some t) (hchk : v.checked.contains (bits sl.w 24 4) = true) :
    vxeTileStoreDev inst mm o d =
      let e := ek 2 inst
      let reg := tregGet v (bits sl.w 8 5)
      let m := param v 53
      withAp (markChecked d e (bits sl.w 24 4)) e v (bits sl.w 16 8) (fun d ap =>
        let els := vxStoreItems ap (loopCtrs v) t.ndim reg
        if tileStoreVerdict v reg t ap ≠ stOk then stFault d e (tileStoreVerdict v reg t ap)
        else slotStore d e v t (els.map (·.1)) <| vxLane o d e v mm (fun d =>
          let items := els.map (fun x =>
            (x.1, vxStoreEl t.etype m
              (if tileNarrows reg t ∧ modeStoch m then tdHash d.seed.toNat (param64 v 54) t x.1 else 0) x.2))
          let d := vxCount (stFlags d e (itemFlags t items)) e 0 (vxXfer (items.length * etBits t.etype / 8))
          slotWrote (tdWriteOn d v.rbuf t (items.map (fun x => (x.1, x.2.1))) (.stream e)) e)) := by
  have pass : writeCheck d v (bits sl.w 24 4) = stOk := if_pos hchk
  rw [vxeTileStoreDev, onSlot_fronts h hbuf]
  simp only [pass, ht, ne_eq, not_true_eq_false, if_false]
  rfl

end

/-- Settles O9: with its access pattern held, its checks passed and its bytes at hand, each transfer comes to its lane, which
agrees, or, for a table, to its slot. -/
theorem vectorTransfers : Obligations.VectorTransfers := by
  intro inst mm s v sl rest t g blk _ hfr hagree ht hg e off ap is held lane hblk hhere
  refine ⟨fun hbuf h3 h7 hfit hdim h0 h1 hflat => ?load, fun hbuf htype hfit hlen => ?table, fun hbuf hchk hfit => ?store⟩
  case load =>
    have atAp := (vxeTileLoadDev_bound (mm := mm) hfr hbuf ht).trans (withAp_held hg hblk)
    have verdict : tileLoadVerdict t ap = stOk := tileLoadVerdict_passes h3 h7 hfit hdim h0 h1 hflat
    have atLane := (atAp.trans (if_neg (not_not_intro verdict))).trans (slotNeed_local hhere)
    exact (exec_vxeTileLoad ..).trans (runDev_of_agree (atLane.trans (vxLane_agrees hagree)))
  case table =>
    have atAp := (vxeFtabLoadDev_bound hfr hbuf ht).trans (withAp_held hg hblk)
    have verdict : firstBad [(t.etype == 4 && apFits ap t.ndim && is.length == 2064, stVxShape)] = stOk :=
      firstBad_passes (by rw [htype, hfit, hlen]; rfl)
    exact (exec_vxeFtabLoad ..).trans (runDev_of_agree
      ((atAp.trans (if_neg (not_not_intro verdict))).trans (slotNeed_local hhere)))
  case store =>
    intro reg m narrows els store hown hhalves hfull htype hmode hstoch
    have atAp := (vxeTileStoreDev_checked (mm := mm) hfr hbuf ht hchk).trans
      (withAp_held (stGen_markChecked.trans hg) (icFind_markChecked.trans hblk))
    have verdict : tileStoreVerdict v reg t ap = stOk := tileStoreVerdict_passes hfit hfull htype hmode hstoch
    have atLane := (atAp.trans (if_neg (not_not_intro verdict))).trans (slotStore_local hown hhalves)
    exact (exec_vxeTileStore ..).trans (runDev_of_agree (atLane.trans (vxLane_agrees hagree)))

end Sys2Proof.Machine
end

section
/-! Dense parameters (chapter 10): reservations and tiles: the statements O25 and O26. A lemma says once what is left of each effect
past the checks that its hypotheses answer. -/
namespace Sys2Proof.Machine

/-! ### Reservations -/

section
variable {d : Dev} {p : Param} {c : Nat} {x : VSlot} {waited : Bool}

/-- A slot that no reader holds is the target (step 1 of R281). -/
theorem peReserve_free (hc : peResolve p d.verCommitted.toNat = some c) (hfree : slotFree (peSlotSt p (1 - c)) = true) :
    peReserve d p waited = some ({ peSlotSet p (1 - c) (some ⟨d.verCommitted.toNat + 1, d.verCommitted.toNat + 1, 0, 0⟩) with
      target := some (1 - c), src := c, inPlace := false, stats := false, tiles := 0, undo := [] }, false) := by
  simp only [peReserve, hc, Option.getD_some, hfree, if_true]

/-- Otherwise the committed slot is written in place where that is allowed, or the reservation waits. -/
theorem peReserve_held (hc : peResolve p d.verCommitted.toNat = some c) (hx : peSlotSt p c = some x)
    (hheld : ¬slotFree (peSlotSt p (1 - c)) = true) :
    peReserve d p waited =
      if waited = true ∨ d.staleMax = 0 ∨ peRule p = 3 then none
      else if x.exact = 0 ∧ x.top + 1 - x.low ≤ d.staleMax then
        some ({ peSlotSet p c (some { x with top := d.verCommitted.toNat + 1 }) with
          target := some c, src := c, inPlace := true, stats := false, tiles := 0, undo := [] }, true)
      else none := by
  simp only [peReserve, hc, Option.getD_some, if_neg hheld, hx, Bool.or_eq_true, beq_iff_eq, or_assoc]

end

/-- The first reservation that waits is granted once step 1 applies to it. -/
theorem reservationGrantDev_granted {o : Otp} {d : Dev} {a : Act} {n : Nat} {rest : List Nat} {p : Param}
    (hact : d.act = some a) (hkind : a.kind ≠ 2) (hwaits : unreserved d = n :: rest) (hp : paramGet d n = some p)
    (hfree : (peReserve d p true).isSome) :
    reservationGrantDev o d = bump (pcAdd (reserveAll d true) kVerStall (Config.freeCount d.freeIdx).toNat) := by
  obtain ⟨y, hy⟩ := Option.isSome_iff_exists.mp hfree
  simp only [reservationGrantDev, hact, hwaits, if_neg hkind, hp, Option.bind_some, hy]

/-- Settles O25: whether a reader holds the other slot, and then the conditions of a write in place, decide the reservation. -/
theorem reservationsFollowTheSlots : Obligations.ReservationsFollowTheSlots := by
  refine ⟨fun d p c x waited => ?reserve, fun s a n rest p hact hkind hwaits hp hfree => ?grant⟩
  case reserve =>
    intro v hc _ hx free
    refine ⟨fun hfree => peReserve_free hc hfree, fun hheld hfirst hlate hrule hexact hstale => ?inPlace,
      fun hheld hbar => ?waits⟩
    all_goals have held := peReserve_held (waited := waited) hc hx hheld
    case inPlace =>
      have allowed : ¬(waited = true ∨ d.staleMax = 0 ∨ peRule p = 3) := by simp [hfirst, hlate, hrule]
      exact held.trans ((if_neg allowed).trans (if_pos ⟨hexact, hstale⟩))
    case waits =>
      have barred (h : waited = true ∨ d.staleMax = 0 ∨ peRule p = 3) : peReserve d p waited = none := held.trans (if_pos h)
      have notHere (h : ¬(x.exact = 0 ∧ x.top + 1 - x.low ≤ d.staleMax)) : peReserve d p waited = none :=
        held.trans (by rw [if_neg h, ite_self])
      obtain hearly | hlate | hrule | hexact | hstale := hbar
      · exact barred (.inl hearly)
      · exact barred (.inr (.inl hlate))
      · exact barred (.inr (.inr hrule))
      · exact notHere (fun here => hexact here.1)
      · exact notHere (fun here => Nat.not_le.mpr hstale here.2)
  case grant =>
    exact (exec_reservationGrant ..).trans (runDev_of_agree (reservationGrantDev_granted hact hkind hwaits hp hfree))

/-! ### Tiles -/

/-- The tile of parameter `n`, reserved for the act `a`, that comes next: journal, statistics, the tile, its audit (R283 to R286,
R292). -/
def peApplyTile (n : Nat) (bad : Bool) (o : Otp) (a : Act) (p : Param) (j : Nat × Nat × Nat) (upe : Nat) (d : Dev) : Dev :=
  let d := journalPut d j.1 j.2.2 j.2.1 ((spansRead d (peImageSpans p)).flatMap (·.2))
  let x := peNext d p a.step a.clip
  let d := raiseFlags x.1 upe x.2.2
  let audit := peMaster p != 0 && decide (a.step % 64 < min 1024 (peN p - 1024 * p.tiles))
  let d := if audit then unitOp d upe (2 ^ 24) 1 else d
  let d := if audit && bad then auditFault o d (upe % 32) else d
  pcAdd (paramSet d n (some x.2.1)) (kEng upe + 3) 1

/-- A tile that waits for nothing is applied, or lost with its parameter. -/
theorem denseTileDev_due {n recov : Nat} {bad lost : Bool} {o : Otp} {d : Dev} {a : Act} {p : Param}
    (hact : d.act = some a) (hp : paramGet d n = some p) (hkind : a.kind ≠ 2) (hresv : allReserved d = true)
    (htarget : p.target.isSome = true) (htiles : p.tiles < peTiles p)
    (hjournal : (smGet (0, 0, 0) d.djAreas (peUpe p)).2.1 ≠ 0) :
    denseTileDev n recov bad lost o d =
      let upe := ek 4 (peServe o d p)
      let d' := pcAdd (paramUse d n) (kEng upe + 4) recov
      if lost then peLost d' n p a else peApplyTile n bad o a p (smGet (0, 0, 0) d.djAreas (peUpe p)) upe d' := by
  have goesOn : ¬(a.kind = 2 ∨ (!allReserved d) = true ∨ p.target.isNone = true ∨ peTiles p ≤ p.tiles ∨
      (smGet (0, 0, 0) d.djAreas (peUpe p)).2.1 = 0) := by
    simp [hkind, hresv, hjournal, Option.isSome_iff_ne_none.mp htarget, htiles]
  simp only [denseTileDev, hact, hp, if_neg goesOn]
  rfl

/-- Settles O26: no injected flip strikes the arrays that a tile reads, so it is applied to the module as it stands, or lost. -/
theorem tilesAreApplied : Obligations.TilesAreApplied := by
  intro n recov bad s a p hact hp hkind hresv htarget htiles hclean j hjournal upe count
  have judged (lost : Bool) := denseTileDev_due (recov := recov) (bad := bad) (lost := lost) (o := s.otp) hact hp hkind hresv
    htarget htiles hjournal
  simp only [paramUse_clean hclean] at judged
  refine ⟨?applied, ?lost⟩
  case applied =>
    refine (exec_denseTileApply ..).trans (runDev_of_agree ((judged false).trans ((if_neg Bool.false_ne_true).trans ?_)))
    simp only [peApplyTile, peNext, spansRead_pcAdd, Bool.and_eq_true, decide_eq_true_eq, Bool.not_eq_true', bne_iff_ne]
    rfl
  case lost => exact (exec_denseTileApply ..).trans (runDev_of_agree ((judged true).trans (if_pos rfl)))

end Sys2Proof.Machine
end

section
/-! Versions (chapter 10): the commit of a step, acquires and releases: the statements O27 and O28. Each command is followed from
its checks at dispatch to the act that ends it; no injected flip strikes the version record or a slot that it reads. -/
namespace Sys2Proof.Machine

/-! ### VC_COMMIT -/

section
variable {q : Nat} {o : Otp} {d : Dev} {v : Queue} {r : Running}

/-- The status of the checks of a VC_COMMIT at dispatch (R291). -/
def vcCommitStatus (d : Dev) (r : Running) : Nat :=
  firstBad [(vcForm d r, stVerParam), (vcArg r == d.verLastStep.toNat + 1, stVerStep), (!d.int.noCommit, stVerAbandon)]

/-- A fresh VC_COMMIT is begun; the checks are those of the device from before. -/
theorem vcCommitDev_of_fresh (hclean : d.int.injects = []) (h : fresh d q (· == 0x32) = some (v, r)) (hop : vcOp r = 1) :
    vcCommitDev q o d =
      let begun := runMod d q r.cmd.cseq.toNat (fun r => { r with started := true })
      if vcCommitStatus d r = stOk then begun else cmdFinal begun q r.cmd.cseq.toNat (vcCommitStatus d r) 0 := by
  have isCommit : ¬(vcOp r = 2 ∨ vcOp r = 3) := by omega
  simp only [vcCommitDev, h, if_neg isCommit, verUse_clean hclean]
  rfl

/-- A step that has been carried out, and whose commit nothing bars, ends the wait. -/
theorem vcOutcome_done {a : Act} (hact : d.act = some a) (hnext : vcArg r = d.verLastStep.toNat + 1)
    (hleave : d.int.noCommit = false) (hstep : a.step = vcArg r) (hkept : a.lost = false) (hdone : actDone o d a = true)
    (hroom : a.kind = 2 ∨ d.verCommitted.toNat ≠ 2 ^ 64 - 1) : vcOutcome o d r = some stOk := by
  have inRange : ¬(a.kind ≠ 2 ∧ d.verCommitted.toNat = 2 ^ 64 - 1) := fun h => hroom.elim h.1 (fun hr => hr h.2)
  simp only [vcOutcome, hact, hleave, hstep, hkept, hdone, if_neg inRange, if_neg (not_not_intro hnext), ne_eq, not_true_eq_false,
    Bool.not_true, Bool.false_eq_true, if_false]

theorem vcCommitActDev_fails {st : Nat} (hclean : d.int.injects = []) (h : Awaits d q v r (vcWaits 1))
    (hout : vcOutcome o d r = some st) (hst : st ≠ stOk) : vcCommitActDev q o d = cmdFinal d q r.cmd.cseq.toNat st 0 := by
  rw [vcCommitActDev, onActive_of_awaits h]
  simp only [verUse_clean hclean, hout]
  cases d.act with
  | none => rfl
  | some a => exact if_neg hst

theorem vcCommitActDev_commits {a : Act} (hclean : d.int.injects = []) (h : Awaits d q v r (vcWaits 1))
    (hact : d.act = some a) (hout : vcOutcome o d r = some stOk) :
    vcCommitActDev q o d = cmdFinal (stepClose o d a) q r.cmd.cseq.toNat stOk (if a.kind = 2 then 2 else 1) := by
  rw [vcCommitActDev, onActive_of_awaits h]
  simp only [verUse_clean hclean, hout, hact, if_true]

end

/-! What closing a step leaves alone. -/

section
variable (o : Otp) (d : Dev)

theorem foldl_unitSet_frame (f : Dev → Nat → UnitSt) (us : List Nat) :
    ∃ int, us.foldl (fun d u => unitSet d u (f d u)) d = { d with int := int } := by
  induction us generalizing d with
  | nil => exact ⟨d.int, rfl⟩
  | cons u us ih =>
    obtain ⟨int, h⟩ := ih (unitSet d u (f d u))
    exact ⟨int, h⟩

/-- Closing a step writes the version record and ends the reservations; beside them it marks units due. -/
theorem stepClose_frame (a : Act) :
    ∃ params int, stepClose o d a =
      { d with
        params := params, int := int, act := none, verLastStep := BitVec.ofNat 64 a.step
        verLastKind := if a.kind = 2 then 2 else 1
        verCommitted := if a.kind = 2 then d.verCommitted else d.verCommitted + 1 } := by
  obtain ⟨int, h⟩ := foldl_unitSet_frame _ (fun d u => { unitGet d u with due := true }) _
  exact ⟨_, int, h⟩

theorem cmdFinal_frame (q sq st detail : Nat) : QueuesOnly d (cmdFinal d q sq st detail) := runMod_frame ..

/-- What a final status makes of the queues rests on the queues alone. -/
theorem cmdFinal_queues {d d' : Dev} (h : d.queues = d'.queues) (q sq st detail : Nat) :
    (cmdFinal d q sq st detail).queues = (cmdFinal d' q sq st detail).queues := by
  simp only [cmdFinal, runMod, qMod, qGet, h]
  cases smGet none d'.queues q with
  | none => exact h
  | some v => simp only [qSet, h]

end

/-- Settles O27: the checks at dispatch are judged in order; what the wait finds ends it, and closing the step is one write. -/
theorem commitPublishesAVersion : Obligations.CommitPublishesAVersion := by
  intro q s v r hclean sq begun
  refine ⟨fun h hop => ?begins, fun h => ⟨?commits, ?fails, ?expires⟩⟩
  case begins =>
    intro next fail
    have judged := vcCommitDev_of_fresh (o := s.otp) hclean h hop
    have fails {st : Nat} (hst : vcCommitStatus s.dev r = st) (hbad : st ≠ stOk) : fail st :=
      (exec_vcCommit ..).trans (runDev_of_agree (judged.trans (by rw [hst]; exact if_neg hbad)))
    refine ⟨fun hform => ?form, fun hform hnext => ?step, fun hform hnext hbar => ?barred, fun hform hnext hleave => ?waits⟩
    case form => exact fails (firstBad_fails hform) (by decide)
    all_goals have atStep : vcCommitStatus s.dev r = _ := firstBad_passes hform
    case step => exact fails (atStep.trans (firstBad_fails (beq_eq_false_iff_ne.mpr hnext))) (by decide)
    all_goals have atLeave := atStep.trans (firstBad_passes (beq_iff_eq.mpr hnext))
    case barred => exact fails (atLeave.trans (firstBad_fails (congrArg not hbar))) (by decide)
    case waits =>
      exact (exec_vcCommit ..).trans
        (runDev_of_agree (judged.trans (if_pos (atLeave.trans (firstBad_passes (congrArg not hleave))))))
  case commits =>
    intro a hact hnext hleave hstep hkept hdone hroom
    have closes := vcCommitActDev_commits hclean h hact (vcOutcome_done hact hnext hleave hstep hkept hdone hroom)
    refine ⟨_, (exec_vcCommitAct ..).trans (runDev_eq_settle closes), ?_⟩
    obtain ⟨params, int, hclose⟩ := stepClose_frame s.otp s.dev a
    obtain ⟨queues, hfinal⟩ := cmdFinal_frame (stepClose s.otp s.dev a) q sq stOk (if a.kind = 2 then 2 else 1)
    have hqueues : (stepClose s.otp s.dev a).queues = s.dev.queues := by rw [hclose]
    refine ⟨?_, ?_, ?_, ?_, ?_, ?_, cmdFinal_queues hqueues ..⟩ <;> simp only [settle_dev] <;> rw [hfinal, hclose]
  case fails =>
    exact fun st hout hst => (exec_vcCommitAct ..).trans (runDev_of_agree (vcCommitActDev_fails hclean h hout hst))
  case expires =>
    exact fun hout => (exec_vcCommitWaitExpiry ..).trans (runDev_of_agree ((onActive_of_awaits h _).trans (if_pos hout)))

/-! ### VC_ACQUIRE -/

theorem QueuesOnly.vcVersion {d d' : Dev} (h : QueuesOnly d d') (r : Running) : vcVersion d' r = Machine.vcVersion d r := by
  obtain ⟨m, rfl⟩ := h; rfl

theorem QueuesOnly.verCommitted {d d' : Dev} (h : QueuesOnly d d') : d'.verCommitted = d.verCommitted := by
  obtain ⟨m, rfl⟩ := h; rfl

section
variable {q : Nat} {o : Otp} {d : Dev} {v : Queue} {r : Running}

/-- An acquire that passes its checks is begun, and acts at once when its version is committed. -/
theorem vcAcquireDev_of_fresh (h : fresh d q (· == 0x32) = some (v, r)) (hop : vcOp r = 2) (hform : vcForm d r = true)
    (hwindow : (fld r.cmd.body 16 8 == 0 || windowOk d v.owner (fld r.cmd.body 16 8) (16 * fld r.cmd.body 6 2) true) = true)
    (hmapped : (fld r.cmd.body 16 8 == 0 || mapped d (localOf (fld r.cmd.body 16 8)) (16 * fld r.cmd.body 6 2)) = true) :
    vcAcquireDev q o d =
      let begun := runMod d q r.cmd.cseq.toNat (fun r => { r with started := true })
      if vcVersion d r ≤ d.verCommitted.toNat then acquireAct begun q r else begun := by
  have frame := runMod_frame d q r.cmd.cseq.toNat (fun r => { r with started := true })
  simp only [vcAcquireDev, h, hop, hform, hwindow, hmapped, firstBad, ne_eq, not_true_eq_false, if_true, if_false, frame.vcVersion,
    frame.verCommitted]

/-- One reader more of a slot, and one exact one for an exact acquire. -/
def slotTaken (exact : Bool) (x : VSlot) : VSlot := { x with readers := x.readers + 1, exact := x.exact + exact.toNat }

/-- One reader less. -/
def slotGiven (exact : Bool) (x : VSlot) : VSlot := { x with readers := x.readers - 1, exact := x.exact - exact.toNat }

/-- A change of the counts of the slots that a version resolves to, over a range of parameters. -/
def rangeCount (d : Dev) (ps : List (Nat × Param)) (ver : Nat) (f : VSlot → VSlot) : Dev :=
  ps.foldl (fun d x => paramSet d x.1 (some (peCount x.2 ver f))) d

/-- The result array of an acquire (R279). -/
def acquireOut (d : Dev) (r : Running) (ver : Nat) : List Byte :=
  (List.range (fld r.cmd.body 6 2)).flatMap (fun i => match paramGet d (fld r.cmd.body 4 2 + i) with
    | some p => natLe 8 (peSlot p ((peResolve p ver).getD 0)) ++ natLe 8 ver
    | none => zeros 16)

/-- The status of an acquire: every slot serves the version and has room for a reader. -/
def acquireStatus (d : Dev) (r : Running) : Nat :=
  firstBad [((vcRange d r).all (fun x => acqHas (vcExact r) (vcVersion d r) (peFound x.2 (vcVersion d r))), stVerGone),
    ((vcRange d r).all (fun x => acqRoom (vcExact r) (peFound x.2 (vcVersion d r))), stVerReaders)]

theorem acquireAct_clean (hclean : d.int.injects = []) :
    acquireAct d q r =
      if acquireStatus d r ≠ stOk then cmdFinal d q r.cmd.cseq.toNat (acquireStatus d r) 0
      else
        let counted := rangeCount d (vcRange d r) (vcVersion d r) (slotTaken (vcExact r))
        cmdFinal (if fld r.cmd.body 16 8 = 0 then counted
          else memWrite counted (localOf (fld r.cmd.body 16 8)) (acquireOut counted r (vcVersion d r)))
          q r.cmd.cseq.toNat stOk 0 := by
  simp only [acquireAct, verUse_clean hclean, paramsUse_clean hclean]
  rfl

/-! ### VC_RELEASE -/

/-- The status of the checks of a release: every slot of the range is held. -/
def vcReleaseStatus (d : Dev) (r : Running) : Nat :=
  firstBad [(vcForm d r, stVerParam), ((vcRange d r).all (fun x =>
    decide (vcArg r ≤ d.verCommitted.toNat) && relHeld (vcExact r) (peFound x.2 (vcArg r))), stVerRelease)]

/-- A fresh release is begun; the checks are those of the device from before. -/
theorem vcReleaseDev_of_fresh (hclean : d.int.injects = []) (h : fresh d q (· == 0x32) = some (v, r)) (hop : vcOp r = 3) :
    vcReleaseDev q o d =
      let begun := runMod d q r.cmd.cseq.toNat (fun r => { r with started := true })
      if vcReleaseStatus d r ≠ stOk then cmdFinal begun q r.cmd.cseq.toNat (vcReleaseStatus d r) 0
      else cmdFinal (rangeCount begun (vcRange d r) (vcArg r) (slotGiven (vcExact r))) q r.cmd.cseq.toNat stOk 0 := by
  simp only [vcReleaseDev, h, if_neg (not_not_intro hop), verUse_clean hclean, paramsUse_clean hclean]
  rfl

end

theorem all_eq_false_of_exists {α : Type} {l : List α} {f : α → Bool} (h : ∃ x ∈ l, f x = false) : l.all f = false := by
  obtain ⟨x, hx, hf⟩ := h
  exact List.all_eq_false.mpr ⟨x, hx, Bool.eq_false_iff.mp hf⟩

/-- Settles O28: whether the version is committed decides when the act comes; the slots of the range decide what it does. -/
theorem acquiresAndReleases : Obligations.AcquiresAndReleases := by
  intro q s v r hclean sq begun res n there due ps
  refine ⟨fun h hop hthere => ?begins, fun h => ⟨fun hdue => ?resolves, fun hlate => ?expires⟩, ?act,
    fun h hop hform => ?releases⟩
  case begins =>
    obtain ⟨hchecks, hmapped⟩ := Bool.and_eq_true_iff.mp hthere
    obtain ⟨hform, hwindow⟩ := Bool.and_eq_true_iff.mp hchecks
    have judged := vcAcquireDev_of_fresh (o := s.otp) h hop hform hwindow hmapped
    exact ⟨fun hdue => (exec_vcAcquire ..).trans (runDev_of_agree (judged.trans (if_pos hdue))),
      fun hlate => (exec_vcAcquire ..).trans (runDev_of_agree (judged.trans (if_neg hlate)))⟩
  case resolves => exact (exec_vcAcquireResolve ..).trans (runDev_of_agree ((onActive_of_awaits h _).trans (if_pos hdue)))
  case expires =>
    exact (exec_vcAcquireWaitExpiry ..).trans
      (runDev_of_agree ((onActive_of_awaits h _).trans (if_pos (Nat.lt_of_not_le hlate))))
  case act =>
    intro ver
    have judged := acquireAct_clean (q := q) (r := r) hclean
    have fails {st : Nat} (hst : acquireStatus s.dev r = st) (hbad : st ≠ stOk) :
        acquireAct s.dev q r = cmdFinal s.dev q sq st 0 :=
      judged.trans (statusStage_ends hst hbad (cmdFinal s.dev q sq · 0) _)
    refine ⟨fun hgone => ?gone, fun hhas hfull => ?full, fun hall => ?taken⟩
    case gone => exact fails (firstBad_fails (all_eq_false_of_exists hgone)) (by decide)
    case full =>
      have atRoom : acquireStatus s.dev r = _ := firstBad_passes (List.all_eq_true.mpr hhas)
      exact fails (atRoom.trans (firstBad_fails (all_eq_false_of_exists hfull))) (by decide)
    case taken =>
      have ok : acquireStatus s.dev r = stOk := (firstBad_passes (List.all_eq_true.mpr (fun x hx => (hall x hx).1))).trans
        (firstBad_passes (List.all_eq_true.mpr (fun x hx => (hall x hx).2)))
      exact judged.trans (if_neg (not_not_intro ok))
  case releases =>
    intro ver held
    have judged := vcReleaseDev_of_fresh (o := s.otp) hclean h hop
    have atHeld : vcReleaseStatus s.dev r = _ := firstBad_passes hform
    have all_held :
        ps.all (fun x => decide (ver ≤ s.dev.verCommitted.toNat) && relHeld (vcExact r) (peFound x.2 ver)) = true ↔
          ∀ x ∈ ps, held x := by
      simp only [List.all_eq_true, Bool.and_eq_true, decide_eq_true_eq, held]
    refine ⟨fun ⟨x, hx, hfree⟩ => ?fails, fun hall => ?given⟩
    case fails =>
      have status := atHeld.trans (firstBad_fails (Bool.eq_false_iff.mpr (fun hall => hfree (all_held.mp hall x hx))))
      exact (exec_vcRelease ..).trans
        (runDev_of_agree (judged.trans (statusStage_ends status (by decide) (cmdFinal _ q sq · 0) _)))
    case given =>
      have status := atHeld.trans (firstBad_passes (all_held.mpr hall))
      exact (exec_vcRelease ..).trans (runDev_of_agree (judged.trans (if_neg (not_not_intro status))))

end Sys2Proof.Machine
end

section
/-! Packets of collectives (chapter 14): versioned reads, gathered data, blocks of an all-to-all and tokens of a barrier: the
statement O34. Each packet is taken from the inbox, and the channel that its body or its request names acts on it. -/
namespace Sys2Proof.Machine

/-! ### What taking a packet leaves of the channels, the requests and the box -/

section
variable (d : Dev) (port : Nat) (p : Pkt)

theorem verCommitted_takePkt : (takePkt d port p).verCommitted = d.verCommitted := by
  obtain ⟨_, _, h⟩ := takePkt_frame d port p; rw [h]

theorem boxIndex_takePkt (base ext c : Nat) : boxIndex (takePkt d port p) base ext c = boxIndex d base ext c := by
  obtain ⟨_, _, h⟩ := takePkt_frame d port p; rw [h]; rfl

theorem chChildren_takePkt (c : Chan) (root : Nat) : chChildren (takePkt d port p) c root = chChildren d c root := by
  obtain ⟨_, _, h⟩ := takePkt_frame d port p; rw [h]; rfl

theorem chGet_takePkt (n : Nat) : chGet (takePkt d port p) n = chGet d n := by
  rw [chGet, takePkt_chans, chGet]

theorem chMatch_takePkt (n op seq : Nat) : chMatch (takePkt d port p) n op seq = chMatch d n op seq := by
  simp only [chMatch, chGet_takePkt]

theorem reqChan_takePkt (t : Nat) : reqChan (takePkt d port p) t = reqChan d t := by
  simp only [reqChan, reqGet, takePkt_reqs]

end

/-! ### Packets of a channel -/

/-- A packet of the operation that its channel runs is processed. -/
theorem onChan_runs {d : Dev} {n op seq : Nat} {c : Chan} (hm : chMatch d n op seq = 0) (hc : chGet d n = some c) (p : Pkt)
    (f : Dev → Chan → Dev) : onChan d p n op seq f = f d c := by
  simp only [onChan, hm, hc]

/-- An acknowledgement by the module that a channel's request went to answers the request. -/
theorem onAck_answers {d : Dev} {p : Pkt} {n : Nat} {r : Req} {k : Nat} (hr : reqChan d p.tag = some (n, r))
    (hk : r.pkt.kind = k) (hdst : r.pkt.dst = p.src) (op : Nat) (f : Dev → Nat → Dev) :
    onAck d p k op f = f (chAnswered d n p.tag) n := by
  simp only [onAck, hr, hk, hdst, and_self, if_true]

section
variable {o : Otp} {d : Dev} {port : Nat} {p : Pkt} {n : Nat}

/-- SHARD_DATA is stored at the offset that its request asked for. -/
theorem shardDataDev_stores {r : Req} (hp : inboxFind d 0x13 = some (port, p)) (hr : reqChan d p.tag = some (n, r)) :
    shardDataDev o d =
      agSettle (agStore (chAnswered (takePkt d port p) n p.tag) n r.off (p.payload.take (fld p.body 2 2))) n := by
  rw [shardDataDev, onPacket_found hp]
  simp only [reqChan_takePkt, hr]

theorem a2aAckDev_answers {r : Req} (hp : inboxFind d 0x29 = some (port, p)) (hr : reqChan d p.tag = some (n, r))
    (hk : r.pkt.kind = 0x28) (hdst : r.pkt.dst = p.src) :
    a2aAckDev o d = a2aSettle (chAnswered (takePkt d port p) n p.tag) n := by
  rw [a2aAckDev, onPacket_found hp, onAck_answers ((reqChan_takePkt ..).trans hr) hk hdst]

/-- A packet from the inbox that is of the operation its channel runs is processed on the device that it has left. -/
theorem onChan_taken {op seq : Nat} {c : Chan} (hc : chGet d n = some c) (hm : chMatch d n op seq = 0) (f : Dev → Chan → Dev) :
    onChan (takePkt d port p) p n op seq f = f (takePkt d port p) c :=
  onChan_runs ((chMatch_takePkt ..).trans hm) ((chGet_takePkt ..).trans hc) p f

/-- A block of an all-to-all from a member is judged by its form. -/
theorem a2aBlockDev_judged {c : Chan} {i : Nat} (hp : inboxFind d 0x28 = some (port, p))
    (hi : boxIndex d c.group.base c.group.ext p.src = some i) (hc : chGet d (fld p.body 6 1 % 16) = some c)
    (hm : chMatch d (fld p.body 6 1 % 16) 3 (fld p.body 4 2) = 0) :
    a2aBlockDev o d =
      let n := fld p.body 6 1 % 16
      let s := fld p.body 8 4
      let k := fld p.body 6 2 / 16
      let rows := min (a2aRows (chDst c)) (s - fld p.body 0 4)
      if !a2aForm c p then pktBad (takePkt d port p) port
      else a2aSettle (sendNew (chMod (a2aStore (takePkt d port p) n c i (fld p.body 0 4) k rows p.payload) n
        (fun c => a2aNote c i rows s (if k + 1 = a2aPieces (chDst c) then rows else 0))) 0x29 p.src p.tag p.body []) n := by
  rw [a2aBlockDev, onPacket_found hp]
  simp only [onChan_taken hc hm, boxIndex_takePkt, hi]

/-- A token from a member is noted. -/
theorem barUpDev_notes {c : Chan} {i : Nat} (hp : inboxFind d 0x40 = some (port, p))
    (hi : boxIndex d c.group.base c.group.ext p.src = some i) (hc : chGet d (fld p.body 4 1 % 16) = some c)
    (hm : chMatch d (fld p.body 4 1 % 16) 4 (fld p.body 2 2) = 0) :
    barUpDev o d = barToken (takePkt d port p) (fld p.body 4 1 % 16) i := by
  rw [barUpDev, onPacket_found hp]
  simp only [onChan_taken hc hm, boxIndex_takePkt, hi]

theorem barDownDev_ends {c : Chan} (hp : inboxFind d 0x41 = some (port, p)) (hc : chGet d (fld p.body 4 1 % 16) = some c)
    (hm : chMatch d (fld p.body 4 1 % 16) 4 (fld p.body 2 2) = 0) :
    barDownDev o d = barDone (takePkt d port p) (fld p.body 4 1 % 16) c := by
  rw [barDownDev, onPacket_found hp]
  exact onChan_taken hc hm _

end

/-! ### Held reads -/

/-- A read that arrives is held when its version is still to come. -/
theorem shardReadDev_arrives {o : Otp} {d : Dev} {port : Nat} {p : Pkt} (hp : inboxFind d 0x12 = some (port, p)) :
    shardReadDev o d =
      let r : ShardReq := ⟨none, p.src, p.tag, fld p.body 0 2, fld p.payload 0 8, fld p.body 4 8, fld p.body 2 2,
        (fld p.payload 8 1).testBit 0⟩
      let taken := takePkt d port p
      if d.verCommitted.toNat < r.version then { taken with shardReqs := taken.shardReqs ++ [r] } else shardServe taken r := by
  rw [shardReadDev, onPacket_found hp]
  simp only [shardArrive, verCommitted_takePkt]

/-- Settles O34: a read is judged by VER_COMMITTED, a packet of a channel by its request or by the channel that its body names. -/
theorem collectivePacketsAct : Obligations.CollectivePacketsAct := by
  refine ⟨fun s port p hp => ?read, fun s r => ⟨fun hfirst => ?served, fun n hnth => ?expired⟩,
    fun s port p n r hr => ⟨fun hp => ?stored, fun hp hk hdst => ?answered⟩, fun s port p c i hi => ⟨?block, ?tokens⟩⟩
  case read =>
    intro r
    have judged := shardReadDev_arrives (o := s.otp) hp
    exact ⟨fun hdue => (exec_shardRead ..).trans (runDev_of_agree (judged.trans (if_neg (Nat.not_lt.mpr hdue)))),
      fun hlate => (exec_shardRead ..).trans (runDev_of_agree (judged.trans (if_pos hlate)))⟩
  case served => exact (exec_shardReadResolve ..).trans (runDev_of_agree (by simp only [shardResolveDev, hfirst]))
  case expired => exact (exec_shardReadWaitExpiry ..).trans (runDev_of_agree (by simp only [shardExpiryDev, hnth]))
  case stored => exact (exec_shardData ..).trans (runDev_of_agree (shardDataDev_stores hp hr))
  case answered => exact (exec_a2aAck ..).trans (runDev_of_agree (a2aAckDev_answers hp hr hk hdst))
  case block =>
    intro n hp hc hm first all k rows
    have judged := a2aBlockDev_judged (o := s.otp) hp hi hc hm
    exact ⟨fun hform => (exec_a2aBlock ..).trans
        (runDev_of_agree (judged.trans (if_neg (by simp only [hform, Bool.not_true, Bool.false_eq_true, not_false_eq_true])))),
      fun hform => (exec_a2aBlock ..).trans (runDev_of_agree (judged.trans (if_pos (congrArg not hform))))⟩
  case tokens =>
    intro n hc hm
    refine ⟨fun hp => (exec_barUp ..).trans (runDev_of_agree (barUpDev_notes hp hi hc hm)), fun hp => ?_⟩
    refine (exec_barDown ..).trans (runDev_of_agree ((barDownDev_ends hp hc hm).trans ?_))
    rw [barDone, chChildren_takePkt]

end Sys2Proof.Machine
end

section
/-! Norms and the verdict of their total (chapter 11): the statements O29 and O30. The verdict is read off the layout of its record;
DC_NORM_SUBMIT, the partial norm and a child's record are followed along the branch that the hypotheses pick. -/
namespace Sys2Proof.Machine

/-! ### The verdict record (Table 11-3) -/

/-- The verdict record of a step: its kind and reason bits, the clip factor, the norm, the non-finite count and the total. -/
def verdictBytes (step kind why f n nf q : Nat) : List Byte :=
  sealRec (natLe 8 step ++ natLe 1 kind ++ natLe 1 why ++ zeros 2 ++ natLe 4 f ++ natLe 4 n ++ natLe 4 nf ++ natLe 4 q)

section
variable (step kind why f n nf q : Nat)

theorem sealOk_verdictBytes : sealOk 32 (verdictBytes step kind why f n nf q) = true :=
  sealOk_sealRec' (by simp only [List.length_append, natLe_length, zeros_length])

theorem length_verdictBytes : (verdictBytes step kind why f n nf q).length = 32 := by
  simp only [verdictBytes, sealRec, List.length_append, natLe_length, zeros_length]

/-- What a field of the record holds is the number written there, modulo the field's range. -/
theorem verdictBytes_fields :
    let v := verdictBytes step kind why f n nf q
    vdStep v = step % 256 ^ 8 ∧ vdKind v = kind % 256 ^ 1 ∧ fld v 9 1 = why % 256 ^ 1 ∧ fld v 12 4 = f % 256 ^ 4 ∧
      fld v 16 4 = n % 256 ^ 4 ∧ fld v 20 4 = nf % 256 ^ 4 ∧ fld v 24 4 = q % 256 ^ 4 := by
  simp [verdictBytes, vdStep, vdKind, sealRec, fld_append_left, fld_append_right, fld_natLe]

end

/-! ### The verdict of a total -/

/-- The reasons to skip that the total itself gives: the vote, a non-finite item, an overflow (R301). -/
def totalReasons (t : List Byte) : Nat :=
  fld t 8 1 % 2 + (if fld t 4 4 = 0 then 0 else 2) + (if finF (fld t 0 4) then 0 else 4)

theorem totalReasons_lt (t : List Byte) : totalReasons t < 256 := by
  have hvote : fld t 8 1 % 2 < 2 := Nat.mod_lt _ (by decide)
  unfold totalReasons; split <;> split <;> omega

/-- VD_REASON: GD_SKIP_NORM is judged only when the total itself gives no reason (R301). -/
def verdictReasons (c : GuardCfg) (t : List Byte) : Nat :=
  if totalReasons t = 0 ∧ ltF 0 c.skip ∧ ltF c.skip (sqrtF (fld t 0 4)) then 8 else totalReasons t

/-- The verdict record of a total, with the kind, reasons and factor given. -/
def totalVerdict (t : List Byte) (kind why f : Nat) : List Byte :=
  verdictBytes (fld t 16 8) kind why f (sqrtF (fld t 0 4)) (fld t 4 4) (fld t 0 4)

/-- Kind and factor follow the reasons and, when there are none, GD_CLIP_NORM. -/
theorem verdictOf_eq (c : GuardCfg) (t : List Byte) :
    let n := sqrtF (fld t 0 4)
    let why := verdictReasons c t
    let clip := ltF 0 c.clip && ltF c.clip n
    verdictOf c t = totalVerdict t (if why ≠ 0 then 2 else if clip then 1 else 0) why
      (if why ≠ 0 then 0 else if clip then divF c.clip n else oneF) := rfl

section
variable {c : GuardCfg} {t : List Byte}

theorem verdictOf_skip (h : verdictReasons c t ≠ 0) : verdictOf c t = totalVerdict t 2 (verdictReasons c t) 0 := by
  simp only [verdictOf_eq, if_pos h]

theorem verdictOf_clip (h : verdictReasons c t = 0) (hset : ltF 0 c.clip = true)
    (hover : ltF c.clip (sqrtF (fld t 0 4)) = true) :
    verdictOf c t = totalVerdict t 1 0 (divF c.clip (sqrtF (fld t 0 4))) := by
  simp only [verdictOf_eq, h, hset, hover, ne_eq, not_true_eq_false, if_false, Bool.and_self, if_true]

theorem verdictOf_apply (h : verdictReasons c t = 0)
    (hclip : ¬(ltF 0 c.clip = true ∧ ltF c.clip (sqrtF (fld t 0 4)) = true)) : verdictOf c t = totalVerdict t 0 0 oneF := by
  simp only [verdictOf_eq, h, Bool.and_eq_true, hclip, ne_eq, not_true_eq_false, if_false]

/-- The record carries the step, the norm, the non-finite count and the total, whatever its kind. -/
theorem totalVerdict_carries (t : List Byte) (kind why f : Nat) :
    let v := totalVerdict t kind why f
    vdStep v = fld t 16 8 ∧ fld v 16 4 = sqrtF (fld t 0 4) % 2 ^ 32 ∧ fld v 20 4 = fld t 4 4 ∧ fld v 24 4 = fld t 0 4 := by
  obtain ⟨hstep, -, -, -, hn, hnf, hq⟩ := verdictBytes_fields (fld t 16 8) kind why f (sqrtF (fld t 0 4)) (fld t 4 4) (fld t 0 4)
  exact ⟨hstep.trans (Nat.mod_eq_of_lt (fld_lt ..)), hn, hnf.trans (Nat.mod_eq_of_lt (fld_lt ..)),
    hq.trans (Nat.mod_eq_of_lt (fld_lt ..))⟩

/-- A verdict is of the kind, the reasons and the factor that were written. -/
theorem totalVerdict_decides {v : List Byte} {kind why f : Nat} (hv : v = totalVerdict t kind why f) (hkind : kind < 256)
    (hwhy : why < 256) : vdKind v = kind ∧ fld v 9 1 = why ∧ fld v 12 4 = f % 2 ^ 32 := by
  subst hv
  obtain ⟨-, hk, hr, hf, -⟩ := verdictBytes_fields (fld t 16 8) kind why f (sqrtF (fld t 0 4)) (fld t 4 4) (fld t 0 4)
  exact ⟨hk.trans (Nat.mod_eq_of_lt hkind), hr.trans (Nat.mod_eq_of_lt hwhy), hf⟩

end

/-- Settles O29: the reasons decide on SKIP, then GD_CLIP_NORM between CLIP and APPLY; each field is read off the record. -/
theorem verdictOfATotal : Obligations.VerdictOfATotal := by
  intro c t q nf n why v
  obtain ⟨hstep, hn, hnf, hq⟩ := totalVerdict_carries t _ _ _
  refine ⟨sealOk_verdictBytes .., length_verdictBytes .., hstep, hn, hnf, hq, fun hwhy => ?reason,
    fun hwhy hset hover => ?above, fun hwhy hskip => ?unskipped⟩
  case reason =>
    have reasons : verdictReasons c t = why := if_neg (fun h => hwhy h.1)
    have skips : v = totalVerdict t 2 why 0 := reasons ▸ verdictOf_skip (reasons ▸ hwhy)
    exact totalVerdict_decides skips (by decide) (totalReasons_lt t)
  case above =>
    have reasons : verdictReasons c t = 8 := if_pos ⟨hwhy, hset, hover⟩
    have skips : v = totalVerdict t 2 8 0 := reasons ▸ verdictOf_skip (reasons ▸ by decide)
    exact totalVerdict_decides skips (by decide) (by decide)
  case unskipped =>
    have reasons : verdictReasons c t = 0 := (if_neg (fun h => hskip h.2)).trans hwhy
    exact ⟨fun hset hover => totalVerdict_decides (verdictOf_clip reasons hset hover) (by decide) (by decide),
      fun hclip => totalVerdict_decides (verdictOf_apply reasons hclip) (by decide) (by decide)⟩

/-! ### DC_NORM_SUBMIT -/

theorem QueuesOnly.guard {d d' : Dev} (h : QueuesOnly d d') : d'.guard = d.guard := by
  obtain ⟨m, rfl⟩ := h; rfl

/-- The status of the checks of R296. -/
def normSubmitStatus (d : Dev) (fn : Nat) (b : List Byte) : Nat :=
  let step := fld b 0 8
  let res := fld b 16 8
  firstBad [(d.guard.cfg.isSome, stGuardConfig),
    (decide (fld b 8 1 < 2) && zeroAt b 9 7 && zeroAt b 24 24 && (res == 0 || (isMul res 32 && isOwn d res)), stGuardParam),
    (step == d.verLastStep.toNat + 1, stGuardStep), (d.guard.submitted != step, stGuardDup),
    (res == 0 || windowOk d fn res 32 true, stRrWindow), (res == 0 || mapped d (localOf res) 32, stAddrUnmapped)]

/-- A fresh DC_NORM_SUBMIT is begun; the checks are those of the device from before. -/
theorem dcNormSubmitDev_of_fresh {q : Nat} {o : Otp} {d : Dev} {v : Queue} {r : Running}
    (h : fresh d q (· == 0x30) = some (v, r)) :
    dcNormSubmitDev q o d =
      let begun := runMod d q r.cmd.cseq.toNat (fun r => { r with started := true })
      let st := normSubmitStatus d v.owner r.cmd.body
      if st ≠ stOk then cmdFinal begun q r.cmd.cseq.toNat st 0
      else guardMod begun (fun g => { g with submitted := fld r.cmd.body 0 8 }) := by
  have frame := runMod_frame d q r.cmd.cseq.toNat (fun r => { r with started := true })
  simp only [dcNormSubmitDev, onFresh_fresh h, normSubmitStatus, frame.guard, frame.verLastStep, frame.windowOk, frame.isOwn,
    frame.mapped]
  exact ite_congr rfl (fun _ => rfl) (fun _ => rfl)

/-! ### Records of children -/

/-- A record of the guard's group with its CRC enters the reduction; another is dropped (R403). -/
theorem normUpDev_found {o : Otp} {d : Dev} {port : Nat} {p : Pkt} (hp : inboxFind d 0x38 = some (port, p)) :
    normUpDev o d =
      if guardPacket d p then normTake o (takePkt d port p) p.src (p.payload.take 32) else takePkt d port p := by
  rw [normUpDev, onPacket_found hp, guardPacket_takePkt]

/-- Settles O30: the checks of R296 judge the submission, the CRC and the group a child's record; the partial norm is one act of the
submitted command. -/
theorem normsAreReduced : Obligations.NormsAreReduced := by
  intro q s v r b sq begun step res last st
  refine ⟨fun h => ?submit, fun hw => ?complete, fun port p hp => ?child⟩
  case submit =>
    have judged := dcNormSubmitDev_of_fresh (o := s.otp) h
    exact ⟨fun hbad => (exec_dcNormSubmit ..).trans (runDev_of_agree (judged.trans (if_pos hbad))),
      fun hok => (exec_dcNormSubmit ..).trans (runDev_of_agree (judged.trans (if_neg (not_not_intro hok))))⟩
  case complete => exact (exec_partialNormComplete ..).trans (runDev_of_agree (onActive_of_awaits hw _))
  case child =>
    have judged := normUpDev_found (o := s.otp) hp
    exact ⟨fun hguard => (exec_normUp ..).trans (runDev_of_agree (judged.trans (if_pos hguard))),
      fun hforeign => (exec_normUp ..).trans (runDev_of_agree (judged.trans (if_neg (Bool.eq_false_iff.mp hforeign))))⟩

end Sys2Proof.Machine
end

section
/-! The passage plan (chapter 12): the start of a plan, the entries that move pages, waits and signals: the statements O38 to O40.
An entry that passes its checks is begun; from there each kind of entry is one equation of the plan's engine. -/
namespace Sys2Proof.Machine

/-! ### DC_PLAN -/

/-- The windows of the list, the expectations and the result record, each where the body names one (R311). -/
def planInside (d : Dev) (fn : Nat) (b : List Byte) : Bool :=
  windowOk d fn (fld b 8 8) (32 * fld b 4 4) false && (fld b 32 8 == 0 || windowOk d fn (fld b 32 8) 32 false) &&
    (fld b 40 8 == 0 || windowOk d fn (fld b 40 8) 32 true)

/-- Their bytes are bytes of the module (R31). -/
def planThere (d : Dev) (b : List Byte) : Bool :=
  ownMapped d (fld b 8 8) (32 * fld b 4 4) && (fld b 32 8 == 0 || ownMapped d (fld b 32 8) 32) &&
    (fld b 40 8 == 0 || ownMapped d (fld b 40 8) 32)

/-- The plan that DC_PLAN begins: its expectations are read from the module as it then is. -/
def planNew (d : Dev) (q : Nat) (r : Running) : Plan :=
  let b := r.cmd.body
  ⟨q, r.cmd.cseq.toNat, fld b 8 8, fld b 4 4, (List.range 8).map (fun i => fld b (16 + 2 * i) 2),
    (List.range 8).map (fun i => if fld b 32 8 = 0 then 0 else memNat d (localOf (fld b 32 8) + 4 * i) 4),
    fld b 40 8, 0, 0, 0, 0, [], [], [], 0, [], 0, [], [], []⟩

/-- A stage with three checks is a stage for each. -/
theorem firstBad_triple_stage {a b c : Bool} {sa sb sc : Nat} (ha : sa ≠ stOk) (hb : sb ≠ stOk) (hc : sc ≠ stOk)
    (f : Nat → Dev) (y : Dev) :
    (if firstBad [(a, sa), (b, sb), (c, sc)] ≠ stOk then f (firstBad [(a, sa), (b, sb), (c, sc)]) else y) =
      if !a then f sa else if !b then f sb else if !c then f sc else y := by
  cases a <;> cases b <;> cases c <;> simp [firstBad, ha, hb, hc]

/-- A fresh DC_PLAN is begun, judged and refused, or its plan is put on its engine. -/
theorem dcPlanDev_of_fresh {q : Nat} {o : Otp} {d : Dev} {v : Queue} {r : Running} (h : fresh d q (· == 0x05) = some (v, r)) :
    dcPlanDev q o d =
      let begun := runMod d q r.cmd.cseq.toNat (fun r => { r with started := true })
      let refused := planRefuse begun q r.cmd.cseq.toNat v.owner (fld r.cmd.body 40 8)
      if !planParam begun r.cmd.body then refused stPlanParam
      else if !planInside begun v.owner r.cmd.body then refused stRrWindow
      else if !planThere begun r.cmd.body then refused stAddrUnmapped
      else planSet begun (r.engine % 32) (planNew begun q r) := by
  rw [dcPlanDev, onFresh_fresh h]
  exact firstBad_triple_stage (by decide) (by decide) (by decide) (planRefuse _ q _ v.owner _) _

section
variable {d : Dev} {q sq fn res st : Nat}

theorem planRefuse_told (h : res ≠ 0 ∧ isMul res 32 = true ∧ windowOk d fn res 32 true = true ∧ ownMapped d res 32 = true) :
    planRefuse d q sq fn res st = cmdFinal (memWrite d (localOf res) (planRecord 0 0xFFFFFFFF 0 0)) q sq st 0 :=
  congrArg (cmdFinal · q sq st 0) (if_pos h)

theorem planRefuse_untold (h : ¬(res ≠ 0 ∧ isMul res 32 = true ∧ windowOk d fn res 32 true = true ∧ ownMapped d res 32 = true)) :
    planRefuse d q sq fn res st = cmdFinal d q sq st 0 :=
  congrArg (cmdFinal · q sq st 0) (if_neg h)

end

/-- Settles O38: the parameters, the windows and the map are judged in this order; the first that fails refuses the plan. -/
theorem planStarts : Obligations.PlanStarts := by
  intro q s v r hfresh b sq begun ok inside there exps tallies res told fails
  have judged := dcPlanDev_of_fresh (o := s.otp) hfresh
  have refused {st : Nat} (h : dcPlanDev q s.otp s.dev = planRefuse (begun s.dev) q sq v.owner res st) : fails st :=
    ⟨fun htold => (exec_dcPlan ..).trans (runDev_of_agree (h.trans (planRefuse_told htold))),
      fun huntold => (exec_dcPlan ..).trans (runDev_of_agree (h.trans (planRefuse_untold huntold)))⟩
  refine ⟨fun hok hin hthere => ?begins, fun hbad => ?param, fun hok hout => ?window, fun hok hin hgone => ?unmapped⟩
  case param => exact refused (judged.trans (crcStage_ends hbad _ _))
  all_goals have atWindow := judged.trans (crcStage_goesOn hok _ _)
  case window => exact refused (atWindow.trans (crcStage_ends hout _ _))
  all_goals have atMap := atWindow.trans (crcStage_goesOn hin _ _)
  case unmapped => exact refused (atMap.trans (crcStage_ends hgone _ _))
  case begins => exact (exec_dcPlan ..).trans (runDev_of_agree (atMap.trans (crcStage_goesOn hthere _ _)))

/-! ### What a change of the plans or of the records leaves alone -/

@[simp] theorem planGet_planSet (d : Dev) (x : Nat) (p : Plan) : planGet (planSet d x p) x = some p := by
  rw [planGet, planSet, smGet_smSet_self]

theorem planMod_of_some {d : Dev} {x : Nat} {p : Plan} (h : planGet d x = some p) (f : Plan → Plan) :
    planMod d x f = planSet d x (f p) := by
  simp only [planMod, h]

@[simp] theorem planGet_pcAdd (d : Dev) (i n x : Nat) : planGet (pcAdd d i n) x = planGet d x := rfl

@[simp] theorem planGet_memWrite (d : Dev) (a : Nat) (bs : List Byte) (x : Nat) : planGet (memWrite d a bs) x = planGet d x := by
  obtain ⟨_, _, h⟩ := memWrite_frame d a bs
  rw [h]; rfl

/-- A plan that stands as it was last written is not changed by writing it again. -/
theorem planSet_of_plans {d d' : Dev} {x : Nat} {p : Plan} (h : d'.plans = (planSet d x p).plans) : planSet d' x p = d' := by
  have again : smSet none d'.plans x (some p) = d'.plans := by rw [h, planSet, smSet_smSet]
  rw [planSet, again]

/-- What bars an entry is read from fields other than the plans. -/
theorem entryBar_planSet (d : Dev) (x : Nat) (p : Plan) (e : List Byte) : entryBar (planSet d x p) e = entryBar d e := rfl

/-- The listing of an entry's slots is all in the plans. -/
theorem planTouch_frame (d : Dev) (x : Nat) (e : List Byte) : ∃ m, planTouch d x e = { d with plans := m } := by
  unfold planTouch planMod
  repeat' split
  all_goals exact ⟨_, rfl⟩

section
variable {d d' : Dev}

theorem RecordsOnly.objs (h : RecordsOnly d d') : d'.objs = d.objs := by
  obtain ⟨_, _, _, _, _, _, _, _, _, rfl⟩ := h; rfl

theorem RecordsOnly.pow (h : RecordsOnly d d') : d'.pow = d.pow := by
  obtain ⟨_, _, _, _, _, _, _, _, _, rfl⟩ := h; rfl

theorem RecordsOnly.plans (h : RecordsOnly d d') : d'.plans = d.plans := by
  obtain ⟨_, _, _, _, _, _, _, _, _, rfl⟩ := h; rfl

/-! A module's own addresses are a matter of its site code, which `Dev.pow` holds. -/

theorem isOwn_of_pow (h : d'.pow = d.pow) (ga : Nat) : isOwn d' ga = isOwn d ga := by
  simp only [isOwn, ownCoord, h]

theorem homeAddr_of_pow (h : d'.pow = d.pow) (ob : MemObj) (off : Nat) : homeAddr d' ob off = homeAddr d ob off := by
  rw [homeAddr, ownCoord, h]
  rfl

theorem homeOwn_of_pow (h : d'.pow = d.pow) (ob : MemObj) : homeOwn d' ob = homeOwn d ob := by
  simp only [homeOwn, homeAddr_of_pow h, isOwn_of_pow h]

end

/-! ### An entry begins -/

/-- A first read of a record that is good tells nothing. -/
theorem readRecord_first (o : Otp) (d : Dev) (a : Nat) {good : Bool} (h : good = true) : readRecord o d a good 0 = (d, true) := by
  subst h; rfl

/-- An entry that passes every check is handed on, and is then the plan's entry in progress. -/
theorem onEntry_of_atEntry {o : Otp} {d : Dev} {x : Nat} {p : Plan} {e : List Byte} {k : Nat → Bool}
    {f : Dev → Plan → List Byte → Dev} (h : AtEntry d x p e) (hk : k (fld e 0 1) = true) :
    onEntry o d x 0 k f = f (planSet d x { p with entry := e, phase := 1 }) p e := by
  obtain ⟨hp, hphase, he, hcrc, hform, hobj, hwindow, hdir, hbusy⟩ := h
  have inWindow : (decide (5 < fld e 0 1) || entryWindow d (planFn d p) e) = true := by simpa using hwindow
  have skipped : ¬(p.phase ≠ 0 ∨ k (fld e 0 1) = false ∨ slotsBusy d x e = true) := by simp [hphase, hk, hbusy]
  simp only [onEntry, hp, ← he, if_neg skipped, readRecord_first o d _ hcrc, hdir, ite_self, hform, hobj, inWindow, firstBad,
    beq_self_eq_true, if_true, ne_eq, not_true_eq_false, if_false, planMod_of_some hp]

/-! ### Waits and signals -/

section
variable {o : Otp} {d : Dev} {x : Nat} {p : Plan} {e : List Byte}

/-- A WAIT entry reads its tally, and is judged by it. -/
theorem ppWaitDev_of_atEntry (h : AtEntry d x p e) (hkind : fld e 0 1 = 6) :
    ppWaitDev x 0 o d =
      let now := tallyLook (planSet d x { p with entry := e, phase := 1 }) (nth p.tallies (bits (fld e 4 4) 27 3))
      let t := planTest now { p with waitRes := 0 } e
      if t = 2 then planFail now x stTallySat
      else if t = 1 then planMet now x e
      else planMod now x (fun p => { p with phase := 3, waitRes := 0 }) :=
  onEntry_of_atEntry h (by simp [hkind])

/-- The entry of a plan is done: the plan goes on, or ends after its last entry, once the signal asked for is added. -/
theorem planDone_of_some (hp : planGet d x = some p) :
    planDone d x =
      let sig := fld p.entry 1 1
      let d' := if sig.testBit 7 then
        tallyAdd d (nth p.tallies (sig % 8)) (if fld p.entry 0 1 = 7 then fld p.entry 4 4 else 1) else d
      let later := { p with next := p.next + 1, phase := 0, entry := [], rbuf := [], waitRes := 0 }
      if p.next + 1 = p.count then planEnd d' x later stOk else planSet d' x later := by
  simp only [planDone, hp]

/-- A SIGNAL entry that passes its checks asks for its signal (Table 12-9). -/
theorem entryOk_signal (h : entryOk p e = true) (hkind : fld e 0 1 = 7) : (fld e 1 1).testBit 7 = true := by
  simp only [entryOk, hkind] at h
  simp only [Bool.and_eq_true, reduceIte, Nat.reduceLeDiff, and_false, Nat.reduceEqDiff] at h
  obtain ⟨⟨⟨⟨-, hsig⟩, -⟩, -⟩, -⟩ := h
  exact hsig

theorem ppSignalDev_of_atEntry (h : AtEntry d x p e) (hkind : fld e 0 1 = 7) :
    ppSignalDev x 0 o d =
      let added := tallyAdd (planSet d x { p with entry := e, phase := 1 }) (nth p.tallies (fld e 1 1 % 8)) (fld e 4 4)
      let later := { p with next := p.next + 1, phase := 0, entry := [], rbuf := [], waitRes := 0 }
      if p.next + 1 = p.count then planEnd added x later stOk else planSet added x later := by
  have ⟨_, _, _, _, hform, _⟩ := h
  rw [ppSignalDev, onEntry_of_atEntry h (by simp [hkind]), planDone_of_some (planGet_planSet ..)]
  simp only [entryOk_signal hform hkind, hkind, if_true]

/-- A pending wait ends with the verdict of its tally, and its cycles are counted. -/
theorem planWaitMetDev_judged (hp : planGet d x = some p) (hphase : p.phase = 3) (ht : planTest d p p.entry ≠ 0) :
    planWaitMetDev x o d =
      if planTest d p p.entry = 2 then planFail (planWaited d x) x stTallySat else planMet (planWaited d x) x p.entry := by
  have judged : ¬(p.phase ≠ 3 ∨ planTest d p p.entry = 0) := by simp [hphase, ht]
  simp only [planWaitMetDev, hp, if_neg judged]
  rfl

theorem planWaitLimitDev_pending (hp : planGet d x = some p) (hphase : p.phase = 3) (ht : planTest d p p.entry = 0) :
    planWaitLimitDev x o d = planFail (planWaited d x) x stWaitLimit := by
  simp only [planWaitLimitDev, hp]
  exact if_pos ⟨hphase, ht⟩

end

/-- Settles O40: the verdict on the tally picks the branch of a wait, the place of the entry in the list that of a signal. -/
theorem planWaitsAndSignals : Obligations.PlanWaitsAndSignals := by
  refine fun x s p e => ⟨fun h => ?entry, fun hp hphase => ?waiting⟩
  case entry =>
    intro p' now t
    refine ⟨fun hkind ht => ?met, fun hkind ht => ?saturated, fun hkind ht => ?pending, fun hkind => ?signal⟩
    case signal =>
      have added := ppSignalDev_of_atEntry (o := s.otp) h hkind
      exact ⟨fun hmore => (exec_ppSignal ..).trans (runDev_of_agree (added.trans (if_neg hmore))),
        fun hlast => (exec_ppSignal ..).trans (runDev_of_agree (added.trans (if_pos hlast)))⟩
    all_goals
      have judged := ppWaitDev_of_atEntry (o := s.otp) h hkind
      refine (exec_ppWait ..).trans (runDev_of_agree (judged.trans ?_))
    case saturated => exact if_pos ht
    case met => exact (if_neg (ht.trans_ne (by decide))).trans (if_pos ht)
    case pending => exact (if_neg (ht.trans_ne (by decide))).trans (if_neg (ht.trans_ne (by decide)))
  case waiting =>
    intro t stall
    have judged (ht : t ≠ 0) := planWaitMetDev_judged (o := s.otp) hp hphase ht
    refine ⟨fun ht => ?met, fun ht => ?saturated, fun ht => ?expired⟩
    case met =>
      exact (exec_planWaitMet ..).trans (runDev_of_agree ((judged (ht.trans_ne (by decide))).trans
        (if_neg (ht.trans_ne (by decide)))))
    case saturated =>
      exact (exec_planWaitMet ..).trans (runDev_of_agree ((judged (ht.trans_ne (by decide))).trans (if_pos ht)))
    case expired =>
      exact (exec_planWaitLimitExpiry ..).trans (runDev_of_agree (planWaitLimitDev_pending hp hphase ht))

/-! ### Entries that move pages -/

/-- The module once an entry that moves pages has begun: it is in progress, its side-bands are read and its slots listed. -/
def entryBegun (o : Otp) (d : Dev) (x : Nat) (p : Plan) (e : List Byte) : Dev :=
  planTouch (planSides o (planSet d x { p with entry := e, phase := 1 }) e) x e

/-- A slot gives up another page that it holds and takes its page from memory of the module. -/
def slotFilled (x n : Nat) (d : Dev) (y : Nat × Nat) : Dev :=
  match objGet d n with
  | some ob =>
    let d := planBack d x n ob y.1
    fillSlot d x n ob y.1 y.2 (gaRead d [] (homeAddr d ob (y.2 * 4096)) 4096)
  | none => d

section
variable {o : Otp} {d : Dev} {x : Nat} {p : Plan} {e : List Byte} {ob : MemObj} {n : Nat}

theorem objGet_entryBegun : objGet (entryBegun o d x p e) n = objGet d n := by
  obtain ⟨m, h⟩ := planTouch_frame (planSides o (planSet d x { p with entry := e, phase := 1 }) e) x e
  rw [objGet, entryBegun, h]
  exact congrArg (smGet none · n) (planSides_records ..).objs

theorem pow_entryBegun : (entryBegun o d x p e).pow = d.pow := by
  obtain ⟨m, h⟩ := planTouch_frame (planSides o (planSet d x { p with entry := e, phase := 1 }) e) x e
  rw [entryBegun, h]
  exact (planSides_records ..).pow

/-- An entry whose homes can be reached begins. -/
theorem planRow_begins {kind : Nat} (h : AtEntry d x p e) (hkind : fld e 0 1 = kind) (hbar : entryBar d e = none) :
    planRow x 0 kind o d = planBegin (entryBegun o d x p e) x e := by
  have ⟨hp, hphase, _⟩ := h
  have resting : ¬(p.phase = 1 ∨ p.phase = 2) := by simp [hphase]
  simp only [planRow, hp, if_neg resting]
  rw [onEntry_of_atEntry h (by simp [hkind])]
  simp only [entryBar_planSet, hbar]
  rfl

/-- An entry in progress is carried on. -/
theorem planRow_continues {rr kind : Nat} (hp : planGet d x = some p) (hphase : p.phase = 1 ∨ p.phase = 2)
    (hkind : fld p.entry 0 1 = kind) : planRow x rr kind o d = planGo d x := by
  simp only [planRow, hp, if_pos hphase, if_pos hkind]

/-! The begin of each kind (Table 12-10). -/

theorem planBegin_fill_own (hob : objGet d (fld e 2 2) = some ob) (hkind : fld e 0 1 = 1) (hown : homeOwn d ob = true) :
    planBegin d x e = planDone ((fillNeeds ob e).foldl (slotFilled x (fld e 2 2)) d) x := by
  simp only [planBegin, hob, if_pos hkind, if_pos hown]
  rfl

theorem planBegin_fill_away (hob : objGet d (fld e 2 2) = some ob) (hkind : fld e 0 1 = 1) (haway : homeOwn d ob = false) :
    planBegin d x e = fillNext d x (fld e 2 2) ob (fillNeeds ob e) := by
  simp [planBegin, hob, hkind, haway]

theorem planBegin_back (hob : objGet d (fld e 2 2) = some ob) (hkind : fld e 0 1 = 2 ∨ fld e 0 1 = 3) :
    planBegin d x e = planGo (((List.range (fld e 12 4)).map (fun i => fld e 8 4 + i)).foldl
      (fun d k => planBack d x (fld e 2 2) ob k) d) x := by
  have noFill : ¬fld e 0 1 = 1 := by omega
  simp only [planBegin, hob, if_neg noFill, if_pos hkind]

theorem planBegin_drop (hob : objGet d (fld e 2 2) = some ob) (hkind : fld e 0 1 = 4) :
    planBegin d x e = planDone (((List.range (fld e 12 4)).map (fun i => fld e 8 4 + i)).foldl
      (fun d k => dirSet (cleanSlot d (fld e 2 2) k (dirtyLines d ob k)) (fld e 2 2) k 0) d) x := by
  simp [planBegin, hob, hkind]

theorem planBegin_copy (hob : objGet d (fld e 2 2) = some ob) (hkind : fld e 0 1 = 5) :
    planBegin d x e = planGo (planFetch d x ob [(fld e 8 8, fld e 4 4)]) x := by
  simp [planBegin, hob, hkind]

/-! What an entry in progress does when nothing that it issued is outstanding. -/

theorem planGo_fill (hp : planGet d x = some p) (hidle : planIdle p = true) (hkind : fld p.entry 0 1 = 1)
    (hob : objGet d (fld p.entry 2 2) = some ob) : planGo d x = fillGo d x p (fld p.entry 2 2) ob := by
  simp [planGo, hp, hidle, hkind, hob]

theorem planGo_clean (hp : planGet d x = some p) (hidle : planIdle p = true) (hkind : fld p.entry 0 1 = 2) :
    planGo d x = planDone (planCleaned d x) x := by
  simp [planGo, hp, hidle, hkind]

theorem planGo_evict (hp : planGet d x = some p) (hidle : planIdle p = true) (hkind : fld p.entry 0 1 = 3) :
    planGo d x = planDone (((List.range (fld p.entry 12 4)).map (fun i => fld p.entry 8 4 + i)).foldl
      (fun d k => dirSet d (fld p.entry 2 2) k 0) (planCleaned d x)) x := by
  simp [planGo, hp, hidle, hkind, List.foldl_map]

theorem planGo_copy (hp : planGet d x = some p) (hidle : planIdle p = true) (hkind : fld p.entry 0 1 = 5)
    (hphase : p.phase = 1) {d' : Dev} {p' : Plan} (hd : copyFinish d x p = planSet d' x p') (hidle' : planIdle p' = true) :
    planGo d x = planDone (planSet d' x p') x := by
  simp [planGo, hp, hidle, hkind, hphase, hd, hidle']

/-! A FILL from another module or the host, one slot after the other. -/

theorem fillGo_written (hphase : p.phase = 1) {slot page : Nat} {rest : List (Nat × Nat)}
    (htodo : p.todo = (slot, page) :: rest) : fillGo d x p n ob = fillAsk d x ob page := by
  simp only [fillGo, htodo, if_pos hphase]

theorem fillGo_fetched (hphase : p.phase = 2) {slot page : Nat} {rest : List (Nat × Nat)}
    (htodo : p.todo = (slot, page) :: rest) {ob' : MemObj}
    (hob : objGet (fillSlot d x n ob slot page (planBytes d p ob (page * 4096) 4096)) n = some ob') :
    fillGo d x p n ob = fillNext (fillSlot d x n ob slot page (planBytes d p ob (page * 4096) 4096)) x n ob' rest := by
  have fetched : ¬p.phase = 1 := by omega
  simp only [fillGo, htodo, if_neg fetched, hob]

theorem fillGo_last (htodo : p.todo = []) : fillGo d x p n ob = planDone d x := by
  simp only [fillGo, htodo]

/-! A COPY inside the module. -/

theorem homeHost_of_own (hown : homeOwn d ob = true) : homeHost ob = false := by
  simp only [homeOwn, Bool.and_eq_true, Bool.not_eq_true'] at hown
  obtain ⟨hlocal, -⟩ := hown
  exact hlocal

/-- Nothing has to be fetched from a home on the module. -/
theorem planFetch_own (hp : planGet d x = some p) (hown : homeOwn d ob = true) {off k : Nat}
    (hsrc : isOwn d (homeAddr d ob off) = true) : planFetch d x ob [(off, k)] = planSet d x p := by
  have here : gaMissing d p.rbuf [(homeAddr d ob off, k)] = [] := by simp [gaMissing, hsrc]
  simp [planFetch, homeHost_of_own hown, hp, joinRanges, here, gaFetch, planMod_of_some hp]

/-- Bytes for a home on the module are written at once. -/
theorem homeWrite_own (hown : homeOwn d ob = true) {off : Nat} {bs : List Byte} (hdst : isOwn d (homeAddr d ob off) = true)
    (who : Issuer) : homeWrite d ob [(off, bs)] who = (memWrite d (localOf (homeAddr d ob off)) bs, [], 0) := by
  simp [homeWrite, homeHost_of_own hown, gaWrite, joinRuns, hdst]

/-- A COPY's bytes arrive at once when the destination is on the module. -/
theorem copyFinish_own {ob' : MemObj} (hp : planGet d x = some p) (hsrc : objGet d (fld p.entry 2 2) = some ob)
    (hdst : objGet d (fld p.entry 24 2) = some ob') (hown : homeOwn d ob' = true)
    (hhere : isOwn d (homeAddr d ob' (fld p.entry 16 8)) = true) :
    copyFinish d x p = planSet (pcAdd (memWrite d (localOf (homeAddr d ob' (fld p.entry 16 8)))
      (planBytes d p ob (fld p.entry 8 8) (fld p.entry 4 4))) (kEng (ek 6 x) + 3) (fld p.entry 4 4)) x { p with phase := 2 } := by
  simp only [copyFinish, hsrc, hdst, homeWrite_own hown hhere]
  rw [planMod_of_some (by simpa using hp), List.append_nil]
  rfl

end

/-- A COPY entry touches no slot, so that its plan is as it began. -/
theorem plans_entryBegun_copy {o : Otp} {d : Dev} {x : Nat} {p : Plan} {e : List Byte} (hkind : fld e 0 1 = 5) :
    (entryBegun o d x p e).plans = (planSet d x { p with entry := e, phase := 1 }).plans := by
  have noSlot : ¬fld e 0 1 ≤ 4 := by omega
  rw [entryBegun, planTouch, if_neg noSlot, (planSides_records ..).plans]

/-- A COPY entry between homes on the module moves its bytes and is done. -/
theorem planRow_copy {o : Otp} {d : Dev} {x : Nat} {p : Plan} {e : List Byte} {ob ob' : MemObj} (h : AtEntry d x p e)
    (hbar : entryBar d e = none) (hkind : fld e 0 1 = 5) (hidle : planIdle p = true)
    (hsrc : objGet d (fld e 2 2) = some ob) (hsrcOwn : homeOwn d ob = true) (hfrom : isOwn d (homeAddr d ob (fld e 8 8)) = true)
    (hdst : objGet d (fld e 24 2) = some ob') (hdstOwn : homeOwn d ob' = true)
    (hto : isOwn d (homeAddr d ob' (fld e 16 8)) = true) :
    planRow x 0 5 o d =
      let begun := entryBegun o d x p e
      let written := memWrite begun (localOf (homeAddr d ob' (fld e 16 8)))
        (gaRead begun p.rbuf (homeAddr d ob (fld e 8 8)) (fld e 4 4))
      planDone (planSet (pcAdd written (kEng (ek 6 x) + 3) (fld e 4 4)) x { p with entry := e, phase := 2 }) x := by
  have plans := plans_entryBegun_copy (o := o) (d := d) (x := x) (p := p) hkind
  have hpow : (entryBegun o d x p e).pow = d.pow := pow_entryBegun
  have hp : planGet (entryBegun o d x p e) x = some { p with entry := e, phase := 1 } :=
    (congrArg (smGet none · x) plans).trans (planGet_planSet ..)
  have addr (ob : MemObj) (off : Nat) := homeAddr_of_pow hpow ob off
  have own {ga : Nat} (hga : isOwn d ga = true) : isOwn (entryBegun o d x p e) ga = true := (isOwn_of_pow hpow ga).trans hga
  have ownHome {ob : MemObj} (hob : homeOwn d ob = true) : homeOwn (entryBegun o d x p e) ob = true :=
    (homeOwn_of_pow hpow ob).trans hob
  have fetched := planFetch_own (off := fld e 8 8) (k := fld e 4 4) hp (ownHome hsrcOwn) (by rw [addr]; exact own hfrom)
  have copied := copyFinish_own hp (objGet_entryBegun.trans hsrc) (objGet_entryBegun.trans hdst) (ownHome hdstOwn)
    (by rw [addr]; exact own hto)
  rw [planRow_begins h hkind hbar, planBegin_copy (objGet_entryBegun.trans hsrc) hkind, fetched, planSet_of_plans plans,
    planGo_copy hp hidle hkind rfl copied hidle]
  simp only [planBytes, addr]

/-- Settles O39: the kind of the entry picks how it begins and, once its accesses are answered, how it goes on. -/
theorem planEntriesRun : Obligations.PlanEntriesRun := by
  refine ⟨fun x s p e ob h hbar hob hown => ?begins,
    fun x s p e ob hob => ⟨fun h hbar haway hkind => ?fillAway, ?filling, ?writtenBack⟩⟩
  case begins =>
    intro n slots p' begun
    have hob' : objGet (entryBegun s.otp s.dev x p e) (fld e 2 2) = some ob := objGet_entryBegun.trans hob
    have hown' := (homeOwn_of_pow (pow_entryBegun (o := s.otp) (x := x) (p := p) (e := e)) ob).trans hown
    refine ⟨fun hkind => ?fill, fun hkind => ?clean, fun hkind => ?evict, fun hkind => ?drop, ?copy⟩
    case copy =>
      intro hkind ob2 hdst hdstOwn hremote hhost hflush src dst hfrom hto
      have hidle : planIdle p = true := by simp [planIdle, hremote, hhost, hflush]
      exact (exec_ppCopy ..).trans (runDev_of_agree (planRow_copy h hbar hkind hidle hob hown hfrom hdst hdstOwn hto))
    all_goals have begins := planRow_begins (o := s.otp) h hkind hbar
    case fill => exact (exec_ppFill ..).trans (runDev_of_agree (begins.trans (planBegin_fill_own hob' hkind hown')))
    case clean => exact (exec_ppClean ..).trans (runDev_of_agree (begins.trans (planBegin_back hob' (.inl hkind))))
    case evict => exact (exec_ppEvict ..).trans (runDev_of_agree (begins.trans (planBegin_back hob' (.inr hkind))))
    case drop => exact (exec_ppDrop ..).trans (runDev_of_agree (begins.trans (planBegin_drop hob' hkind)))
  case fillAway =>
    have haway' := (homeOwn_of_pow (pow_entryBegun (o := s.otp) (x := x) (p := p) (e := e)) ob).trans haway
    exact (exec_ppFill ..).trans (runDev_of_agree ((planRow_begins h hkind hbar).trans
      (planBegin_fill_away (objGet_entryBegun.trans hob) hkind haway')))
  case filling =>
    rintro hidle rfl hkind hp
    have goesOn (hphase : p.phase = 1 ∨ p.phase = 2) : planRow x 0 1 s.otp s.dev = fillGo s.dev x p (fld p.entry 2 2) ob :=
      (planRow_continues hp hphase hkind).trans (planGo_fill hp hidle hkind hob)
    refine ⟨fun slot page rest hphase htodo => ?written, fun slot page rest ob' hphase htodo => ?fetched,
      fun hphase htodo => ?last⟩
    case written =>
      exact (exec_ppFill ..).trans (runDev_of_agree ((goesOn (.inl hphase)).trans (fillGo_written hphase htodo)))
    case fetched =>
      exact fun hput => (exec_ppFill ..).trans (runDev_of_agree ((goesOn (.inr hphase)).trans (fillGo_fetched hphase htodo hput)))
    case last => exact (exec_ppFill ..).trans (runDev_of_agree ((goesOn (.inl hphase)).trans (fillGo_last htodo)))
  case writtenBack =>
    intro hp hidle
    refine ⟨fun hkind => ?clean, fun hkind => ?evict⟩
    all_goals have goesOn := planRow_continues (rr := 0) (o := s.otp) hp (.inl rfl) hkind
    case clean => exact (exec_ppClean ..).trans (runDev_of_agree (goesOn.trans (planGo_clean hp hidle hkind)))
    case evict => exact (exec_ppEvict ..).trans (runDev_of_agree (goesOn.trans (planGo_evict hp hidle hkind)))

end Sys2Proof.Machine
end

section
/-! What every step keeps, and what it starts from: the statements O54 to O58. Every command but an access of the debug window and
a register write is an effect on the module that is settled; those two are one unless they reach the control range. -/
namespace Sys2Proof.Machine

/-! ### A command is a settled effect -/

theorem exec_runs {i : Instr} (h : GoesOn i) (s : State) : ∃ f, exec i s = runDev f s := by
  cases i with
  | debugWindowAccess fn off width wr => exact h.elim
  | registerWrite fn off width val => exact h.elim
  | _ => exact ⟨_, rfl⟩

theorem reachesControl_unlocked {d : Dev} {fn off width : Nat} (h : reachesControl d fn off width = true) :
    d.sec.locked = false := by
  simp only [reachesControl, Bool.and_eq_true, Bool.not_eq_true'] at h
  exact h.2

/-- What a command can answer: the settled effect, or the refusal of the control range behind a released debug lock. -/
theorem exec_answers (i : Instr) (s : State) :
    (∃ f, exec i s = runDev f s) ∨ exec i s = .refused .controlRange ∧ s.dev.sec.locked = false := by
  have window {fn off width : Nat} {x : Host.Outcome State Fault Refusal} {f : Otp → Dev → Dev}
      (hx : x = if reachesControl s.dev fn off width then .refused .controlRange else runDev f s) :
      (∃ f, x = runDev f s) ∨ x = .refused .controlRange ∧ s.dev.sec.locked = false := by
    by_cases h : reachesControl s.dev fn off width = true
    · exact .inr ⟨hx.trans (if_pos h), reachesControl_unlocked h⟩
    · exact .inl ⟨f, hx.trans (if_neg h)⟩
  by_cases h : GoesOn i
  · exact .inl (exec_runs h s)
  · cases i with
    | debugWindowAccess fn off width wr => exact window rfl
    | registerWrite fn off width val => exact window rfl
    | _ => exact (h trivial).elim

/-- A command that answers a next state has settled an effect. -/
theorem exec_next_settles {i : Instr} {s t : State} (h : exec i s = .next t) : ∃ f, t = settle f s := by
  obtain ⟨f, hf⟩ | ⟨hr, -⟩ := exec_answers i s
  · exact ⟨f, runDev_eq_next (hf.symm.trans h)⟩
  · cases hr.symm.trans h

/-! ### Fuses -/

theorem Otp.Extends.refl (o : Otp) : o.Extends o := ⟨id, List.prefix_rfl, List.prefix_rfl, List.prefix_rfl, rfl⟩

theorem Otp.Extends.trans {a b c : Otp} (h : a.Extends b) (k : b.Extends c) : a.Extends c := by
  obtain ⟨hkill, h0, h1, h2, hrest⟩ := h
  obtain ⟨kkill, k0, k1, k2, krest⟩ := k
  refine ⟨kkill ∘ hkill, h0.trans k0, h1.trans k1, h2.trans k2, ?_⟩
  rw [← hrest, ← krest]

/-- `o'` may follow `o`, and its arrays fit if those of `o` do. -/
def Otp.Follows (o o' : Otp) : Prop := o.Fits → o.Extends o' ∧ o'.Fits

theorem Otp.Follows.trans {a b c : Otp} (h : a.Follows b) (k : b.Follows c) : a.Follows c := fun fits =>
  ⟨(h fits).1.trans (k (h fits).2).1, (k (h fits).2).2⟩

theorem Otp.follows_refl (o : Otp) : o.Follows o := fun fits => ⟨.refl o, fits⟩

theorem Otp.follows_kill (o : Otp) : o.Follows { o with kill := true } := fun fits =>
  ⟨⟨fun _ => rfl, List.prefix_rfl, List.prefix_rfl, List.prefix_rfl, rfl⟩, fits⟩

theorem length_concat_le {α : Type} {l : List α} {v : α} {n : Nat} (room : l.length < n) : (l ++ [v]).length ≤ n := by
  simpa using room

/-- One word is programmed into the array of a counter that has room for it (R523). -/
theorem Otp.follows_arb (o : Otp) (c : Nat) (v : H16) : o.Follows
    (if c = 0 then (if o.arb0.length < 128 then { o with arb0 := o.arb0 ++ [v] } else o)
     else if c = 1 then (if o.arb1.length < 32 then { o with arb1 := o.arb1 ++ [v] } else o)
     else (if o.arb2.length < 32 then { o with arb2 := o.arb2 ++ [v] } else o)) := by
  intro fits
  obtain ⟨fit0, fit1, fit2⟩ := id fits
  have kept {l : List H16} : l <+: l := List.prefix_rfl
  split
  · split
    next room => exact ⟨⟨id, List.prefix_append .., kept, kept, rfl⟩, length_concat_le room, fit1, fit2⟩
    next => exact o.follows_refl fits
  · split
    · split
      next room => exact ⟨⟨id, kept, List.prefix_append .., kept, rfl⟩, fit0, length_concat_le room, fit2⟩
      next => exact o.follows_refl fits
    · split
      next room => exact ⟨⟨id, kept, kept, List.prefix_append .., rfl⟩, fit0, fit1, length_concat_le room⟩
      next => exact o.follows_refl fits

theorem settleOtp_follows (bs : List Burn) (o : Otp) : o.Follows (settleOtp o bs) := by
  induction bs generalizing o with
  | nil => exact o.follows_refl
  | cons b t ih =>
    cases b with
    | kill => exact o.follows_kill.trans (ih _)
    | arb c v => exact (o.follows_arb c v).trans (ih _)

/-- Settles O57: a step answers the settled effect of a command or the state itself, and settling programs only fuses. -/
theorem fusesGoOneWay : Obligations.FusesGoOneWay := by
  intro s t hstep
  cases hq : s.pending with
  | nil =>
    cases (step_idle s hq).symm.trans hstep
    exact s.otp.follows_refl
  | cons i rest =>
    obtain ⟨f, rfl⟩ := exec_next_settles ((step_cons s i rest hq).symm.trans hstep)
    exact settleOtp_follows _ _

/-! ### The queue and the stops -/

/-- Settles O55: a command that answers a next state has settled an effect, which leaves the queue. -/
theorem noCommandTouchesTheQueue : Obligations.NoCommandTouchesTheQueue := by
  intro i s t h
  obtain ⟨f, rfl⟩ := exec_next_settles h
  exact settle_pending f s

/-- Settles O56: a command answers the settled effect, or the one refusal there is. -/
theorem onlyTheControlRangeStops : Obligations.OnlyTheControlRangeStops := by
  refine ⟨fun i s h => ?goesOn, fun i s => ?answers⟩
  case goesOn => exact (exec_runs h s).imp' (settle · s) fun _ => id
  case answers => exact (exec_answers i s).imp_left fun h => h.imp' (settle · s) fun _ => id

/-- Settles O54: the queue's front is what a step carries out, and no table word spells a command. -/
theorem stepRunsTheFront : Obligations.StepRunsTheFront := by
  refine ⟨fun i s => ?front, step_idle, fun s nbits w => ⟨rfl, withFetchWord_eq s nbits w⟩⟩
  case front => exact step_cons _ i s.pending rfl

/-- Settles O58: the state after reset is a literal, and each of its fields is read off. -/
theorem resetMeetsTheInvariants : Obligations.ResetMeetsTheInvariants := by
  refine ⟨?canonical, ?fits, rfl, rfl, rfl, rfl, rfl, rfl, rfl, rfl, rfl, rfl, rfl, rfl⟩
  case canonical => exact rfl
  case fits => exact ⟨Nat.zero_le _, Nat.zero_le _, Nat.zero_le _⟩

end Sys2Proof.Machine
end

section
/-! Sextant, power and its loss (chapters 18 and 21): the statements O50 to O52. Each reading is judged by its windows, each island by
the lowest of its targets; what a shutdown leaves is what the loss of power leaves. -/
namespace Sys2Proof.Machine

/-! ### Rails -/

theorem lgLoad_ledger (d : Dev) : LedgerOnly d (lgLoad d) := ⟨_, _, _, _, _, rfl⟩

/-- A shutdown changes nothing of the power state but that the rails wait to go off. -/
theorem shutdown_pow (o : Otp) (d : Dev) (st : Nat) : (shutdown o d st).pow = { d.pow with shutdownPending := true } := by
  unfold shutdown
  split
  next h => rw [← h]
  next =>
    have loaded : LedgerOnly d (if d.lg.loaded then d else lgLoad d) := by
      split
      · exact .refl d
      · exact lgLoad_ledger d
    refine congrArg (fun p : Power => { p with shutdownPending := true }) (LedgerOnly.records ?_).pow
    exact ((loaded.trans (log6_ledger ..)).trans (lgAdd_ledger ..)).trans (lgEvent_ledger ..)

/-- A reading and the one before it lie outside the fault window of the voltage or of the current (R490). -/
def railFaults (d : Dev) (r uV mA : Nat) : Prop :=
  (outside (railFault d r) uV = true ∧ (smGet rail0 d.sx.rails r).lastFaultV = true) ∨
    (railLimit r * 12 < mA * 10 ∧ (smGet rail0 d.sx.rails r).lastFaultI = true)

/-- Judging a rail records the reading and, on a fault alone, shuts the module down. -/
theorem judgeRail_cases (o : Otp) (d : Dev) (r uV mA : Nat) : ∃ e : Dev, e.pow = d.pow ∧
    (railFaults d r uV mA → judgeRail o d r uV mA = shutdown o e stSxRailFault) ∧
    (¬railFaults d r uV mA → judgeRail o d r uV mA = e) := by
  refine ⟨_, ?noted, fun h => if_pos ?fault, fun h => if_neg ?none⟩
  case noted => split <;> rfl
  case fault => simpa [railFaults] using h
  case none => simpa [railFaults] using h

theorem railFixDev_on {o : Otp} {d : Dev} {r : Nat} (hphase : d.pow.phase ≠ .off) (hr : railOn o r = true) (uV mA : Nat) :
    railFixDev r uV mA o d =
      judgeRail o (putFix d 1 r ((outside (railWarn d r) uV || decide (railLimit r < mA)).toNat +
        2 * (outside (railFault d r) uV || decide (railLimit r * 12 < mA * 10)).toNat) (railBody d r uV mA)) r uV mA :=
  if_neg (by simp [hphase, hr])

/-! ### Cages -/

/-- A cage in power draws more than its limit (R494). -/
def cageOver (v : CageSt) (mA : Nat) : Bool := (v.state == 1 || v.state == 3) && decide (v.limitMa < mA)

/-- It does so a second time, or draws more than 8 A. -/
def cageTrips (v : CageSt) (mA : Nat) : Bool :=
  (cageOver v mA && v.lastOver) || ((v.state == 1 || v.state == 3) && decide (8000 < mA))

theorem cageOver_iff {v : CageSt} {mA : Nat} :
    cageOver v mA = true ↔ (v.state = 1 ∨ v.state = 3) ∧ v.limitMa < mA := by simp [cageOver]

theorem cageTrips_iff {v : CageSt} {mA : Nat} : cageTrips v mA = true ↔
    (((v.state = 1 ∨ v.state = 3) ∧ v.limitMa < mA) ∧ v.lastOver = true) ∨ ((v.state = 1 ∨ v.state = 3) ∧ 8000 < mA) := by
  simp [cageTrips, cageOver_iff]

section
variable {o : Otp} {d : Dev} {c mA : Nat} (hphase : d.pow.phase ≠ .off) (hc : cagePresent o c = true)
include hphase hc

/-- A cage's reading is noted, trips the cage or not, and becomes its fix. -/
theorem cageFixDev_present {high trips : Bool} (hover : cageOver (smGet cage0 d.sx.cages c) mA = high)
    (htrips : cageTrips (smGet cage0 d.sx.cages c) mA = trips) :
    cageFixDev c mA o d =
      let noted := { d with sx := { d.sx with
        cages := smSet cage0 d.sx.cages c { smGet cage0 d.sx.cages c with lastOver := high } } }
      let judged := if trips then cageDown o (log6 noted stSxCage 7 c) c 2 true else noted
      putFix judged 3 c (high.toNat + 2 * trips.toNat) (cageBody (smGet cage0 judged.sx.cages c) mA) := by
  subst hover htrips
  exact if_neg (by simp [hphase, hc])

theorem plugPresentDev_appears {held : Bool} (hheld : (smGet cage0 d.sx.cages c).heldOff = held) (classMw media : Nat) :
    plugPresentDev c true classMw media o d =
      let v := smGet cage0 d.sx.cages c
      let put := { d with sx := { d.sx with
        cages := smSet cage0 d.sx.cages c { v with plug := true, media := media, limitMa := classMw * 110 / 330,
                                                   state := if held then v.state else 1, lastOver := false } } }
      if held then put else plugReturn o (plugReturn o put (2 * c)) (2 * c + 1) := by
  subst hheld
  exact if_neg (by simp [hphase, hc])

theorem plugPresentDev_goes {held : Bool} (hheld : (smGet cage0 d.sx.cages c).heldOff = held) (classMw media : Nat) :
    plugPresentDev c false classMw media o d =
      let v := smGet cage0 d.sx.cages c
      let put := { d with sx := { d.sx with cages := smSet cage0 d.sx.cages c { v with plug := false, media := 255 } } }
      cageDown o put c (if held then v.state else 0) false := by
  subst hheld
  exact if_neg (by simp [hphase, hc])

end

/-- Settles O50: the windows decide a rail's fix, limit and 8 A a cage's, and whether the cage is held off what a plug does. -/
theorem fixesAreJudged : Obligations.FixesAreJudged := by
  intro s hphase
  refine ⟨fun r uV mA hr => ?rail, fun temps hlen => ?sites, fun c mA hc => ?cage⟩
  case rail =>
    intro flags before fault t
    obtain ⟨e, hpow, hfault, hnone⟩ := judgeRail_cases s.otp (putFix s.dev 1 r (flags s.dev) (railBody s.dev r uV mA)) r uV mA
    refine ⟨runDev_of_agree (railFixDev_on hphase hr uV mA), fun h => ?_, fun h => ?_⟩
    · exact (congrArg (·.pow.shutdownPending) (hfault h)).trans (congrArg (·.shutdownPending) (shutdown_pow ..))
    · exact (congrArg (·.pow) (hnone h)).trans hpow
  case sites => exact runDev_of_agree (if_neg (by simp [hphase, hlen]))
  case cage =>
    have fixed {high trips : Bool} (hover) (htrips) := cageFixDev_present (mA := mA) hphase hc (high := high) (trips := trips) hover htrips
    refine ⟨fun htrip habove => ?_, fun htrip habove => ?_, fun htrip habove => ?_, fun htrip habove => ?_,
      fun classMw media => ⟨fun hheld => ⟨?_, ?_⟩, fun hheld => ⟨?_, ?_⟩⟩, fun hstate => ⟨fun hopen => ?_, fun hdraws => ?_⟩⟩
    · exact runDev_of_agree (fixed (cageOver_iff.mpr habove) (cageTrips_iff.mpr htrip))
    · exact runDev_of_agree (fixed (Bool.eq_false_iff.mpr (mt cageOver_iff.mp habove)) (cageTrips_iff.mpr htrip))
    · exact runDev_of_agree (fixed (cageOver_iff.mpr habove) (Bool.eq_false_iff.mpr (mt cageTrips_iff.mp htrip)))
    · exact runDev_of_agree (fixed (Bool.eq_false_iff.mpr (mt cageOver_iff.mp habove))
        (Bool.eq_false_iff.mpr (mt cageTrips_iff.mp htrip)))
    · exact runDev_of_agree (plugPresentDev_appears hphase hc hheld classMw media)
    · exact runDev_of_agree (plugPresentDev_goes hphase hc hheld classMw media)
    · exact runDev_of_agree (plugPresentDev_appears hphase hc hheld classMw media)
    · exact runDev_of_agree (plugPresentDev_goes hphase hc hheld classMw media)
    · exact runDev_of_agree (if_neg (by simp [hphase, hstate, hopen]))
    · exact runDev_of_agree (if_pos (.inr (.inr hdraws)))

/-! ### Clocks -/

/-- The clock of a group that is not the hub core before RHUMB_READY follows the lowest target. -/
theorem nextGroup_clock {d : Dev} {g : Nat} (h : ¬(g = 6 ∧ d.fab.ready = false)) :
    (nextGroup d g).clock =
      let low := min (min (groupAt d g).hostCap (nextThermal d g)) (min (nextCurrent d g) (nextPower d g))
      if low < (groupAt d g).clock then pointDown g (groupAt d g).clock
      else if (groupAt d g).clock < low then pointUp g (groupAt d g).clock else (groupAt d g).clock :=
  if_neg (by simpa using h)

theorem controlLoopDev_runs {d : Dev} (o : Otp) (hphase : d.pow.phase = .firmware ∨ d.pow.phase = .hostReady) :
    let gs := (List.range 7).map (nextGroup d)
    (controlLoopDev o d).sx.groups = gs ∧
      (controlLoopDev o d).pcs =
        if (List.range 7).any (fun g => decide ((gs.getD g ⟨0, 0, 0, 0, 0⟩).clock < (groupRange g).2.1)) = true then
          (pcAdd d kSxLimited 1).pcs
        else d.pcs := by
  have runs : ¬(d.pow.phase ≠ .firmware ∧ d.pow.phase ≠ .hostReady) := fun ⟨hf, hr⟩ => hphase.elim hf hr
  intro gs
  unfold controlLoopDev
  rw [if_neg runs]
  exact ⟨(apply_ite (fun d : Dev => d.sx.groups) ..).trans (ite_self _), apply_ite Dev.pcs ..⟩

/-- Settles O51: the seven groups step to their next targets at once, and the place of the lowest target picks the clock's step. -/
theorem clocksFollowTheirTargets : Obligations.ClocksFollowTheirTargets := by
  refine ⟨fun s hphase => ?period, fun d g => ?group⟩
  case period =>
    exact ⟨_, runDev_next controlLoopDev s, controlLoopDev_runs s.otp hphase⟩
  case group =>
    intro v w low
    refine ⟨rfl, rfl, rfl, rfl, fun hg hready => if_pos ⟨hg, by simp [hready]⟩, fun h => ⟨fun hlow => ?_, fun hhigh => ?_, fun hat => ?_⟩⟩
    · exact (nextGroup_clock h).trans (if_pos hlow)
    · exact (nextGroup_clock h).trans ((if_neg (Nat.lt_asymm hhigh)).trans (if_pos hhigh))
    · exact (nextGroup_clock h).trans ((if_neg hat.not_lt).trans (if_neg hat.not_gt))

/-! ### Power -/

theorem powerOnDev_off {d : Dev} (hvin : d.pow.vin = false) (hphase : d.pow.phase = .off) (failRail : Option Nat) (o : Otp) :
    powerOnDev failRail o d =
      let up := { powerGone d true false with
        pow := { (powerGone d true false).pow with phase := .inReset, modRst := true },
        sx := { (powerGone d true false).sx with capW := gradePower o } }
      match failRail with
      | some r => if railOn o r then shutdown o up stSxRailFault else { up with pow := { up.pow with pwrGood := true } }
      | none => { up with pow := { up.pow with pwrGood := true } } :=
  if_neg (by simp [hvin, hphase])

/-- Settles O52: the rail that fails its step, if it is measured, decides the start; what is left without power is a literal. -/
theorem powerComesAndGoes : Obligations.PowerComesAndGoes := by
  refine ⟨fun s hvin hphase => ?on, fun s => ⟨rfl, fun hpending => runDev_of_agree (if_pos hpending)⟩, fun d vin latched => ?gone⟩
  case on =>
    have started (failRail) := powerOnDev_off hvin hphase failRail s.otp
    refine ⟨runDev_of_agree (started none), fun r hoff => ?_, fun r hon => ?_⟩
    · exact runDev_of_agree ((started (some r)).trans (if_neg (by simp [hoff])))
    · have hpow := (congrArg (·.pow) ((started (some r)).trans (if_pos hon))).trans (shutdown_pow ..)
      exact ⟨_, runDev_next (powerOnDev (some r)) s, congrArg (·.shutdownPending) hpow, congrArg (·.pwrGood) hpow,
        congrArg (·.phase) hpow⟩
  case gone => exact ⟨rfl, rfl, rfl, rfl, rfl, rfl, rfl, rfl, rfl, rfl, rfl, rfl, rfl, rfl, rfl, rfl, rfl⟩

end Sys2Proof.Machine
end

section
/-! Resets of functions and of the host side, and the host's events (chapter 16): the statements O46 and O60. Ended work is followed
from one queue to all queues of a function and to all functions; what it can change is said once, streams and queues aside. -/
namespace Sys2Proof.Machine

/-! ### What ended work reaches -/

/-- `d'` differs from `d` in what work in progress reaches at most, streams and queues aside. -/
def WorkOnly (d d' : Dev) : Prop :=
  ∃ mem side objs regions bindsInUse rowReqs fab pcs handles icache plans chans shardReqs freeIdx,
    d' = { d with mem := mem, side := side, objs := objs, regions := regions, bindsInUse := bindsInUse, rowReqs := rowReqs,
                  fab := fab, pcs := pcs, handles := handles, icache := icache, plans := plans, chans := chans,
                  shardReqs := shardReqs, freeIdx := freeIdx }

theorem WorkOnly.refl (d : Dev) : WorkOnly d d := ⟨_, _, _, _, _, _, _, _, _, _, _, _, _, _, rfl⟩

/-- The same, for a module written out by its fields. -/
theorem workOnly_fields (d : Dev) (mem side objs regions bindsInUse rowReqs fab pcs handles icache plans chans shardReqs freeIdx) :
    WorkOnly d { d with mem := mem, side := side, objs := objs, regions := regions, bindsInUse := bindsInUse,
                        rowReqs := rowReqs, fab := fab, pcs := pcs, handles := handles, icache := icache, plans := plans,
                        chans := chans, shardReqs := shardReqs, freeIdx := freeIdx } := ⟨_, _, _, _, _, _, _, _, _, _, _, _, _, _, rfl⟩

theorem WorkOnly.trans {a b c : Dev} (h : WorkOnly a b) (k : WorkOnly b c) : WorkOnly a c := by
  obtain ⟨_, _, _, _, _, _, _, _, _, _, _, _, _, _, rfl⟩ := h
  obtain ⟨_, _, _, _, _, _, _, _, _, _, _, _, _, _, rfl⟩ := k
  exact workOnly_fields ..

section
variable {d d' : Dev}

theorem WorkOnly.queues (h : WorkOnly d d') : d'.queues = d.queues := by
  obtain ⟨_, _, _, _, _, _, _, _, _, _, _, _, _, _, rfl⟩ := h; rfl

theorem WorkOnly.streams (h : WorkOnly d d') : d'.streams = d.streams := by
  obtain ⟨_, _, _, _, _, _, _, _, _, _, _, _, _, _, rfl⟩ := h; rfl

theorem WorkOnly.mbox (h : WorkOnly d d') : d'.mbox = d.mbox := by
  obtain ⟨_, _, _, _, _, _, _, _, _, _, _, _, _, _, rfl⟩ := h; rfl

theorem WorkOnly.host (h : WorkOnly d d') : d'.host = d.host := by
  obtain ⟨_, _, _, _, _, _, _, _, _, _, _, _, _, _, rfl⟩ := h; rfl

theorem WorkOnly.rrAssign (h : WorkOnly d d') : d'.rrAssign = d.rrAssign := by
  obtain ⟨_, _, _, _, _, _, _, _, _, _, _, _, _, _, rfl⟩ := h; rfl

theorem WorkOnly.rrWindows (h : WorkOnly d d') : d'.rrWindows = d.rrWindows := by
  obtain ⟨_, _, _, _, _, _, _, _, _, _, _, _, _, _, rfl⟩ := h; rfl

theorem WorkOnly.rrTables (h : WorkOnly d d') : d'.rrTables = d.rrTables := by
  obtain ⟨_, _, _, _, _, _, _, _, _, _, _, _, _, _, rfl⟩ := h; rfl

theorem WorkOnly.rrTallies (h : WorkOnly d d') : d'.rrTallies = d.rrTallies := by
  obtain ⟨_, _, _, _, _, _, _, _, _, _, _, _, _, _, rfl⟩ := h; rfl

theorem WorkOnly.pow (h : WorkOnly d d') : d'.pow = d.pow := by
  obtain ⟨_, _, _, _, _, _, _, _, _, _, _, _, _, _, rfl⟩ := h; rfl

theorem WorkOnly.clean (h : WorkOnly d d') (hclean : d.int.injects = []) : d'.int.injects = [] := by
  obtain ⟨_, _, _, _, _, _, _, _, _, _, _, _, _, _, rfl⟩ := h; exact hclean

theorem WorkOnly.withStreams (h : WorkOnly d d') (m : SMap (Option Stream)) :
    WorkOnly { d with streams := m } { d' with streams := m } := by
  obtain ⟨_, _, _, _, _, _, _, _, _, _, _, _, _, _, rfl⟩ := h; exact workOnly_fields ..

theorem WorkOnly.withQueues (h : WorkOnly d d') (m : SMap (Option Queue)) :
    WorkOnly { d with queues := m } { d' with queues := m } := by
  obtain ⟨_, _, _, _, _, _, _, _, _, _, _, _, _, _, rfl⟩ := h; exact workOnly_fields ..

end

/-- A fold each of whose steps keeps to what work reaches does so; the module is a part of what is folded. -/
theorem WorkOnly.fold {α β : Type} (dev : β → Dev) {f : β → α → β}
    (h : ∀ b x, (dev b).int.injects = [] → WorkOnly (dev b) (dev (f b x))) (l : List α) {b : β}
    (hclean : (dev b).int.injects = []) : WorkOnly (dev b) (dev (l.foldl f b)) := by
  induction l generalizing b with
  | nil => exact .refl _
  | cons x l ih => exact (h b x hclean).trans (ih ((h b x hclean).clean hclean))

/-! Memory. -/

/-- `d'` differs from `d` in memory, its side-bands, the objects' dirty maps and the free values at most. -/
def MemoryOnly (d d' : Dev) : Prop :=
  ∃ mem side objs freeIdx, d' = { d with mem := mem, side := side, objs := objs, freeIdx := freeIdx }

theorem MemoryOnly.refl (d : Dev) : MemoryOnly d d := ⟨_, _, _, _, rfl⟩

theorem MemoryOnly.trans {a b c : Dev} (h : MemoryOnly a b) (k : MemoryOnly b c) : MemoryOnly a c := by
  obtain ⟨_, _, _, _, rfl⟩ := h
  obtain ⟨_, _, _, _, rfl⟩ := k
  exact ⟨_, _, _, _, rfl⟩

theorem MemoryOnly.fold {α : Type} {f : Dev → α → Dev} (h : ∀ d x, MemoryOnly d (f d x)) (l : List α) (d : Dev) :
    MemoryOnly d (l.foldl f d) := by
  induction l generalizing d with
  | nil => exact .refl d
  | cons x l ih => exact (h d x).trans (ih _)

theorem MemoryOnly.work {d d' : Dev} (h : MemoryOnly d d') : WorkOnly d d' := by
  obtain ⟨_, _, _, _, rfl⟩ := h; exact workOnly_fields ..

theorem MemoryOnly.chans {d d' : Dev} (h : MemoryOnly d d') : d'.chans = d.chans := by
  obtain ⟨_, _, _, _, rfl⟩ := h; rfl

theorem foldl_writeSide_memory (d : Dev) (mem : SMap Byte) (l : List Nat) :
    MemoryOnly d (l.foldl writeSide { d with mem := mem }) := by
  obtain ⟨_, _, h⟩ := foldl_writeSide_frame l { d with mem := mem }
  exact ⟨_, _, _, _, h⟩

theorem memWrite_memory (d : Dev) (a : Nat) (bs : List Byte) : MemoryOnly d (memWrite d a bs) := foldl_writeSide_memory ..

theorem memZero_memory (d : Dev) (a n : Nat) : MemoryOnly d (memZero d a n) := foldl_writeSide_memory ..

theorem memMix_memory (d : Dev) (a n : Nat) (vs : List (List Byte)) : MemoryOnly d (memMix d a n vs) :=
  (memWrite_memory ..).trans ⟨_, _, _, _, rfl⟩

theorem memLoose_memory (d : Dev) (a n : Nat) : MemoryOnly d (memLoose d a n) := (memWrite_memory ..).trans ⟨_, _, _, _, rfl⟩

/-! Packets. -/

theorem pcAdd_work (d : Dev) (k n : Nat) : WorkOnly d (pcAdd d k n) := workOnly_fields ..

theorem portMod_work (d : Dev) (p : Nat) (f : Port → Port) : WorkOnly d (portMod d p f) := workOnly_fields ..

theorem freeInput_work (d : Dev) (port : Nat) (p : Pkt) : WorkOnly d (freeInput d port p) := by
  unfold freeInput
  split
  · exact .refl d
  · exact workOnly_fields ..

theorem pump_work {d : Dev} (hclean : d.int.injects = []) (p : Nat) : WorkOnly d (pump d p) :=
  (workOnly_fields ..).trans (WorkOnly.fold id (fun d _ _ => freeInput_work d _ _) _ hclean)

theorem tryMerge_work {d d' : Dev} {p : Nat} {x : OutPkt} (h : tryMerge d p x = some d') : WorkOnly d d' := by
  unfold tryMerge at h
  dsimp only at h
  split at h
  · cases h
  · split at h
    · cases h
    · split at h
      · cases h
      · cases h
        exact workOnly_fields ..

theorem enqueue_work {d : Dev} (hclean : d.int.injects = []) (p : Nat) (x : OutPkt) : WorkOnly d (enqueue d p x) := by
  simp only [enqueue, ctlUse_clean hclean, Bool.false_eq_true, if_false]
  split
  next d' h =>
    split at h
    · exact (tryMerge_work h).trans (freeInput_work ..)
    · cases h
  next => exact (portMod_work ..).trans (pump_work ((portMod_work ..).clean hclean) p)

theorem routePkt_work (n : Nat) {d : Dev} (hclean : d.int.injects = []) (inPort : Nat) (p : Pkt) :
    WorkOnly d (routePkt n d inPort p) := by
  induction n generalizing d inPort p with
  | zero => exact .refl d
  | succ n ih =>
    have back (reason : Nat) : WorkOnly d (if p.kind = 0x06 then freeInput d inPort p
        else routePkt n (pcAdd (freeInput d inPort p) kUndeliv 1) 20 (undeliverable (freeInput d inPort p) p reason false)) := by
      have freed := freeInput_work d inPort p
      split
      · exact freed
      · have counted := freed.trans (pcAdd_work _ kUndeliv 1)
        exact counted.trans (ih (counted.clean hclean) _ _)
    unfold routePkt
    dsimp only
    split
    · exact workOnly_fields ..
    · split
      · exact back 1
      · split
        · exact back 2
        · split
          · split
            · exact back 4
            · exact back 1
          · exact enqueue_work hclean _ _

theorem sendReq_work {d : Dev} (hclean : d.int.injects = []) (kind dst : Nat) (body payload : List Byte) (who : Issuer)
    (off : Nat) : WorkOnly d (sendReq d kind dst body payload who off).1 := by
  refine WorkOnly.trans (workOnly_fields ..) (routePkt_work 2 ?_ _ _)
  exact hclean

theorem sendWrites_work {d : Dev} (hclean : d.int.injects = []) (a : Nat) (bs : List Byte) (who : Issuer) :
    WorkOnly d (sendWrites d a bs who).1 := by
  refine WorkOnly.fold Prod.fst (fun _ _ h => ?_) _ hclean
  exact sendReq_work h _ _ _ _ _ _

theorem gaWrite_work {d : Dev} (hclean : d.int.injects = []) (runs : List (Nat × List Byte)) (who : Issuer) :
    WorkOnly d (gaWrite d runs who).1 := by
  refine WorkOnly.fold Prod.fst (fun _ _ h => ?_) _ hclean
  dsimp only
  split
  · exact (memWrite_memory ..).work
  · exact sendWrites_work h _ _ _

/-! ### Streams end -/

/-- `d'` differs from `d` in the stream of engine `e` and in what work reaches at most. -/
def StreamWork (e : Nat) (d d' : Dev) : Prop :=
  ∃ m, (∀ x, x ≠ e → smGet none m x = stGet d x) ∧ WorkOnly { d with streams := m } d'

theorem StreamWork.trans {e : Nat} {a b c : Dev} (h : StreamWork e a b) (k : StreamWork e b c) : StreamWork e a c := by
  obtain ⟨m, hm, h⟩ := h
  obtain ⟨n, hn, k⟩ := k
  refine ⟨n, fun x hx => (hn x hx).trans ?_, (h.withStreams n).trans k⟩
  rw [stGet, h.streams]
  exact hm x hx

theorem WorkOnly.stream {d d' : Dev} (h : WorkOnly d d') (e : Nat) : StreamWork e d d' := ⟨d.streams, fun _ _ => rfl, h⟩

theorem stSet_stream (d : Dev) (e : Nat) (v : Stream) : StreamWork e d (stSet d e v) :=
  ⟨_, fun _ hx => smGet_smSet_ne _ _ _ hx, .refl _⟩

theorem stMod_stream (d : Dev) (e : Nat) (f : Stream → Stream) : StreamWork e d (stMod d e f) := by
  unfold stMod
  split
  · exact stSet_stream ..
  · exact (WorkOnly.refl d).stream e

theorem StreamWork.clean {e : Nat} {d d' : Dev} (h : StreamWork e d d') (hclean : d.int.injects = []) : d'.int.injects = [] := by
  obtain ⟨_, _, h⟩ := h
  exact h.clean hclean

theorem statsWrite_stream {d : Dev} (hclean : d.int.injects = []) (e : Nat) (v : Stream) : StreamWork e d (statsWrite d e v) := by
  unfold statsWrite
  dsimp only
  split
  · exact stSet_stream ..
  · split
    · exact stSet_stream ..
    · refine ((stSet_stream d e { v with gstats := [] }).trans (WorkOnly.stream ?_ e)).trans (stMod_stream _ _ _)
      refine WorkOnly.fold Prod.fst (b := (stSet d e { v with gstats := [] }, [])) (fun _ _ h => ?_) _ hclean
      exact gaWrite_work h _ _

theorem pinMod_work (d : Dev) (h g : Nat) (f : Nat → Nat) : WorkOnly d (pinMod d h g f) :=
  workOnly_fields ..

/-- A stream that ends leaves its engine; the other streams go on. -/
theorem streamDrop_stream {d : Dev} (hclean : d.int.injects = []) (e : Nat) :
    StreamWork e d (streamDrop d e) ∧ stGet (streamDrop d e) e = none := by
  unfold streamDrop
  split
  next h => exact ⟨(WorkOnly.refl d).stream e, h⟩
  next v h =>
    have told : StreamWork e d (if v.gstats = [] then d else statsWrite d e v) := by
      split
      · exact (WorkOnly.refl d).stream e
      · exact statsWrite_stream hclean e v
    dsimp only
    constructor
    · refine (told.trans ?_).trans (WorkOnly.stream (pinMod_work ..) e)
      exact ⟨smSet none _ e none, fun _ hx => smGet_smSet_ne _ _ _ hx, workOnly_fields ..⟩
    · unfold stGet
      rw [(pinMod_work ..).streams]
      exact smGet_smSet_self none _ e none

/-- The streams of a list of engines end; the others go on. -/
theorem foldl_streamDrop (l : List Nat) {d : Dev} (hclean : d.int.injects = []) :
    ∃ m, (∀ e ∈ l, smGet none m e = none) ∧ (∀ e, e ∉ l → smGet none m e = stGet d e) ∧
      WorkOnly { d with streams := m } (l.foldl streamDrop d) := by
  induction l generalizing d with
  | nil => exact ⟨d.streams, by simp, fun _ _ => rfl, .refl d⟩
  | cons e l ih =>
    obtain ⟨first, hnone⟩ := streamDrop_stream hclean e
    obtain ⟨m, hin, hout, hrest⟩ := ih (first.clean hclean)
    obtain ⟨n, hn, hfirst⟩ := first
    have others {x : Nat} (hx : x ∉ l) (hxe : x ≠ e) : smGet none m x = stGet d x := by
      rw [hout x hx, stGet, hfirst.streams]
      exact hn x hxe
    refine ⟨m, fun x hx => ?_, fun x hx => others (fun h => hx (.tail _ h)) (fun h => hx (h ▸ .head _)), ?_⟩
    · by_cases hxl : x ∈ l
      · exact hin x hxl
      · obtain rfl := (List.mem_cons.mp hx).resolve_right hxl
        exact (hout x hxl).trans hnone
    · exact (hfirst.withStreams m).trans hrest

/-! ### A queue ends -/

theorem foldl_planDrop_work (l : List Nat) {d : Dev} (hclean : d.int.injects = []) : WorkOnly d (l.foldl planDrop d) :=
  WorkOnly.fold id (fun _ _ _ => workOnly_fields ..) l hclean

theorem zeroObject_memory (d : Dev) (ob : MemObj) : MemoryOnly d (zeroObject d ob) := by
  unfold zeroObject
  split
  · exact .refl d
  · have home : MemoryOnly d (if maTier ob.flags ≤ 2 then memZero d ob.base ob.size else d) := by
      split
      · exact memZero_memory ..
      · exact .refl d
    dsimp only
    split
    · exact home.trans (memZero_memory ..)
    · exact home

theorem releaseDead_work {d : Dev} (hclean : d.int.injects = []) : WorkOnly d (releaseDead d) := by
  refine WorkOnly.fold id (fun d p _ => ?_) _ hclean
  dsimp only [id]
  split
  · split
    · split
      · exact (zeroObject_memory ..).work.trans (workOnly_fields ..)
      · exact workOnly_fields ..
    · exact .refl d
  · exact .refl d

theorem dstLost_memory (d : Dev) (c : Chan) (st : Nat) : MemoryOnly d (dstLost d c st) := by
  unfold dstLost
  split
  · exact .refl d
  · split
    · exact MemoryOnly.fold (fun d _ => memLoose_memory d _ _) _ d
    · exact MemoryOnly.fold (fun d _ => memMix_memory d _ _ _) _ d

/-- `d'` differs from `d` in queue `q` and in what work reaches at most. -/
def QueueWork (q : Nat) (d d' : Dev) : Prop :=
  ∃ m, (∀ x, x ≠ q → smGet none m x = qGet d x) ∧ WorkOnly { d with queues := m } d'

theorem WorkOnly.queue {d d' : Dev} (h : WorkOnly d d') (q : Nat) : QueueWork q d d' := ⟨d.queues, fun _ _ => rfl, h⟩

theorem QueueWork.trans {q : Nat} {a b c : Dev} (h : QueueWork q a b) (k : QueueWork q b c) : QueueWork q a c := by
  obtain ⟨m, hm, h⟩ := h
  obtain ⟨n, hn, k⟩ := k
  refine ⟨n, fun x hx => (hn x hx).trans ?_, (h.withQueues n).trans k⟩
  rw [qGet, h.queues]
  exact hm x hx

theorem QueueWork.clean {q : Nat} {d d' : Dev} (h : QueueWork q d d') (hclean : d.int.injects = []) : d'.int.injects = [] := by
  obtain ⟨_, _, h⟩ := h
  exact h.clean hclean

theorem qMod_queue (d : Dev) (q : Nat) (f : Queue → Queue) : QueueWork q d (qMod d q f) := by
  unfold qMod
  split
  · exact ⟨_, fun _ hx => smGet_smSet_ne _ _ _ hx, .refl _⟩
  · exact (WorkOnly.refl d).queue q

/-- A channel that ends is CLOSED and changes the queue of its command alone. -/
theorem chEnd_queue {d : Dev} {n : Nat} {c : Chan} (hc : chGet d n = some c) (st : Nat) :
    QueueWork c.queue d (chEnd d n st) ∧ (chEnd d n st).chans = smSet none d.chans n none := by
  have result (b : Dev) : MemoryOnly b (if st ≠ stOk then dstLost b c st
      else if clResult c.body = 0 then b else memWrite b (localOf (clResult c.body)) (chRecord c)) := by
    split
    · exact dstLost_memory ..
    · split
      · exact .refl b
      · exact memWrite_memory ..
  have spoiled := result (chDrop d n)
  unfold chEnd
  rw [hc]
  refine ⟨QueueWork.trans (WorkOnly.queue ?_ _) (qMod_queue ..), ?_⟩
  · exact ((workOnly_fields ..).trans spoiled.work).trans (workOnly_fields ..)
  · obtain ⟨_, h⟩ := runMod_frame (chSet _ n none) c.queue c.seq (fun r => { r with started := true, final := some st, detail := 0 })
    exact (congrArg Dev.chans h).trans (congrArg (smSet none · n none) spoiled.chans)

/-- The channels of a queue's commands end. -/
theorem foldl_chEnd (q st : Nat) (l : List Nat) {d : Dev} (h : ∀ n ∈ l, ∀ c, chGet d n = some c → c.queue = q) :
    QueueWork q d (l.foldl (fun d n => chEnd d n st) d) := by
  induction l generalizing d with
  | nil => exact (WorkOnly.refl d).queue q
  | cons n l ih =>
    have first : QueueWork q d (chEnd d n st) ∧ ∀ x c, chGet (chEnd d n st) x = some c → chGet d x = some c := by
      cases hc : chGet d n with
      | none =>
        have : chEnd d n st = d := by unfold chEnd; rw [hc]
        rw [this]
        exact ⟨(WorkOnly.refl d).queue q, fun _ _ h => h⟩
      | some c =>
        obtain ⟨hwork, hchans⟩ := chEnd_queue hc st
        refine ⟨h n (.head _) c hc ▸ hwork, fun x c hx => ?_⟩
        rw [chGet, hchans] at hx
        by_cases hxn : x = n
        · rw [hxn, smGet_smSet_self] at hx
          cases hx
        · rwa [smGet_smSet_ne _ _ _ hxn] at hx
    exact first.1.trans (ih fun x hx c hc => h x (.tail _ hx) c (first.2 x c hc))

theorem mem_keys_of_smGet {V : Type} {d : V} {m : SMap V} {k : Nat} (h : smGet d m k ≠ d) : k ∈ m.map (·.1) := by
  by_contra hk
  exact h (smGet_free d fun e he hek => hk (hek ▸ List.mem_map_of_mem he))

/-- What is left when a queue ends: no such queue, the other queues, and no stream of its commands (R456). -/
structure QueueEnded (q : Nat) (d d' : Dev) : Prop where
  gone : qGet d' q = none
  others : ∀ x, x ≠ q → qGet d' x = qGet d x
  streams : ∀ e v, stGet d' e = some v → stGet d e = some v ∧ v.queue ≠ q
  rest : ∃ queues streams, WorkOnly { d with queues := queues, streams := streams } d'

theorem queueDrop_ended {d : Dev} (hclean : d.int.injects = []) (q : Nat) : QueueEnded q d (queueDrop d q) := by
  unfold queueDrop
  extract_lets mine st pl chs src d1 d4
  have dropped : WorkOnly d d1 := workOnly_fields ..
  have ended := foldl_chEnd q stCollWait chs (d := d1) (fun n hn c hc => by
    have h := (List.mem_filter.mp hn).2
    have hc : chGet d n = some c := hc
    simpa [hc] using h)
  have hclean2 := ended.clean (dropped.clean hclean)
  obtain ⟨m, hm, hwork⟩ := ended
  obtain ⟨n, hin, hout, hstreams⟩ := foldl_streamDrop st hclean2
  have hclean3 := hstreams.clean hclean2
  have plans : WorkOnly _ d4 := foldl_planDrop_work pl hclean3
  have released := releaseDead_work (d := { d4 with queues := smSet none d4.queues q none }) (plans.clean hclean3)
  have queues : (releaseDead { d4 with queues := smSet none d4.queues q none }).queues = smSet none m q none :=
    released.queues.trans (congrArg (smSet none · q none) (plans.queues.trans (hstreams.queues.trans hwork.queues)))
  have streams : (releaseDead { d4 with queues := smSet none d4.queues q none }).streams = n :=
    released.streams.trans (plans.streams.trans hstreams.streams)
  refine ⟨?gone, fun x hx => ?others, fun e v hv => ?streams, ?rest⟩
  case gone => rw [qGet, queues, smGet_smSet_self]
  case others => rw [qGet, queues, smGet_smSet_ne _ _ _ hx, hm x hx]; rfl
  case streams =>
    rw [stGet, streams] at hv
    have alive : e ∉ st := fun he => by
      rw [hin e he] at hv
      cases hv
    have held : stGet d e = some v := by
      rw [← hv, hout e alive, stGet, stGet, hwork.streams]
    refine ⟨held, fun hq => alive (List.mem_filter.mpr ⟨mem_keys_of_smGet (d := none) ?_, ?_⟩)⟩
    · rw [← stGet, held]
      exact Option.some_ne_none v
    · simp [held, hq]
  case rest =>
    have upTo4 := ((((dropped.withQueues m).trans hwork).withStreams n).trans hstreams).trans plans
    exact ⟨_, n, (upTo4.withQueues (smSet none d4.queues q none)).trans released⟩

/-! ### A function is reset -/

/-- What is left when the queues of a list end. -/
theorem foldl_queueDrop (l : List Nat) {d : Dev} (hclean : d.int.injects = []) :
    (∀ q ∈ l, qGet (l.foldl queueDrop d) q = none) ∧ (∀ q, q ∉ l → qGet (l.foldl queueDrop d) q = qGet d q) ∧
      (∀ e v, stGet (l.foldl queueDrop d) e = some v → stGet d e = some v ∧ v.queue ∉ l) ∧
      ∃ queues streams, WorkOnly { d with queues := queues, streams := streams } (l.foldl queueDrop d) := by
  induction l generalizing d with
  | nil => exact ⟨by simp, fun _ _ => rfl, fun e v h => ⟨h, by simp⟩, d.queues, d.streams, .refl d⟩
  | cons q l ih =>
    obtain ⟨gone, others, streams, m, n, hfirst⟩ := queueDrop_ended hclean q
    obtain ⟨hin, hout, hstreams, m', n', hrest⟩ := ih (hfirst.clean hclean)
    refine ⟨fun x hx => ?_, fun x hx => ?_, fun e v hv => ?_, m', n', ((hfirst.withQueues m').withStreams n').trans hrest⟩
    · by_cases hxl : x ∈ l
      · exact hin x hxl
      · obtain rfl := (List.mem_cons.mp hx).resolve_right hxl
        exact (hout x hxl).trans gone
    · rw [List.mem_cons, not_or] at hx
      exact (hout x hx.2).trans (others x hx.1)
    · obtain ⟨hv, hl⟩ := hstreams e v hv
      obtain ⟨hd, hq⟩ := streams e v hv
      exact ⟨hd, by simp [hq, hl]⟩

theorem foldl_mbxMod (l : List Nat) (f : Mailbox → Mailbox) (hl : l.Nodup) (d : Dev) :
    (∀ ch, smGet mailbox0 (l.foldl (fun d c => mbxMod d c f) d).mbox ch =
      if ch ∈ l then f (smGet mailbox0 d.mbox ch) else smGet mailbox0 d.mbox ch) ∧
      ∃ mbox, l.foldl (fun d c => mbxMod d c f) d = { d with mbox := mbox } := by
  induction l generalizing d with
  | nil => exact ⟨by simp, d.mbox, rfl⟩
  | cons c l ih =>
    obtain ⟨hc, hl⟩ := List.nodup_cons.mp hl
    obtain ⟨hget, mbox, hrest⟩ := ih hl (mbxMod d c f)
    refine ⟨fun ch => ?_, mbox, hrest⟩
    rw [List.foldl_cons, hget]
    by_cases h : ch = c
    · subst h
      simp [hc, mbxMod, smMod]
    · simp [h, mbxMod, smMod, smGet_smSet_ne _ _ _ h]

/-- The apertures of a function are disabled, and it is out of D3hot. -/
def functionCleared (fn : Nat) (d : Dev) : Dev :=
  { d with host := { d.host with apertures := d.host.apertures.filter (fun a => a.1 / 16 != fn),
                                 d3hot := d.host.d3hot.filter (· != fn) } }

theorem WorkOnly.functionCleared {d d' : Dev} (h : WorkOnly d d') (fn : Nat) (mbox : SMap Mailbox) :
    WorkOnly (functionCleared fn { d with mbox := mbox }) (Machine.functionCleared fn { d' with mbox := mbox }) := by
  obtain ⟨_, _, _, _, _, _, _, _, _, _, _, _, _, _, rfl⟩ := h; exact workOnly_fields ..

/-- What is left when a function is reset (R456). -/
structure FunctionEnded (fn : Nat) (d d' : Dev) : Prop where
  gone : ∀ q v, qGet d q = some v → v.owner = fn → qGet d' q = none
  others : ∀ q v, qGet d q = some v → v.owner ≠ fn → qGet d' q = some v
  kept : ∀ q v, qGet d' q = some v → qGet d q = some v ∧ v.owner ≠ fn
  streams : ∀ e v, stGet d' e = some v → stGet d e = some v ∧ ∀ w, qGet d v.queue = some w → w.owner ≠ fn
  mbox : ∀ ch, smGet mailbox0 d'.mbox ch =
    if ch ∈ fnChannels fn then mbxReturn (smGet mailbox0 d.mbox ch) else smGet mailbox0 d.mbox ch
  rest : ∃ queues streams mbox, WorkOnly (functionCleared fn { d with queues := queues, streams := streams, mbox := mbox }) d'

theorem fnChannels_nodup (fn : Nat) : (fnChannels fn).Nodup := by
  unfold fnChannels
  split
  · exact List.nodup_range
  · exact List.nodup_singleton _

/-- The queues that a function owns. -/
def fnQueues (d : Dev) (fn : Nat) : List Nat := (d.queues.map (·.1)).filter (fun q => (qGet d q).any (·.owner == fn))

theorem mem_fnQueues {d : Dev} {fn q : Nat} {v : Queue} (hv : qGet d q = some v) : q ∈ fnQueues d fn ↔ v.owner = fn := by
  have listed : q ∈ d.queues.map (·.1) := mem_keys_of_smGet (d := none) (by rw [← qGet, hv]; exact Option.some_ne_none v)
  rw [fnQueues, List.mem_filter, hv]
  simp [listed]

theorem functionReset_eq (d : Dev) (fn : Nat) : functionReset d fn =
    functionCleared fn ((fnChannels fn).foldl (fun d c => mbxMod d c mbxReturn) ((fnQueues d fn).foldl queueDrop d)) := rfl

theorem functionReset_ended {d : Dev} (hclean : d.int.injects = []) (fn : Nat) : FunctionEnded fn d (functionReset d fn) := by
  obtain ⟨hin, hout, hstreams, m, n, hwork⟩ := foldl_queueDrop (fnQueues d fn) hclean
  obtain ⟨hmbox, mbox, hboxes⟩ :=
    foldl_mbxMod (fnChannels fn) mbxReturn (fnChannels_nodup fn) ((fnQueues d fn).foldl queueDrop d)
  have left : functionReset d fn = functionCleared fn { (fnQueues d fn).foldl queueDrop d with mbox := mbox } :=
    congrArg (functionCleared fn) hboxes
  rw [hboxes, hwork.mbox] at hmbox
  rw [left]
  refine ⟨fun q v hv h => ?gone, fun q v hv h => ?others, fun q v hv => ?kept, fun e v hv => ?streams, hmbox, ?rest⟩
  case gone => exact hin q ((mem_fnQueues hv).mpr h)
  case others => exact (hout q (mt (mem_fnQueues hv).mp h)).trans hv
  case kept =>
    have hv : qGet ((fnQueues d fn).foldl queueDrop d) q = some v := hv
    have hq : q ∉ fnQueues d fn := fun h => by
      rw [hin q h] at hv
      cases hv
    rw [hout q hq] at hv
    exact ⟨hv, mt (mem_fnQueues hv).mpr hq⟩
  case streams =>
    obtain ⟨held, hq⟩ := hstreams e v hv
    exact ⟨held, fun w hw => mt (mem_fnQueues hw).mpr hq⟩
  case rest => exact ⟨m, n, mbox, hwork.functionCleared fn mbox⟩

/-! ### Every function is reset -/

theorem mbxReturn_mbxReturn (m : Mailbox) : mbxReturn (mbxReturn m) = mbxReturn m := by
  by_cases h : m.phase = 3 <;> simp [mbxReturn, h]

theorem foldl_functionReset (l : List Nat) {d : Dev} (hclean : d.int.injects = []) :
    let t := l.foldl functionReset d
    (∀ q v, qGet t q = some v → qGet d q = some v ∧ v.owner ∉ l) ∧
      (∀ e v, stGet t e = some v → stGet d e = some v ∧ ∀ w, qGet d v.queue = some w → w.owner ∉ l) ∧
      (∀ ch, smGet mailbox0 t.mbox ch =
        if ∃ fn ∈ l, ch ∈ fnChannels fn then mbxReturn (smGet mailbox0 d.mbox ch) else smGet mailbox0 d.mbox ch) ∧
      ∃ queues streams mbox apertures d3hot, WorkOnly
        { d with queues := queues, streams := streams, mbox := mbox,
                 host := { d.host with apertures := apertures, d3hot := d3hot } } t := by
  induction l generalizing d with
  | nil => exact ⟨fun q v h => ⟨h, by simp⟩, fun e v h => ⟨h, by simp⟩, by simp, _, _, _, _, _, .refl d⟩
  | cons fn l ih =>
    obtain ⟨-, others, kept, streams, mbox, m, n, b, hfirst⟩ := functionReset_ended hclean fn
    obtain ⟨lkept, lstreams, lmbox, m', n', b', a', h', hrest⟩ := ih (hfirst.clean hclean)
    refine ⟨fun q v hv => ?_, fun e v hv => ?_, fun ch => ?_, m', n', b', a', h', ?_⟩
    · obtain ⟨hv, hl⟩ := lkept q v hv
      obtain ⟨hd, hfn⟩ := kept q v hv
      exact ⟨hd, by simp [hfn, hl]⟩
    · obtain ⟨hv, hl⟩ := lstreams e v hv
      obtain ⟨hd, hfn⟩ := streams e v hv
      exact ⟨hd, fun w hw => by simp [hfn w hw, hl w (others _ w hw (hfn w hw))]⟩
    · rw [List.foldl_cons, lmbox, mbox]
      by_cases hfn : ch ∈ fnChannels fn <;> by_cases hl : ∃ x ∈ l, ch ∈ fnChannels x <;> simp [hfn, hl, mbxReturn_mbxReturn]
    · obtain ⟨_, _, _, _, _, _, _, _, _, _, _, _, _, _, h⟩ := hfirst
      refine WorkOnly.trans ?_ hrest
      rw [h]
      exact workOnly_fields ..

theorem WorkOnly.hostKept {d t : Dev} {queues streams mbox host}
    (h : WorkOnly { d with queues := queues, streams := streams, mbox := mbox, host := host } t)
    (rrAssign rrWindows rrTables rrTallies host') :
    HostKept d { t with rrAssign := rrAssign, rrWindows := rrWindows, rrTables := rrTables, rrTallies := rrTallies,
                        host := host' } := by
  obtain ⟨_, _, _, _, _, _, _, _, _, _, _, _, _, _, rfl⟩ := h
  exact ⟨_, _, _, _, _, _, _, _, _, _, _, _, _, _, _, _, _, _, _, _, _, _, rfl⟩

theorem exists_fnChannels {ch : Nat} (h : ch < 16) : ∃ fn ∈ List.range 8, ch ∈ fnChannels fn := by
  by_cases hpf : ch ≤ 8
  · exact ⟨0, by simp, by simp [fnChannels]; omega⟩
  · exact ⟨ch - 8, by simp; omega, by simp [fnChannels, show ch - 8 ≠ 0 by omega]; omega⟩

/-! ### The host's events -/

/-- PERST_N stands low. -/
def perstHeld (d : Dev) : Dev := { d with pow := { d.pow with perst := true } }

/-- The link does not train. -/
def trainingStopped (d : Dev) : Dev := { d with host := { d.host with training := false } }

section
variable {s : State}

theorem linkDown_down {d : Dev} (h : d.host.dlUp = false) : linkDown d = d := if_neg (by simp [h])

theorem exec_flr_physical (hphase : s.dev.pow.phase = .hostReady) (hup : s.dev.host.dlUp = true) :
    exec (.functionLevelReset 0) s = .next (settle (fun _ d => hostSideReset d) s) :=
  runDev_of_agree ((if_neg (by simp [hphase, hup])).trans (if_pos rfl))

theorem exec_flr_virtual {fn : Nat} (hfn : fn ≠ 0) (hphase : s.dev.pow.phase = .hostReady) (hup : s.dev.host.dlUp = true)
    (hvf : s.dev.host.vfEnable = true) (hnum : fn ≤ s.dev.host.numVfs) :
    exec (.functionLevelReset fn) s = .next (settle (fun _ d => functionReset d fn) s) :=
  runDev_of_agree ((if_neg (by simp [hphase, hup])).trans ((if_neg hfn).trans (if_pos ⟨hvf, hnum⟩)))

theorem exec_hotReset_up (hup : s.dev.host.dlUp = true) : exec .hotReset s = .next (settle (fun _ d => hostSideReset d) s) :=
  runDev_of_agree (if_pos hup)

theorem exec_d3hotToD0_asleep (h : s.dev.host.d3hot.contains 0 = true) :
    exec .d3hotToD0 s = .next (settle (fun _ d => hostSideReset d) s) := runDev_of_agree (if_pos h)

theorem dlUpDev_trained {d : Dev} (hruns : pcieRuns d = true) (hperst : d.pow.perst = false) (hdown : d.host.dlUp = false)
    (rate width : Nat) (flit : Bool) (rootRate rootWidth : Nat) (rootFlit : Bool) (o : Otp) :
    dlUpDev rate width flit rootRate rootWidth rootFlit o d =
      putFix { d with host := { d.host with dlUp := true, everUp := true, counting := false, training := false, rate := rate,
                                            width := width, flit := flit } } 7 0 0
        (natLe 1 rootRate ++ natLe 1 rootWidth ++ natLe 1 rootFlit.toNat ++ natLe 1 rate ++ natLe 1 width) :=
  if_neg (by simp [hruns, hperst, hdown])

end

/-- Settles O46: the resets of the eight functions are followed queue by queue; the state of the link picks what an event does. -/
theorem hostSideResets : Obligations.HostSideResets := by
  refine ⟨fun d hclean => ?hostSide, fun d fn hclean => ?function, fun s => ?events⟩
  case hostSide =>
    obtain ⟨kept, streams, mbox, _, _, _, _, _, rest⟩ := foldl_functionReset (List.range 8) hclean
    unfold hostSideReset
    generalize (List.range 8).foldl functionReset d = t at kept streams mbox rest ⊢
    refine ⟨rest.hostKept .., fun q v hv howner => ?_, fun e v hv w hw => ?_, fun ch hch => ?_, rfl, rfl, rfl, rfl, rfl, rfl, rfl,
      rfl, rfl, rfl, rfl, rfl, congrArg (·.dlUp) rest.host⟩
    · refine Option.eq_none_iff_forall_ne_some.mpr fun w hw => ?_
      obtain ⟨hd, hout⟩ := kept q w hw
      obtain rfl := Option.some.inj (hv.symm.trans hd)
      exact hout (List.mem_range.mpr howner)
    · simpa using (streams e v hv).2 w hw
    · exact (mbox ch).trans (if_pos (exists_fnChannels hch))
  case function =>
    obtain ⟨gone, others, -, streams, mbox, _, _, _, rest⟩ := functionReset_ended hclean fn
    exact ⟨rest.hostKept .., gone, others, streams, mbox, rest.rrAssign, rest.rrWindows, rest.rrTables, rest.rrTallies, rest.host⟩
  case events =>
    refine ⟨exec_flr_physical, fun fn => exec_flr_virtual, exec_hotReset_up, exec_d3hotToD0_asleep, ?lost,
      fun hdown => ?stays, rfl, fun rate width flit rootRate rootWidth rootFlit hruns hperst hdown => ?comes⟩
    case lost =>
      intro down hup
      have lost (d : Dev) (h : d.host.dlUp = true) : linkDown d = down d := if_pos h
      clear_value down
      exact ⟨runDev_of_agree (lost s.dev hup), runDev_of_agree (congrArg trainingStopped (lost (perstHeld s.dev) hup))⟩
    case stays => exact runDev_of_agree (congrArg trainingStopped (linkDown_down (d := perstHeld s.dev) hdown))
    case comes => exact runDev_of_agree (dlUpDev_trained hruns hperst hdown ..)

/-- What a host-side reset leaves of the host interface holds whatever the queues were (R457). -/
theorem hostSideReset_host (d : Dev) :
    let t := hostSideReset d
    t.host.vfEnable = false ∧ t.host.numVfs = 0 ∧ t.host.apertures = [] ∧ t.host.msix = [] ∧ t.host.mse = [] ∧
      t.host.d3hot = [] ∧ t.rrWindows = [] := by
  unfold hostSideReset
  generalize (List.range 8).foldl functionReset d = t
  exact ⟨rfl, rfl, rfl, rfl, rfl, rfl, rfl⟩

theorem hostSideReset_pow {d : Dev} (hclean : d.int.injects = []) : (hostSideReset d).pow = d.pow := by
  obtain ⟨-, -, -, _, _, _, _, _, rest⟩ := foldl_functionReset (List.range 8) hclean
  unfold hostSideReset
  generalize (List.range 8).foldl functionReset d = t at rest ⊢
  exact rest.pow

theorem linkDown_dlUp (d : Dev) : (linkDown d).host.dlUp = false := by
  unfold linkDown
  split
  next => rfl
  next h => exact Bool.eq_false_iff.mpr h

theorem linkDown_perst {d : Dev} (hclean : d.int.injects = []) : (linkDown d).pow.perst = d.pow.perst := by
  have kept := hostSideReset_pow (d := pcAdd d kHostDown 1) hclean
  unfold linkDown
  generalize hostSideReset (pcAdd d kHostDown 1) = t at kept ⊢
  split
  next => exact congrArg Power.perst kept
  next => rfl

theorem perstAssertDev_link (o : Otp) (d : Dev) : (perstAssertDev o d).host.dlUp = false ∧
    (perstAssertDev o d).host.training = false ∧ (d.int.injects = [] → (perstAssertDev o d).pow.perst = true) := by
  have down := linkDown_dlUp (perstHeld d)
  have held := linkDown_perst (d := perstHeld d)
  change (trainingStopped (linkDown (perstHeld d))).host.dlUp = false ∧
    (trainingStopped (linkDown (perstHeld d))).host.training = false ∧
      (_ → (trainingStopped (linkDown (perstHeld d))).pow.perst = true)
  generalize linkDown (perstHeld d) = t at down held ⊢
  exact ⟨down, rfl, held⟩

theorem linkDown_lost {d : Dev} (h : d.host.dlUp = true) :
    let t := linkDown d
    (t.host.vfEnable = false ∧ t.host.numVfs = 0 ∧ t.host.apertures = [] ∧ t.host.msix = [] ∧ t.host.mse = [] ∧
      t.host.d3hot = [] ∧ t.rrWindows = []) ∧ t.host.dlUp = false ∧ t.host.counting = true := by
  have returned := hostSideReset_host (pcAdd d kHostDown 1)
  unfold linkDown
  rw [if_pos h]
  generalize hostSideReset (pcAdd d kHostDown 1) = t at returned ⊢
  exact ⟨returned, rfl, rfl⟩

theorem functionReset_host (d : Dev) (fn : Nat) : (∀ a ∈ (functionReset d fn).host.apertures, a.1 / 16 ≠ fn) ∧
    (functionReset d fn).host.d3hot.contains fn = false := by
  rw [functionReset_eq]
  generalize (fnChannels fn).foldl _ _ = t
  refine ⟨fun a ha => ?_, ?_⟩
  · simpa using (List.mem_filter.mp ha).2
  · simp [functionCleared]

/-- Settles O60: each event settles one of the resets of the host side, whose host interface is a literal. -/
theorem hostEventsComplete : Obligations.HostEventsComplete := by
  intro s returned
  have reset (i : Instr) (h : exec i s = .next (settle (fun _ d => hostSideReset d) s)) : ∃ t, exec i s = .next t ∧ returned t :=
    ⟨_, h, hostSideReset_host s.dev⟩
  refine ⟨?asserted, ⟨_, runDev_next perstDeassertDev s, rfl, rfl⟩, fun h => reset _ (exec_d3hotToD0_asleep h),
    fun hup => ⟨reset _ (exec_hotReset_up hup), ?lost,
      fun hphase => ⟨reset _ (exec_flr_physical hphase hup), fun fn hfn hvf hnum => ?function⟩⟩,
    fun rate width flit rootRate rootWidth rootFlit hruns hperst hdown => ?comes⟩
  case asserted =>
    have link := perstAssertDev_link s.otp s.dev
    obtain ⟨t, ht⟩ : ∃ t, perstAssertDev s.otp s.dev = t := ⟨_, rfl⟩
    rw [ht] at link
    exact ⟨_, runDev_eq_settle ht, link⟩
  case lost =>
    have lost := linkDown_lost hup
    obtain ⟨t, ht⟩ : ∃ t, linkDown s.dev = t := ⟨_, rfl⟩
    rw [ht] at lost
    exact ⟨_, runDev_eq_settle ht, lost⟩
  case function => exact ⟨_, exec_flr_virtual hfn hphase hup hvf hnum, functionReset_host s.dev fn⟩
  case comes => exact ⟨_, runDev_eq_settle (dlUpDev_trained hruns hperst hdown ..), rfl, rfl, rfl, rfl, rfl⟩

end Sys2Proof.Machine
end

section
/-! Module resets, their release, host-ready and Sighting (chapter 21): the statement O53. -/
namespace Sys2Proof.Machine

theorem applyCut_idle {d : Dev} (h : d.act = none) : applyCut d = d := by
  unfold applyCut
  rw [h]

/-- With no apply in progress a module reset is a literal of what it keeps (R555). -/
theorem moduleReset_keeps (o : Otp) {d : Dev} (h : d.act = none) :
    let t := moduleReset o d
    t.mem = d.mem ∧ t.side = d.side ∧ t.flash = d.flash ∧ t.log = d.log ∧ t.sx.fixes = d.sx.fixes ∧ t.queues = [] ∧
      t.streams = [] ∧ t.plans = [] ∧ t.objs = [] ∧ t.mbox = [] ∧ t.tables = [] ∧ t.params = [] ∧ t.pow.phase = .inReset := by
  unfold moduleReset
  rw [applyCut_idle h]
  exact ⟨rfl, rfl, rfl, rfl, rfl, rfl, rfl, rfl, rfl, rfl, rfl, rfl, rfl⟩

/-- The mailboxes leave OFFLINE with their sequence numbers free (R464). -/
theorem mbxGet_mailboxesOpen (d : Dev) {ch : Nat} (h : ch < 16) :
    (mbxGet (mailboxesOpen d) ch).phase = 0 ∧ (mbxGet (mailboxesOpen d) ch).seqFree = true := by
  have opened := (foldl_mbxMod (List.range 16) (fun m => { m with phase := 0, seqFree := true }) List.nodup_range d).1 ch
  rw [if_pos (List.mem_range.mpr h)] at opened
  rw [mbxGet, mailboxesOpen, opened]
  exact ⟨rfl, rfl⟩

/-- Host-ready opens the mailboxes of a device that its flash fits (R464, R482). -/
theorem hostReadyDev_opens {d : Dev} (hphase : d.pow.phase = .firmware) (hpending : d.pow.shutdownPending = false)
    (hfits : d.flash.fits = true) (hbmStacks : List (Bool × List Byte)) (pkgs : List Nat) (o : Otp) :
    ∃ t, hostReadyDev hbmStacks pkgs o d = t ∧ t.pow.phase = .hostReady ∧
      ∀ ch < 16, (mbxGet t ch).phase = 0 ∧ (mbxGet t ch).seqFree = true := by
  have opens : ∃ e, hostReadyDev hbmStacks pkgs o d =
      { mailboxesOpen e with pow := { (mailboxesOpen e).pow with phase := .hostReady } } :=
    ⟨_, if_neg (by simp [hphase, hpending, hfits])⟩
  obtain ⟨e, he⟩ := opens
  have opened := fun ch => mbxGet_mailboxesOpen e (ch := ch)
  generalize mailboxesOpen e = m at he opened
  exact ⟨_, he, rfl, opened⟩

/-- The release of the input with power good: the straps are sampled (R552, R555). -/
theorem resetReleaseDev_released {d : Dev} {o : Otp} {straps : BitVec 41} (hgood : d.pow.pwrGood = true)
    (hphase : d.pow.phase = .inReset) (hpending : d.pow.shutdownPending = false) (romOk : Bool) :
    resetReleaseDev straps romOk o d =
      let out := { d with pow := { d.pow with modRst := false, strap1 := straps, siteCode := straps.truncate 40 },
                          host := { d.host with training := !d.pow.perst } }
      if !romOk then { out with pow := { out.pow with phase := .bootFailed } }
      else if (bootRom o out).pow.phase = .firmware then firmwareStart o (bootRom o out) else bootRom o out :=
  if_neg (by simp [hgood, hphase, hpending])

theorem sightingStartDev_first {d : Dev} {o : Otp} {straps : BitVec 41} (hruns : fwRuns d = true) (hfirst : d.pow.sighted = false)
    (mAs : List Nat) :
    sightingStartDev straps mAs o d =
      let begun := { d with pow := { d.pow with sighted := true, siteInvalid := siteBad d straps } }
      if siteBad d straps = true then log6 begun stRhSite 7 0
      else settleReady o ((List.range 20).foldl (fun d p =>
          if portPresent o p = false then legReport d p false
          else if (smGet cage0 d.sx.cages (p / 2)).state = 1 then startSighting o d p else plugLost o d p)
        ((List.range 10).foldl (fun d c => cageFixDev c (nth mAs c) o d) begun)) := by
  unfold sightingStartDev
  rw [if_neg (by simp [hruns, hfirst])]
  simp only [Bool.not_eq_true']

/-- Settles O53: the phase and the pins pick what a reset or its release does; what a module reset leaves is a literal. -/
theorem moduleResetsAndStarts : Obligations.ModuleResetsAndStarts := by
  refine ⟨fun s => ⟨fun hphase => ?pin, fun hcount hdown hruns => ?link, fun hpending => ?activate, fun straps hgood hphase hpending => ?release,
    fun hbmStacks pkgs hphase hpending hfits => ?ready, fun straps mAs hruns hfirst => ?sighting⟩,
    fun o d h => moduleReset_keeps o h⟩
  case pin => exact runDev_of_agree (if_neg hphase)
  case link => exact runDev_of_agree (if_pos ⟨hcount, by simp [hdown], hruns⟩)
  case activate => exact runDev_of_agree (if_pos hpending)
  case release =>
    have released := resetReleaseDev_released (o := s.otp) (straps := straps) hgood hphase hpending
    exact ⟨runDev_of_agree (released false), runDev_of_agree (released true)⟩
  case ready =>
    obtain ⟨t, ht, ready⟩ := hostReadyDev_opens hphase hpending hfits hbmStacks pkgs s.otp
    exact ⟨_, runDev_eq_settle ht, ready⟩
  case sighting =>
    have sighted := sightingStartDev_first (o := s.otp) (straps := straps) hruns hfirst mAs
    exact ⟨fun bad => runDev_of_agree (sighted.trans (if_pos bad)),
      fun good => runDev_of_agree (sighted.trans (if_neg (by simp [good])))⟩

end Sys2Proof.Machine
end

section
/-! Mailbox registers, deferred replies and MCTP control (chapter 17): the statement O48. -/
namespace Sys2Proof.Machine

/-! ### Writes of HUB_MBX_CTL -/

/-- Two acts that agree whatever the count of failing reads agree with those reads failing (R412). -/
theorem withFails_agree {f g : Otp → Dev → Dev} {o : Otp} {d : Dev}
    (h : ∀ n, f o { d with readFails := n } = g o { d with readFails := n }) (rr : Nat) :
    withFails rr f o d = withFails rr g o d := by
  unfold withFails
  rw [h rr, show f o d = g o d from h d.readFails]

theorem mbxCtlDev_claimed {d : Dev} {fn mb ch : Nat} (hclaimed : claimed d fn = true) (hch : mbxChannel fn mb = some ch)
    (vector : H16) (reset go : Bool) (o : Otp) : mbxCtlDev fn mb vector reset go o d = mbxCtl ch vector reset go o d := by
  unfold mbxCtlDev
  rw [if_neg (by simp [hclaimed]), hch]

theorem mbxCtl_takes {d : Dev} {ch : Nat} (h : (mbxGet d ch).phase = 0 ∨ (mbxGet d ch).phase = 2) (vector : H16)
    (reset go : Bool) (o : Otp) :
    mbxCtl ch vector reset go o d =
      let put := mbxMod d ch (fun m => { m with vector := vector })
      if reset then mbxMod put ch mbxClear else if go then mbxServe o put ch else put :=
  if_pos (by simpa using h)

theorem mbxCtl_busy {d : Dev} {ch : Nat} (h : ¬((mbxGet d ch).phase = 0 ∨ (mbxGet d ch).phase = 2)) (vector : H16)
    (reset go : Bool) (o : Otp) :
    mbxCtl ch vector reset go o d =
      let put := mbxMod d ch (fun m => { m with vector := vector })
      if go then mbxMod put ch (fun m => { m with overrun := true }) else put :=
  if_neg (by simpa using h)

/-! ### Register writes -/

/-- A write below the debug window never reaches the control range (R445). -/
theorem registerWrite_runs {off : Nat} (h : off < 0x2000000) (fn width val : Nat) (s : State) :
    exec (.registerWrite fn off width val) s = runDev (registerWriteDev fn off width val) s :=
  if_neg (by simp [reachesControl, inDebugWindow]; omega)

/-- An aligned write of 8 bytes inside a mailbox page goes to that page. -/
theorem registerWriteDev_page {d : Dev} {fn mb ch x : Nat} (hclaimed : claimed d fn = true) (hch : mbxChannel fn mb = some ch)
    (hmb : mb < 16) (hx : x < 4096) (hmul : x % 8 = 0) (val : Nat) (o : Otp) :
    registerWriteDev fn (0x10000 + 4096 * mb + x) 8 val o d = mbxPageWrite o d ch x 8 val := by
  have page : (0x10000 + 4096 * mb + x - 0x10000) / 4096 = mb := by omega
  have place : (0x10000 + 4096 * mb + x) % 4096 = x := by omega
  unfold registerWriteDev
  rw [if_neg (by simp [hclaimed, bar0Form, isMul]; omega), if_pos (by omega), page, hch, place]

theorem registerWriteDev_msix {d : Dev} {fn x : Nat} (hclaimed : claimed d fn = true) (hx : x < 16 * vectorCount fn)
    (hmul : x % 8 = 0) (val : Nat) (o : Otp) :
    registerWriteDev fn (0x100000 + x) 8 val o d = msixWrite d fn x (natLe 8 val) := by
  unfold registerWriteDev
  rw [if_neg (by simp [hclaimed, bar0Form, isMul]; omega), if_neg (by omega), if_neg (by omega), if_neg (by omega),
    if_neg (by omega), if_pos (by omega), Nat.add_sub_cancel_left]

theorem vectorCount_le (fn : Nat) : vectorCount fn ≤ 1152 := by
  unfold vectorCount
  split <;> omega

/-! ### Deferred replies and MCTP control -/

theorem deferredDev_done {d : Dev} {o : Otp} {ch st : Nat} {b : Busy} {p : List Byte} (hb : (mbxGet d ch).busy = some b)
    (hdone : deferDone o d b.wait = some (st, p)) : deferredDev ch o d = mbxFinish o d ch b st p := by
  simp only [deferredDev, hb, hdone]

theorem mbxTimeoutDev_busy {d : Dev} {ch : Nat} {b : Busy} (hb : (mbxGet d ch).busy = some b) (o : Otp) :
    mbxTimeoutDev ch o d = mbxFinish o d ch b stMbxTimeout [] := by
  simp only [mbxTimeoutDev, hb]

theorem mctpGetVersionDev_served {d : Dev} (h : mctpServed d = true) (iid : Nat) (typ : Byte) (o : Otp) :
    mctpGetVersionDev iid typ o d = mctpAnswer d iid 4
      (if typ = 0xFF ∨ typ = 0 ∨ typ = 0x7E
        then [0] ++ natLe 1 ((Config.mctpVersions typ.toNat).length / 4) ++ Config.mctpVersions typ.toNat else [0x80]) := by
  unfold mctpGetVersionDev
  rw [if_neg (by simp [h]), apply_ite (mctpAnswer d iid 4)]

/-- Settles O48: the phase picks what a write of HUB_MBX_CTL does, the offset what a register write reaches. -/
theorem mailboxRegistersAct : Obligations.MailboxRegistersAct := by
  refine ⟨fun s fn mb ch vector hclaimed hch => ?control, fun s fn val hclaimed _ => ?registers,
    fun s off width hclaimed hlocked hwindow => ?debug, fun s ch b hb => ?deferred, fun s iid hserved => ?mctp⟩
  case control =>
    have ctl := fun (n : Nat) (reset go : Bool) =>
      mbxCtlDev_claimed (d := { s.dev with readFails := n }) hclaimed hch vector reset go s.otp
    have takes := fun (h : (mbxGet s.dev ch).phase = 0 ∨ (mbxGet s.dev ch).phase = 2) (n : Nat) (reset go : Bool) =>
      (ctl n reset go).trans (mbxCtl_takes (d := { s.dev with readFails := n }) h vector reset go s.otp)
    have busy := fun (h : ¬((mbxGet s.dev ch).phase = 0 ∨ (mbxGet s.dev ch).phase = 2)) (n : Nat) (reset go : Bool) =>
      (ctl n reset go).trans (mbxCtl_busy (d := { s.dev with readFails := n }) h vector reset go s.otp)
    refine ⟨fun h rr => ?serve, fun h rr => ?clear, fun h => ?reset, fun h reset rr => ?overrun, fun h => ?kept,
      fun val hmb => ?state, fun x val hmb hlow hx hmul => ?buffer⟩
    case serve => exact runDev_of_agree (withFails_agree (fun n => takes h n false true) rr)
    case clear => exact runDev_of_agree (withFails_agree (fun n => takes h n true true) rr)
    case reset => exact runDev_of_agree (takes h s.dev.readFails true false)
    case overrun => exact runDev_of_agree (withFails_agree (fun n => busy h n reset true) rr)
    case kept => exact runDev_of_agree (busy h s.dev.readFails true false)
    case state =>
      rw [registerWrite_runs (by omega)]
      exact runDev_of_agree (registerWriteDev_page hclaimed hch hmb (by omega) (by omega) val s.otp)
    case buffer =>
      rw [registerWrite_runs (by omega)]
      refine runDev_of_agree ((registerWriteDev_page hclaimed hch hmb hx hmul val s.otp).trans ?_)
      unfold mbxPageWrite
      rw [if_neg (by omega), if_neg (by omega), if_pos hlow]
  case registers =>
    have plain : ∀ off, off % 8 = 0 → ¬(!claimed s.dev fn || !bar0Form off 8) = true := fun off hoff => by
      simp [hclaimed, bar0Form, isMul, hoff]
    have outside : ∀ off, 0x20000 ≤ off → ¬(0x10000 ≤ off ∧ off < 0x20000) := fun off hoff => by omega
    refine ⟨?doorbell, ?cqDoorbell, fun hbit => ?refused, fun x hx hmul => ?msix⟩
    case doorbell =>
      rw [registerWrite_runs (by omega)]
      exact runDev_of_agree ((if_neg (plain _ rfl)).trans ((if_neg (outside _ (by omega))).trans (if_pos ⟨rfl, rfl⟩)))
    case cqDoorbell =>
      rw [registerWrite_runs (by omega)]
      exact runDev_of_agree ((if_neg (plain _ rfl)).trans ((if_neg (outside _ (by omega))).trans
        ((if_neg (by omega)).trans (if_pos ⟨rfl, rfl⟩))))
    case refused =>
      rw [registerWrite_runs (by omega)]
      exact runDev_of_agree ((if_neg (plain _ rfl)).trans ((if_neg (outside _ (by omega))).trans
        ((if_neg (by omega)).trans ((if_neg (by omega)).trans ((if_pos rfl).trans (if_pos hbit))))))
    case msix =>
      have small := vectorCount_le fn
      rw [registerWrite_runs (by omega)]
      exact runDev_of_agree (registerWriteDev_msix hclaimed hx hmul val s.otp)
  case debug =>
    have locked : reachesControl s.dev 0 off width = false := by simp [reachesControl, hlocked]
    have reached : ¬((!claimed s.dev 0) = true ∨ (!inDebugWindow 0 off) = true) := by simp [hclaimed, hwindow]
    have runs : ∀ wr, exec (.debugWindowAccess 0 off width wr) s = runDev (debugWindowDev 0 off width wr) s :=
      fun wr => if_neg (by simp [locked])
    exact ⟨(runs none).trans (runDev_of_agree (if_neg reached)), fun v => (runs (some v)).trans (runDev_of_agree (if_neg reached))⟩
  case deferred =>
    exact ⟨fun st p hdone => runDev_of_agree (deferredDev_done hb hdone), runDev_of_agree (mbxTimeoutDev_busy hb s.otp)⟩
  case mctp =>
    have served : ¬(!mctpServed s.dev) = true := by simp [hserved]
    refine ⟨fun eid hzero hff => ?set, fun eid hbad => ?reject, runDev_of_agree (if_pos hserved),
      runDev_of_agree (if_pos hserved), fun typ => runDev_of_agree (mctpGetVersionDev_served hserved iid typ s.otp)⟩
    case set => exact runDev_of_agree ((if_neg served).trans (if_neg (not_or.mpr ⟨hzero, hff⟩)))
    case reject => exact runDev_of_agree ((if_neg served).trans (if_pos hbad))

end Sys2Proof.Machine
end

section
/-! Requests of the mailbox protocol (chapter 17): the statement O49. -/
namespace Sys2Proof.Machine

/-- A command that sends a request is the sending of that request, and its opcode is one of Table 17-11. -/
theorem sentRequest_sends {i : Instr} {r : Request} (h : sentRequest i = some r) (s : State) :
    exec i s = runDev (withFails (sentFails i) (dzSend r.op r.ch r.seq r.ctx r.payload)) s ∧ (dzFind r.op).isSome = true := by
  cases i <;> cases h <;> exact ⟨rfl, rfl⟩

theorem dzFind_op {op : Nat} {w : DzRow} (h : dzFind op = some w) : op < 65536 := by
  have small : dzTable.all (fun r => decide (r.op < 65536)) = true := rfl
  have found : w.op = op := by simpa using List.find?_some h
  have bound := List.all_eq_true.mp small w (List.mem_of_find?_eq_some h)
  simpa [found] using bound

/-- An act on a mailbox is what it makes of that mailbox. -/
theorem mbxMod_congr {d : Dev} {ch : Nat} {f g : Mailbox → Mailbox} (h : f (mbxGet d ch) = g (mbxGet d ch)) :
    mbxMod d ch f = mbxMod d ch g := by
  simp only [mbxMod, smMod]
  rw [show f (smGet mailbox0 d.mbox ch) = g (smGet mailbox0 d.mbox ch) from h]

/-- The mailbox with a request written into its buffer, before it is served. -/
def Request.written (r : Request) (m : Mailbox) : Mailbox :=
  let bs := mhRequest r.op r.seq r.ctx r.payload
  { m with buffer := if r.ch = 16 then padTo 4032 bs else putBytes (mbxBuf m) 0 bs }

/-- The buffer that the sender has written begins with the request. -/
theorem written_buffer (r : Request) (m : Mailbox) (hlen : r.payload.length ≤ 4000) :
    ∃ rest, mbxBuf (r.written m) = mhRequest r.op r.seq r.ctx r.payload ++ rest := by
  have fits : (mhRequest r.op r.seq r.ctx r.payload).length ≤ 4032 := by
    rw [mhRequest_length]
    omega
  simp only [mbxBuf, Request.written]
  split
  · obtain ⟨t, ht⟩ := padTo_append (b := []) fits
    rw [← List.append_nil (mhRequest r.op r.seq r.ctx r.payload), ht]
    simpa using padTo_append (b := t) fits
  · simpa [putBytes] using padTo_append (b := (padTo 4032 m.buffer).drop (mhRequest r.op r.seq r.ctx r.payload).length) fits

/-- A request that its channel takes is written into the buffer and served (R464, R465, R474). -/
theorem dzSend_accepted {r : Request} {d : Dev} (h : r.accepted d) (o : Otp) :
    dzSend r.op r.ch r.seq r.ctx r.payload o d = mbxServe o (mbxMod d r.ch r.written) r.ch := by
  obtain ⟨hchannel, -, -⟩ := h
  unfold dzSend
  by_cases mctp : r.ch = 16
  · rw [if_pos mctp] at hchannel
    obtain ⟨hserved, hphase⟩ := hchannel
    have writes : mbxMod d 16 (fun m => { m with buffer := padTo 4032 (mhRequest r.op r.seq r.ctx r.payload) }) =
        mbxMod d 16 r.written := mbxMod_congr (by rw [Request.written, if_pos mctp])
    rw [if_pos mctp, mctp, ← writes, mctpRequest, if_neg (by simp [hserved, hphase])]
  · rw [if_neg mctp] at hchannel
    obtain ⟨hch, hclaimed, hphase⟩ := hchannel
    have free : (mbxGet d r.ch).phase ≠ 1 := by omega
    rw [if_neg mctp, if_neg (by simp [hclaimed]; omega)]
    dsimp only
    rw [if_pos hphase, mbxCtl_takes (by simpa [mbxBufWrite, free] using hphase), mbxBufWrite, mbxMod_mbxMod]
    dsimp only
    rw [if_neg (by decide), if_pos rfl]
    rw [mbxMod_congr (g := r.written) (by simp [Request.written, mctp, free])]

/-- A request that is accepted and open to its sender passes checks 1 to 6 as it was written (Table 17-5). -/
theorem dzSend_executes {r : Request} {d : Dev} {w : DzRow} (hw : dzFind r.op = some w) (h : r.accepted d)
    (hopen : dzOpen d r.ch r.op r.payload = true) (o : Otp) :
    dzSend r.op r.ch r.seq r.ctx r.payload o d = mbxExecute o (r.taken d) r.ch r.busy := by
  obtain ⟨-, hseq, hlen⟩ := id h
  obtain ⟨rest, hrest⟩ := written_buffer r (mbxGet d r.ch) hlen
  have serves := mbxServe_request (o := o) (d := mbxMod d r.ch r.written) (dzFind_op hw) hlen (by simpa using hrest)
    (by simpa [Request.written] using hseq) (by simp [hw]) hopen
  rw [dzSend_accepted h, serves, mbxMod_mbxMod]
  rfl

theorem mbxExecute_length {o : Otp} {d : Dev} {b : Busy} {w : DzRow} (hw : dzFind b.opcode = some w)
    (hlen : b.len ≠ w.len b.payload) (ch : Nat) : mbxExecute o d ch b = mbxFinish o d ch b stMbxLen [] := by
  simp only [mbxExecute, hw]
  exact if_pos hlen

theorem mbxExecute_runs {o : Otp} {d : Dev} {b : Busy} {w : DzRow} (hw : dzFind b.opcode = some w)
    (hlen : b.len = w.len b.payload) (ch : Nat) :
    mbxExecute o d ch b =
      let x := w.run ch b.payload o d
      match x.wait with
      | none => recoveryAct o (mbxFinish o x.dev ch b x.status x.payload) b.opcode x.status
      | some y => mbxMod x.dev ch (fun m => { m with busy := some { b with wait := y, payload := [] } }) := by
  simp only [mbxExecute, hw]
  rw [if_neg (by simp [hlen])]
  cases (w.run ch b.payload o d).wait <;> rfl

/-- Settles O49: a request that is taken is executed, and its length picks between the reply of ST_MBX_LEN and the meaning. -/
theorem requestsAreServed : Obligations.RequestsAreServed := by
  intro i r s hsent
  obtain ⟨sends, known⟩ := sentRequest_sends hsent s
  obtain ⟨w, hw⟩ := Option.isSome_iff_exists.mp known
  refine ⟨w, hw, fun haccepted hopen => ?_⟩
  have executes := fun n => dzSend_executes (d := { s.dev with readFails := n }) hw haccepted hopen s.otp
  rw [sends]
  refine ⟨fun hlen => runDev_of_agree (withFails_agree (fun n => (executes n).trans ?length) _),
    fun hlen => runDev_of_agree (withFails_agree (fun n => (executes n).trans ?runs) _)⟩
  case length => exact mbxExecute_length (b := r.busy) hw hlen r.ch
  case runs => exact mbxExecute_runs (b := r.busy) hw hlen r.ch

end Sys2Proof.Machine
end

section
/-! The link layer and the discovery of legs (chapter 13): the statements O43 and O44. -/
namespace Sys2Proof.Machine

/-! ### A port whose link is up -/

theorem linkTagDev_discards {d : Dev} {p : Nat} {rp : Bool} (hdis : linkDiscards d p rp = true) (t : W64) (o : Otp) : linkTagDev p t rp o d = d :=
  if_pos (by simp [hdis])

theorem packetArrivalDev_discards {d : Dev} {p : Nat} {rp : Bool} (hdis : linkDiscards d p rp = true) (t : W64) (h payload : List Byte) (o : Otp) :
    packetArrivalDev p t rp h payload o d = d :=
  if_pos (by simp [hdis])

section
variable {d : Dev} {p : Nat} (hup : linkUp d p = true)
include hup

theorem linkTagDev_hears {rp : Bool} (hdis : linkDiscards d p rp = false) (t : W64) (o : Otp) :
    linkTagDev p t rp o d = if tagOk t.toNat then takeTag (linkTakes d p) p t.toNat else linkBad d p := by
  unfold linkTagDev
  rw [if_neg (by simp [hup, hdis])]
  cases tagOk t.toNat <;> rfl

/-- A packet with an idle tag is judged by its place, its header and, as a discovery record, its own check (R361, R375). -/
theorem packetArrivalDev_hears {t : W64} {rp : Bool} (hdis : linkDiscards d p rp = false) (htag : tagOk t.toNat = true)
    (hidle : bits t.toNat 30 2 = 0) (h payload : List Byte) (o : Otp) :
    packetArrivalDev p t rp h payload o d =
      let d0 := takeTag (linkTakes d p) p t.toNat
      let q := pktOf h payload
      if bits t.toNat 48 16 = ((portGet d0 p).rxSeq + 1) % 65536 then
        if sealOk 32 h = true ∧ h.length = 32 ∧ payload.length = 64 * (fld h 1 1 % 32) then
          if kindLocal q.kind = true → recordOk q = true then
            let d := portMod d0 p (fun v => { v with rxSeq := (v.rxSeq + 1) % 65536 })
            sendTag (acceptPkt (pcAdd d (kPort p + 1) 1) p (hdrForm h) q) p 1
          else linkBad d0 p
        else linkBad (pcAdd d0 (kPort p + 5) 1) p
      else d0 := by
  unfold packetArrivalDev
  rw [if_neg (by simp [hup, hdis]), if_neg (by simp [htag, hidle])]
  dsimp only
  generalize takeTag (linkTakes d p) p t.toNat = d0
  generalize pktOf h payload = q
  by_cases next : bits t.toNat 48 16 = ((portGet d0 p).rxSeq + 1) % 65536
  · rw [if_neg (not_not.mpr next), if_pos next]
    by_cases good : sealOk 32 h = true ∧ h.length = 32 ∧ payload.length = 64 * (fld h 1 1 % 32)
    · rw [if_neg (by simp [good]), if_pos good]
      by_cases sound : kindLocal q.kind = true → recordOk q = true
      · rw [if_neg (by simpa using sound), if_pos sound]
      · rw [if_pos (by simpa using sound), if_neg sound]
    · rw [if_pos (by simpa [or_iff_not_imp_left] using good), if_neg good]
  · rw [if_pos next, if_neg next]

theorem codewordFixDev_up (n : Nat) (syms : List Nat) (o : Otp) :
    codewordFixDev p n syms o d =
      let d := portMod d p (fun v =>
        let v := cwAdvance v (n + 1)
        let hit := (List.range 4).filter (fun l => v.lanes.testBit l && nth syms l != 0)
        { v with fixAt := v.fixAt ++ hit.map (fun l => (v.cw, l, nth syms l)) })
      (List.range 4).foldl (fun d l => if 2 ^ 20 ≤ laneSymbols (portGet d p) l then laneRetire o d p l else d)
        (pcAdd d (kPort p + 2) 1) :=
  if_neg (by simp [hup])

theorem codewordBadDev_tag (n : Nat) (o : Otp) :
    codewordBadDev p n false o d = linkBad (portMod d p (fun v => cwAdvance v n)) p :=
  (if_neg (by simp [hup])).trans (if_pos rfl)

theorem codewordBadDev_up (n : Nat) (o : Otp) :
    codewordBadDev p n true o d =
      let d := pcAdd (portMod (portMod d p (fun v => cwAdvance v n)) p (fun v =>
        let v := cwAdvance v 1
        { v with badAt := v.badAt ++ [v.cw] })) (kPort p + 3) 1
      let v := portGet d p
      if 32 ≤ v.badAt.length then laneRetire o (portSet d p { v with badAt := [] }) p (worstLane v) else linkBad d p :=
  (if_neg (by simp [hup])).trans (if_neg (by decide))

theorem replayRequestDev_request {t : W64} (htag : tagOk t.toNat = true) (htype : bits t.toNat 30 2 = 2) (o : Otp) :
    replayRequestDev p t o d =
      let d := pcAdd (portMod (takeTag d p t.toNat) p replayAll) (kPort p + 4) 1
      if (portGet d p).replay.any (fun x => decide (8 ≤ x.replays)) then portRetire o d p else d := by
  unfold replayRequestDev
  rw [if_neg (by simp [hup]), if_neg (by simp [htag]), if_neg (by simp [htype])]

end

/-- Settles O43: on a port whose link is up the tag, the header and the counts pick what is done. -/
theorem linksCarryPackets : Obligations.LinksCarryPackets := by
  intro p s hup
  refine ⟨fun t rp => ⟨fun hdis => ?discards, fun hdis htag => ?takes, fun hdis htag => ?bad, fun htag htype => ?replay⟩,
    fun t rp h payload hdis htag hidle => ?arrival, fun n syms => ?corrected, fun n => ⟨?tag, ?codeword⟩, fun lane hlane => ?lock,
    ?loss⟩
  case discards =>
    exact ⟨runDev_of_agree (linkTagDev_discards hdis t s.otp),
      fun h payload => runDev_of_agree (packetArrivalDev_discards hdis t h payload s.otp)⟩
  case takes => exact runDev_of_agree ((linkTagDev_hears hup hdis t s.otp).trans (if_pos htag))
  case bad => exact runDev_of_agree ((linkTagDev_hears hup hdis t s.otp).trans (if_neg (by simp [htag])))
  case replay =>
    have request := replayRequestDev_request hup htag htype s.otp
    exact ⟨fun hworn => runDev_of_agree (request.trans (if_neg (by simp [hworn]))),
      fun hworn => runDev_of_agree (request.trans (if_pos hworn))⟩
  case arrival =>
    have hears := packetArrivalDev_hears hup hdis htag hidle h payload s.otp
    refine ⟨fun hnext => ?_, fun hnext hgood => ?_, fun hnext hgood hsound => ?_, fun hnext hgood hsound => ?_⟩
    · exact runDev_of_agree (hears.trans (if_neg hnext))
    · exact runDev_of_agree (hears.trans ((if_pos hnext).trans (if_neg hgood)))
    · exact runDev_of_agree (hears.trans ((if_pos hnext).trans ((if_pos hgood).trans (if_neg hsound))))
    · exact runDev_of_agree (hears.trans ((if_pos hnext).trans ((if_pos hgood).trans (if_pos hsound))))
  case corrected => exact runDev_of_agree (codewordFixDev_up hup n syms s.otp)
  case tag => exact runDev_of_agree (codewordBadDev_tag hup n s.otp)
  case codeword =>
    have counted := codewordBadDev_up hup n s.otp
    exact ⟨fun hfew => runDev_of_agree (counted.trans (if_neg (by exact Nat.not_le.mpr hfew))),
      fun hmany => runDev_of_agree (counted.trans (if_pos hmany))⟩
  case lock => exact runDev_of_agree (if_neg (by simp [hup, hlane]))
  case loss => exact runDev_of_agree (if_neg (by simp [hup]))

/-! ### Sighting -/

theorem signalDev_present {o : Otp} {d : Dev} {p : Nat} (h : portPresent o p = true) :
    signalDev p o d =
      let v := portGet d p
      if v.state = 2 then portSet d p { v with signal := true }
      else if v.state = 7 then portMod (startSighting o d p) p (fun v => { v with signal := true })
      else d :=
  if_neg (by simp [h])

theorem trainedDev_trains {d : Dev} {p : Nat} (hstate : (portGet d p).state = 2) (hsignal : (portGet d p).signal = true)
    (htrained : (portGet d p).trained = false) (lanes rtt : Nat) (o : Otp) :
    trainedDev p lanes rtt o d =
      let v := portGet d p
      let mask := (((onesBelow 4 lanes).filter (fun l => !v.retiredLanes.testBit l)).map (2 ^ ·)).foldl (· + ·) 0
      let media := (smGet cage0 d.sx.cages (p / 2)).media
      let len := legLength media rtt
      let d := portSet d p { v with trained := true, lanes := mask, lenCm := len, media := media }
      let d := putFix d 6 p 0 (natLe 2 len ++ natLe 1 media ++ natLe 1 mask ++ natLe 4 rtt)
      sendLocal d p 0x60 (sightBytes o d p) :=
  if_neg (by simp [hstate, hsignal, htrained])

/-! ### The records of a leg -/

section
variable {d : Dev} {p : Nat} {q : Pkt} (o : Otp)

theorem sightDev_taken (hq : inboxFind d 0x60 = some (p, q)) (hstate : (portGet (takePkt d p q) p).state = 2)
    (htrained : (portGet (takePkt d p q) p).trained = true) :
    sightDev o d =
      let d0 := takePkt d p q
      let r := hailReason d0 p q.payload
      let d := putFix (portSet d0 p { portGet d0 p with state := 3, partner := q.payload.take 60, reason := 0 }) 8 p 0
        (q.payload.take 36)
      let d := sendLocal d p 0x61 ([if r = 0 then 1 else 2, BitVec.ofNat 8 r, BitVec.ofNat 8 p, 0] ++
        natLe 4 (fld q.payload 1 1) ++ (q.payload.drop 8).take 8)
      if r = 0 then d else portLeave o d p 8 r := by
  rw [sightDev, onPacket_found hq]
  exact if_neg (by simp [hstate, htrained])

theorem hailDev_taken (hq : inboxFind d 0x61 = some (p, q)) (hlow : 3 ≤ (portGet (takePkt d p q) p).state)
    (hhigh : (portGet (takePkt d p q) p).state ≤ 6) :
    hailDev o d =
      let d := takePkt d p q
      let v := portGet d p
      if fld q.payload 0 1 = 2 then portLeave o d p 8 (fld q.payload 1 1)
      else if v.state = 3 then
        sendLocal (portSet d p { v with state := 4 }) p 0x62
          (zeros 4 ++ natLe 4 (ownCoord d) ++ natLe 8 (bits d.pow.siteCode.toNat 20 20))
      else d := by
  rw [hailDev, onPacket_found hq]
  exact if_neg (by omega)

theorem fixDev_taken (hq : inboxFind d 0x62 = some (p, q)) (hstate : (portGet (takePkt d p q) p).state = 4) :
    fixDev o d =
      let d := takePkt d p q
      let v := portGet d p
      let r := fixReason d p q.payload
      if r ≠ 0 then
        portLeave o (sendLocal d p 0x61 ([2, BitVec.ofNat 8 r, BitVec.ofNat 8 p, 0] ++ natLe 4 (fld v.partner 1 1) ++
          (v.partner.drop 8).take 8)) p 8 r
      else sendLocal (portSet d p { v with state := 5 }) p 0x63 (chartBytes d (p / 4)) := by
  rw [fixDev, onPacket_found hq]
  exact if_neg (not_not.mpr hstate)

theorem chartDev_taken (hq : inboxFind d 0x63 = some (p, q))
    (hstate : (portGet (takePkt d p q) p).state = 5 ∨ (portGet (takePkt d p q) p).state = 6) :
    chartDev o d =
      let d := takePkt d p q
      let st := (portGet d p).state
      let k := p / 4
      let r := d.fab.rings.getD k ring0
      let r' := chartMerge r q.payload
      let changed := fld q.payload 0 1 = k ∧ r' ≠ r
      let d := if changed then { d with fab := { d.fab with rings := setAt d.fab.rings k r' } } else d
      let d := if st = 5 then
          settleReady o (pump (legReport (portMod d p (fun v => { v with state := 6 })) p true) p) else d
      if changed then chartAll d k p else d := by
  rw [chartDev, onPacket_found hq]
  exact if_neg (by omega)

end

/-- Settles O44: the port's state and the record's verdict pick what a discovery event does. -/
theorem legsAreDiscovered : Obligations.LegsAreDiscovered := by
  refine ⟨fun p s => ⟨fun hpresent => ⟨fun hstate => ?listens, fun hstate => ?returns⟩, fun lanes rtt hstate hsignal htrained => ?trained,
    fun hstate hsignal => ?silent, fun hstate hsignal htrained => ?untrained, fun hstate hreason => ?retry⟩,
    fun s p q => ⟨fun hq hstate htrained => ?sight, fun hq hlow hhigh => ?hail, fun hq hstate => ?fix, fun hq hstate => ?chart⟩⟩
  case listens => exact runDev_of_agree ((signalDev_present hpresent).trans (if_pos hstate))
  case returns => exact runDev_of_agree ((signalDev_present hpresent).trans ((if_neg (by omega)).trans (if_pos hstate)))
  case trained => exact runDev_of_agree (trainedDev_trains hstate hsignal htrained lanes rtt s.otp)
  case silent => exact runDev_of_agree (if_pos ⟨hstate, by simp [hsignal]⟩)
  case untrained => exact runDev_of_agree (if_pos ⟨hstate, hsignal, by simp [htrained]⟩)
  case retry => exact runDev_of_agree (if_pos ⟨hstate, hreason⟩)
  case sight =>
    have sight := sightDev_taken s.otp hq hstate htrained
    exact ⟨fun haccept => runDev_of_agree (sight.trans (if_pos haccept)),
      fun hexclude => runDev_of_agree (sight.trans (if_neg hexclude))⟩
  case hail =>
    have hail := hailDev_taken s.otp hq hlow hhigh
    exact ⟨fun hexclude => runDev_of_agree (hail.trans (if_pos hexclude)),
      fun haccept hsighted => runDev_of_agree (hail.trans ((if_neg haccept).trans (if_pos hsighted)))⟩
  case fix =>
    have fix := fixDev_taken s.otp hq hstate
    refine ⟨fun hgood => runDev_of_agree (fix.trans (if_neg (not_not.mpr hgood))),
      fun hbad => runDev_of_agree ((fix.trans (if_pos hbad)).trans ?_)⟩
    dsimp only
    rw [if_neg hbad]
  case chart => exact runDev_of_agree (chartDev_taken s.otp hq hstate)

end Sys2Proof.Machine
end

section
/-! Recomputation after a disagreement (chapter 15): the statement O14. -/
namespace Sys2Proof.Machine

/-! ### The decision of Table 15-3 -/

section
variable {t : TileSt} {r2 r3 : Acc} {flip2 flip3 : List Nat}

theorem tileCase_rerun {other : Bool} (h : tileAgrees t r2 flip2 = true) : tileCase other t r2 r3 flip2 flip3 = 1 := if_pos h

theorem tileCase_third {other : Bool} (hother : other = true) (h2 : tileAgrees t r2 flip2 = false) (h3 : tileAgrees t r3 flip3 = true) :
    tileCase other t r2 r3 flip2 flip3 = 2 := by
  simp [tileCase, hother, h2, h3]

theorem tileCase_equal {other : Bool} (hother : other = true) (h2 : tileAgrees t r2 flip2 = false) (h3 : tileAgrees t r3 flip3 = false) (heq : r2 = r3) :
    tileCase other t r2 r3 flip2 flip3 = 3 := by
  subst heq
  simp [tileCase, hother, h2, h3]

theorem tileCase_unresolved {other : Bool} (h2 : tileAgrees t r2 flip2 = false)
    (h : other = false ∨ tileAgrees t r3 flip3 = false ∧ r2 ≠ r3) : tileCase other t r2 r3 flip2 flip3 = 4 := by
  rcases h with rfl | ⟨h3, hne⟩
  · simp [tileCase, h2]
  · simp [tileCase, h2, h3, hne]

end

/-- A tile whose recomputations are complete is decided by its case (R420). -/
theorem tileRecomputeDev_decides {d : Dev} {inst : Nat} {v : Stream} {t : TileSt} (hv : stGet d (ek 1 inst) = some v)
    (ht : v.tile = some t) (hrerun : t.rerun = true) {w2 w3 : List (Nat × Nat)} {f2 f3 : List Nat} {c : Nat}
    (hcase : tileCase t.server.isSome (tileRerun d v t w2).1 (tileRerun d v t w2).2 (tileRerun d v t w3).2 f2 f3 = c)
    (katFail : Nat) (o : Otp) :
    tileRecomputeDev inst w2 w3 f2 f3 katFail o d =
      let e := ek 1 inst
      let die := dieOf 1 inst
      let u := (tileRerun d v t w2).1
      let r2 := (tileRerun d v t w2).2
      let r3 := (tileRerun d v t w3).2
      let d := if u.after = t.after then d else bump d
      let ev := fun u th n => if t.injected = true then d else unitEvent o d u th n
      if c = 1 then tileAccept (caseLog (ev e 3 1) t 1 1 1 e stOk []) e t r2
      else if c = 2 then
        tileAccept (captureLog (ev e 3 2) t 2 1 e (specHead t c ++ u.spec)) e t r3
      else if c = 3 then
        let k := collKat o (ev (collKey die) 2 1) die katFail
        tileAccept (if katOk o d = true ∧ katFail < 2 then captureLog k t 3 2 die (specHead t c ++ u.spec)
          else caseLog k t 3 1 2 die stOk []) e t r2
      else stFault (caseLog d t 4 3 1 e stMxUnresolved []) e stMxUnresolved := by
  subst hcase
  simp only [tileRecomputeDev, hv, ht]
  rw [if_neg (by simp [hrerun])]
  simp only [Bool.and_eq_true, decide_eq_true_eq]

/-- Settles O14: the case of Table 15-3 picks what is accepted, counted and captured. -/
theorem recomputationDecides : Obligations.RecomputationDecides := by
  intro inst katFail w2 w3 f2 f3 s v t hv ht hrerun
  refine ⟨fun h2 => ?rerun, fun h2 hserver h3 => ?third, fun h2 hserver h3 heq => ?equal, fun h2 hnone => ?unresolved⟩
  case rerun =>
    have decides := tileRecomputeDev_decides hv ht hrerun (tileCase_rerun h2) katFail s.otp (w3 := w3) (f3 := f3)
    exact runDev_of_agree (decides.trans (if_pos rfl))
  case third =>
    have decides := tileRecomputeDev_decides hv ht hrerun (tileCase_third hserver h2 h3) katFail s.otp
    exact runDev_of_agree (decides.trans ((if_neg (by decide)).trans (if_pos rfl)))
  case equal =>
    have decides := tileRecomputeDev_decides hv ht hrerun (tileCase_equal hserver h2 h3 heq) katFail s.otp
    exact runDev_of_agree (decides.trans ((if_neg (by decide)).trans ((if_neg (by decide)).trans (if_pos rfl))))
  case unresolved =>
    have hcase := tileCase_unresolved (other := t.server.isSome) h2 (hnone.imp_left fun h => by simp [h])
    have decides := tileRecomputeDev_decides hv ht hrerun hcase katFail s.otp
    exact runDev_of_agree (decides.trans ((if_neg (by decide)).trans ((if_neg (by decide)).trans (if_neg (by decide)))))

end Sys2Proof.Machine
end

section
/-! Known-answer tests and the scrub (chapter 15): the statement O41. -/
namespace Sys2Proof.Machine

/-! ### What a run of tests leaves of its unit -/

@[simp] theorem unitGet_unitSet (d : Dev) (u : Nat) (v : UnitSt) : unitGet (unitSet d u v) u = v :=
  smGet_smSet_self unit0 d.int.units u v

theorem unitGet_ledger {d d' : Dev} (h : LedgerOnly d d') (u : Nat) : unitGet d' u = unitGet d u := by
  obtain ⟨_, _, _, _, _, rfl⟩ := h
  rfl

/-- A retirement sets its unit's state; its record and its Ledger entries leave the units (R425). -/
theorem retireUnit_unit (o : Otp) (d : Dev) (u : Nat) : unitGet (retireUnit o d u) u = { unitGet d u with state := 2 } := by
  have event : ∀ y : Dev, unitGet (if 224 ≤ u then lgEvent o y 4 (u - 224) 0 0 else lgEvent o y 3 0 u 0) u = unitGet y u :=
    fun y => by
      split
      · exact unitGet_ledger (lgEvent_ledger ..) u
      · exact unitGet_ledger (lgEvent_ledger ..) u
  rw [retireUnit]
  refine (event _).trans ((unitGet_ledger (lgAdd_ledger ..) u).trans ((unitGet_ledger (logRec_ledger ..) u).trans ?_))
  split
  · exact unitGet_unitSet d u _
  · exact unitGet_unitSet d u _

/-- An event changes the state and the counts of its unit alone. -/
theorem unitEvent_unit (o : Otp) (d : Dev) (u th n : Nat) :
    ∃ events state clean, unitGet (unitEvent o d u th n) u =
      { unitGet d u with events := events, state := state, clean := clean } := by
  unfold unitEvent
  dsimp only
  split
  · rw [retireUnit_unit, unitGet_unitSet]
    exact ⟨_, _, _, rfl⟩
  · rw [unitGet_unitSet]
    exact ⟨_, _, _, rfl⟩

/-- The step of the last test is this one, and no test is due. -/
def Tested (d : Dev) (u : Nat) (step : W64) : Prop := (unitGet d u).due = false ∧ (unitGet d u).lastKat = step

theorem unitEvent_tested {d : Dev} {u : Nat} {step : W64} (h : Tested d u step) (o : Otp) (th n : Nat) :
    Tested (unitEvent o d u th n) u step := by
  obtain ⟨events, state, clean, hunit⟩ := unitEvent_unit o d u th n
  rw [Tested, hunit]
  exact h

theorem retireUnit_tested {d : Dev} {u : Nat} {step : W64} (h : Tested d u step) (o : Otp) : Tested (retireUnit o d u) u step := by
  rw [Tested, retireUnit_unit]
  exact h

/-- The record of a run of tests leaves the units as the run has set them. -/
theorem logRec_tested {d : Dev} {u : Nat} {v : UnitSt} (hdue : v.due = false) (a b c e f g h : Nat) (i : Bool) (l : List Byte) :
    Tested (logRec (unitSet d u v) a b c e f g h i l) u v.lastKat := by
  rw [Tested, unitGet_ledger (logRec_ledger _ a b c e f g h i l), unitGet_unitSet]
  exact ⟨hdue, rfl⟩

/-- A run is a clean record of the test, the events found, and the retirement of a confirmed failure (R428, R430). -/
theorem katApply_tested (o : Otp) (d : Dev) (u : Nat) (k : KatRun) :
    ∃ d', Tested d' u d.verLastStep ∧ katApply o d u k = if k.confirmed && !retired d' u then retireUnit o d' u else d' := by
  refine ⟨_, ?_, rfl⟩
  split
  · exact unitEvent_tested (logRec_tested rfl ..) o _ _
  · exact logRec_tested rfl ..

/-- Of a run, the queues decide nothing. -/
theorem kat_queues (o : Otp) {d d' : Dev} (h : QueuesOnly d d') (r : Running) :
    katStatus o d' r = katStatus o d r ∧ katTests d' r = katTests d r ∧ d'.freeIdx = d.freeIdx := by
  obtain ⟨_, rfl⟩ := h
  exact ⟨rfl, rfl, rfl⟩

/-- Settles O41: a run is its status, its tests and its record; the unit tested is no longer due, and a confirmed failure retires it. -/
theorem knownAnswersAndScrub : Obligations.KnownAnswersAndScrub := by
  refine ⟨fun q bad s v r hfresh => ?command, fun u bad s hdue hbusy => ?due, fun o d u k => ?applied, fun faults s => runDev_of_agree rfl⟩
  case command =>
    obtain ⟨status, tests, free⟩ := kat_queues s.otp (runMod_frame s.dev q r.cmd.cseq.toNat (fun r => { r with started := true })) r
    refine runDev_of_agree ((onFresh_fresh hfresh).trans ?_)
    dsimp only
    rw [status, tests, free]
  case due => exact runDev_of_agree (if_neg (by simp [hdue, hbusy]))
  case applied =>
    obtain ⟨d', ⟨hdue, hlast⟩, happly⟩ := katApply_tested o d u k
    rw [happly]
    cases hconfirmed : k.confirmed && !retired d' u
    · rw [if_neg (by decide)]
      exact ⟨hdue, hlast, fun h => by simpa [h] using hconfirmed⟩
    · rw [if_pos rfl]
      obtain ⟨hdue, hlast⟩ := retireUnit_tested ⟨hdue, hlast⟩ o
      exact ⟨hdue, hlast, fun _ => by rw [retired, retireUnit_unit]; rfl⟩

end Sys2Proof.Machine
end

section
/-! Reduce-scatter's chunks and acknowledgements (chapter 14): the statement O33. -/
namespace Sys2Proof.Machine

/-- A packet for a channel that is CLOSED or runs an earlier operation is refused (R394). -/
theorem onChan_refuses {d : Dev} {n op seq : Nat} (hm : chMatch d n op seq = 1) (p : Pkt) (f : Dev → Chan → Dev) :
    onChan d p n op seq f = sendRefuse d p stCollClosed := by
  simp only [onChan, hm]

/-- A packet of a past operation is a stray (R394). -/
theorem onChan_strays {d : Dev} {n op seq : Nat} (hm : chMatch d n op seq = 2) (p : Pkt) (f : Dev → Chan → Dev) :
    onChan d p n op seq f = pcAdd d (kColl + 3) 1 := by
  simp only [onChan, hm]

section
variable {o : Otp} {d : Dev} {port : Nat} {p : Pkt}

/-- The chunks of a member's packet are taken, and the packet is answered (R396 to R398). -/
theorem rsChunkDev_taken {c : Chan} {i : Nat} (hp : inboxFind d 0x20 = some (port, p))
    (hc : chGet d (fld p.body 6 1 % 16) = some c) (hm : chMatch d (fld p.body 6 1 % 16) 1 (fld p.body 4 2) = 0)
    (hi : boxIndex d c.group.base c.group.ext p.src = some i) :
    rsChunkDev o d =
      let n := fld p.body 6 1 % 16
      let r := (rsChunks c p).foldl (rsTake n i) (takePkt d port p, 0, false)
      let d := chMod r.1 n (fun c => { c with dup := c.dup + r.2.1 })
      rsSettle (if (chGet d n).isNone then sendRefuse d p stCollClosed
        else if r.2.2 then sendRefuse (tableFull d) p stCollFull
        else sendNew d 0x21 p.src p.tag (p.body.take 8 ++ natLe 1 (if r.2.1 = 0 then 0 else 1)) []) n := by
  have member : boxIndex (takePkt d port p) c.group.base c.group.ext p.src = some i := by
    rw [boxIndex_takePkt, hi]
  rw [rsChunkDev, onPacket_found hp]
  dsimp only
  rw [onChan_taken hc hm]
  simp only [member]

theorem rsChunkDev_refused (hp : inboxFind d 0x20 = some (port, p))
    (hm : chMatch d (fld p.body 6 1 % 16) 1 (fld p.body 4 2) = 1) :
    rsChunkDev o d = sendRefuse (takePkt d port p) p stCollClosed := by
  rw [rsChunkDev, onPacket_found hp]
  exact onChan_refuses ((chMatch_takePkt ..).trans hm) p _

theorem rsChunkDev_stray (hp : inboxFind d 0x20 = some (port, p))
    (hm : chMatch d (fld p.body 6 1 % 16) 1 (fld p.body 4 2) = 2) :
    rsChunkDev o d = pcAdd (takePkt d port p) (kColl + 3) 1 := by
  rw [rsChunkDev, onPacket_found hp]
  exact onChan_strays ((chMatch_takePkt ..).trans hm) p _

/-- RS_ACK takes the packet that it answers from its channel (R398, R399). -/
theorem rsAckDev_answers {n : Nat} {r : Req} (hp : inboxFind d 0x21 = some (port, p)) (hr : reqChan d p.tag = some (n, r))
    (hk : r.pkt.kind = 0x20) (hdst : r.pkt.dst = p.src) :
    rsAckDev o d = rsSettle (chAnswered (takePkt d port p) n p.tag) n := by
  rw [rsAckDev, onPacket_found hp, onAck_answers ((reqChan_takePkt ..).trans hr) hk hdst]

end

theorem not_isNone {x : Option Chan} (h : x.isSome = true) : ¬x.isNone = true := by
  cases x with
  | none => simp at h
  | some c => simp

/-- Settles O33: the operation that the channel runs decides a packet's chunks; a request that waits or is late goes out again. -/
theorem chunksAreReduced : Obligations.ChunksAreReduced := by
  refine ⟨fun s port p hp => ⟨fun c i hc hm hi => ⟨fun hopen hroom => ?taken, fun hopen hfull => ?full⟩, fun hm => ?refused, fun hm => ?stray⟩,
    fun s port p n r hp hr hk hdst => runDev_of_agree (rsAckDev_answers hp hr hk hdst),
    fun s t n r hr => ⟨fun hwaits hk => ?late, fun hwaits => ?again⟩, fun s n => runDev_of_agree rfl⟩
  case taken =>
    refine runDev_of_agree ((rsChunkDev_taken hp hc hm hi).trans ?_)
    dsimp only at hopen hroom ⊢
    rw [if_neg (not_isNone hopen), if_neg (by simp [hroom])]
  case full =>
    refine runDev_of_agree ((rsChunkDev_taken hp hc hm hi).trans ?_)
    dsimp only at hopen hfull ⊢
    rw [if_neg (not_isNone hopen), if_pos hfull]
  case refused => exact runDev_of_agree (rsChunkDev_refused hp hm)
  case stray => exact runDev_of_agree (rsChunkDev_stray hp hm)
  case late =>
    refine runDev_of_agree ?_
    simp only [rsTimeoutDev, hr]
    exact if_pos ⟨hk, by simp [hwaits]⟩
  case again =>
    refine runDev_of_agree ?_
    simp only [collResendDev, hr]
    exact if_pos hwaits

end Sys2Proof.Machine
end

section
/-! The opening of collectives (chapter 14): the statement O32. A DC_COLL passes the checks of R392 in the same way whatever its
operation; only what it then opens differs. -/
namespace Sys2Proof.Machine

/-! ### A DC_COLL on its way through the checks of R392 -/

/-- The first status of the form, the group and the area, and of the records' windows and map. -/
def collJudge (d : Dev) (v : Queue) (r : Running) : Nat :=
  let b := r.cmd.body
  let grp := smGet none d.groups (fld b 4 2)
  firstBad [(collForm d b grp == stOk, collForm d b grp),
    (recStatus d v.owner (clRecs b) == stOk, recStatus d v.owner (clRecs b))]

/-- The command with its own copy of its descriptors. -/
def collMine (d : Dev) (r : Running) : Running := cmdOwn d r (clRecs r.cmd.body)

/-- The descriptors read, and whether their check codes came right. -/
def collTold (o : Otp) (d : Dev) (q rr : Nat) (r mine : Running) : Dev × Bool :=
  collRead o (cmdHold d q r (clRecs r.cmd.body)) mine rr

/-- The device once the command has judged its descriptors' check codes. -/
def collBegun (o : Otp) (d : Dev) (q rr : Nat) (r mine : Running) : Dev :=
  runMod (collTold o d q rr r mine).1 q r.cmd.cseq.toNat (fun x => { x with started := true, work := [2] })

/-- The channel that the command is to open, on the device that it has begun on. -/
def collChan (now : Dev) (q : Nat) (v : Queue) (mine : Running) (g : Group) : Chan :=
  chan0 q mine.cmd.cseq.toNat v.owner g mine.cmd.body (clDst now mine) (clSrc now mine)

/-- Its descriptors are at hand, and nothing before them bars the command. -/
def CollJudged (d : Dev) (q : Nat) (v : Queue) (r : Running) (g : Group) : Prop :=
  collJudge d v r = stOk ∧ smGet none d.groups (fld r.cmd.body 4 2) = some g ∧
    gaMissing (cmdHold d q r (clRecs r.cmd.body)) (collMine d r).rbuf (clRecs r.cmd.body) = []

section
variable {o : Otp} {d : Dev} {q rr : Nat} {v : Queue} {r : Running} {ops : Nat → Bool} {f : Dev → Nat → Chan → Running → Dev}
  (hcomes : Awaits d q v r (fun r => r.cmd.op == 0x38 && ops (clOp r.cmd.body) && !collAtWork r))
include hcomes

theorem collOpen_refused (hst : collJudge d v r ≠ stOk) :
    collOpen o d q rr ops f = cmdFinal d q r.cmd.cseq.toNat (collJudge d v r) 0 := by
  rw [collOpen, onActive_of_awaits hcomes]
  dsimp only
  split
  · rfl
  · exact if_pos hst

theorem collOpen_judged {g : Group} (hjudged : CollJudged d q v r g) :
    collOpen o d q rr ops f =
      let now := collBegun o d q rr r (collMine d r)
      let mine := collMine d r
      if !(collTold o d q rr r mine).2 then cmdFinal (collTold o d q rr r mine).1 q r.cmd.cseq.toNat stTdCrc 0
      else if collStatus now v.owner mine g ≠ stOk then
        cmdFinal now q r.cmd.cseq.toNat (collStatus now v.owner mine g) 0
      else f now (clChan r.cmd.body) (collChan now q v mine g) mine := by
  obtain ⟨hst, hgrp, hhere⟩ := hjudged
  rw [collOpen, onActive_of_awaits hcomes]
  simp only [hgrp]
  rw [collJudge, hgrp] at hst
  exact stage_goesOn hst hhere _ _

end

/-- What keeps a DC_COLL from opening its channel, in the order of the checks. -/
theorem collOpen_fails {i : Instr} {s : State} {q rr : Nat} {v : Queue} {r : Running} {ops : Nat → Bool}
    {f : Dev → Nat → Chan → Running → Dev} (hi : exec i s = runDev (fun o d => collOpen o d q rr ops f) s)
    (hcomes : Awaits s.dev q v r (fun r => r.cmd.op == 0x38 && ops (clOp r.cmd.body) && !collAtWork r)) (g : Group) :
    let mine := collMine s.dev r
    (collJudge s.dev v r ≠ stOk →
      exec i s = .next (settle (fun _ d => cmdFinal d q r.cmd.cseq.toNat (collJudge s.dev v r) 0) s)) ∧
    (CollJudged s.dev q v r g → (collTold s.otp s.dev q rr r mine).2 = false →
      exec i s = .next (settle (fun o d => cmdFinal (collTold o d q rr r mine).1 q r.cmd.cseq.toNat stTdCrc 0) s)) ∧
    (CollJudged s.dev q v r g → (collTold s.otp s.dev q rr r mine).2 = true →
      collStatus (collBegun s.otp s.dev q rr r mine) v.owner mine g ≠ stOk →
      exec i s = .next (settle (fun o d => cmdFinal (collBegun o d q rr r mine) q r.cmd.cseq.toNat
        (collStatus (collBegun s.otp s.dev q rr r mine) v.owner mine g) 0) s)) := by
  intro mine
  rw [hi]
  refine ⟨fun hst => ?_, fun hjudged hcrc => ?_, fun hjudged hcrc hst => ?_⟩
  · exact runDev_of_agree (collOpen_refused hcomes hst)
  · exact runDev_of_agree ((collOpen_judged hcomes hjudged).trans (if_pos (by simpa using hcrc)))
  · exact runDev_of_agree ((collOpen_judged hcomes hjudged).trans ((if_neg (by simpa using hcrc)).trans (if_pos hst)))

/-- A DC_COLL that passes every check opens its channel as its operation does. -/
theorem collOpen_passes {o : Otp} {d : Dev} {q rr : Nat} {v : Queue} {r : Running} {ops : Nat → Bool}
    (hcomes : Awaits d q v r (fun r => r.cmd.op == 0x38 && ops (clOp r.cmd.body) && !collAtWork r)) {g : Group}
    (hjudged : CollJudged d q v r g) (hcrc : (collTold o d q rr r (collMine d r)).2 = true)
    (hst : collStatus (collBegun o d q rr r (collMine d r)) v.owner (collMine d r) g = stOk)
    (f : Dev → Nat → Chan → Running → Dev) :
    collOpen o d q rr ops f =
      let now := collBegun o d q rr r (collMine d r)
      f now (clChan r.cmd.body) (collChan now q v (collMine d r) g) (collMine d r) :=
  (collOpen_judged hcomes hjudged).trans ((if_neg (by simp [hcrc])).trans (if_neg (not_not.mpr hst)))

theorem any_above {n m : Nat} {cnt : Nat → Nat} :
    (List.range n).any (fun i => decide (m < cnt i)) = true ↔ ∃ i < n, m < cnt i := by
  simp

/-- Settles O32: the checks of R392 are the same for all four operations, and each opens its channel in its own way. -/
theorem collectivesOpen : Obligations.CollectivesOpen := by
  intro q rr s v r g
  refine ⟨fun hcomes => ⟨collOpen_fails rfl hcomes g, fun ⟨hjudged, hcrc, hst⟩ => ?rscat⟩,
    fun hcomes => ⟨collOpen_fails rfl hcomes g, fun ⟨hjudged, hcrc, hst⟩ hbar => ?agather⟩,
    fun hcomes => ⟨collOpen_fails rfl hcomes g, fun ⟨hjudged, hcrc, hst⟩ hcounts =>
      ⟨fun hbad => ?large, fun hgood hbar hneeds => ?alltoall⟩⟩,
    fun hrr hcomes => ⟨?barrierFails, fun ⟨hjudged, hcrc, hst⟩ hbar => ?barrier⟩⟩
  case rscat => exact runDev_of_agree (collOpen_passes hcomes hjudged hcrc hst _)
  case agather =>
    have free : collBar (collBegun s.otp s.dev q rr r (collMine s.dev r))
      (collChan (collBegun s.otp s.dev q rr r (collMine s.dev r)) q v (collMine s.dev r) g) = none := hbar
    refine runDev_of_agree ((collOpen_passes hcomes hjudged hcrc hst _).trans ?_)
    dsimp only
    rw [free]
    rfl
  case large =>
    exact runDev_of_agree ((collOpen_passes hcomes hjudged hcrc hst _).trans ((cmdOnce_here hcounts _).trans
      (if_pos (any_above.mpr hbad))))
  case alltoall =>
    refine runDev_of_agree ((collOpen_passes hcomes hjudged hcrc hst _).trans ((cmdOnce_here hcounts _).trans
      ((if_neg (mt any_above.mp hgood)).trans ?_)))
    split
    · next st hst => exact absurd (hst.symm.trans hbar) (by simp)
    · exact cmdNeed_here hneeds _
  case barrierFails =>
    subst hrr
    exact collOpen_fails rfl hcomes g
  case barrier =>
    subst hrr
    have free : collBar (collBegun s.otp s.dev q 0 r (collMine s.dev r))
      (collChan (collBegun s.otp s.dev q 0 r (collMine s.dev r)) q v (collMine s.dev r) g) = none := hbar
    refine runDev_of_agree ((collOpen_passes hcomes hjudged hcrc hst _).trans ?_)
    dsimp only
    rw [free]
    rfl

end Sys2Proof.Machine
end
